-- ==== Sys2Proof/Word.lean ====
section
/-! DEFINITION. The word types the manual reads and writes as bits (R8). -/

namespace Sys2Proof

/-- A byte is 8 bits (R8). -/
abbrev Byte := BitVec 8
/-- A 16-bit field. -/
abbrev Half := BitVec 16
/-- A word is 32 bits (R8). -/
abbrev Word := BitVec 32
/-- A doubleword is 64 bits (R8). -/
abbrev DWord := BitVec 64
/-- A vector register or a 64-byte descriptor: 512 bits (R274, R284). -/
abbrev Vec512 := BitVec 512
/-- A string of bytes as it crosses an interface, first byte first. -/
abbrev Bytes := List Byte
/-- A function number, 0 to 255 (R18); larger numbers name no function. -/
abbrev Fn := Nat

end Sys2Proof
end

