-- ==== Sys2Proof/Syntax.lean ====
section
/-! DEFINITION. The block's commands: one constructor for every row of spec/opcode_table.json, in the table's order,
with the operands the rule of the row gives it. A `cid` names an admitted command of the node (its packet is in
the state, R101), an `sh` a shuttle 0..16383 (128 x loom + 64 x engine + number, R275, R303), a `ch` a channel
0..639 (R207), a `port` 0..11 (R388), an `inst` an instance number (R299). What the outside world supplies with an
event (a measured value, bytes that arrive) is an operand. -/

namespace Sys2Proof

/-- Capabilities of the configuration space that R78 names, the absent ones among them. -/
inductive PcieCap where
  | pciExpress | powerManagement | msix | aer | ari | sriov | acs | doe | dsn | dataLinkFeature
  | physical16 | physical32 | physical64 | physical128 | laneMargining
  | msi | ats | pageRequest | pasid | ltr | l1Substates | tph | resizableBar | ptm | ide | tdisp
deriving DecidableEq, Repr

/-- Configuration fields of a function that a configuration request reads or writes (R77, R78, R80, R81, R84, R86, R89-R91,
R97, R98, R540). -/
inductive CfgField where
  | capability (c : PcieCap)
  -- identity and base addresses
  | vendorId | deviceId | revisionId | classCode | subsysVendorId | subsysId | interruptPin | bar (n : Nat) | dsn
  -- PCI Express
  | flrCapable | extendedTags | tags14 | timeoutRanges | timeoutDisableSupported | payloadSupported
  | payloadSize | readRequestSize | relaxedOrdering | tags14Enable | timeoutValue | timeoutDisable | errorReporting
  | aspmSupport | l1ExitLatency | aspmL1
  -- Power Management
  | powerState | noSoftReset | d1Support | d2Support
  -- MSI-X
  | msixTableSize | msixTableBar | msixTableOffset | msixPbaBar | msixPbaOffset | msixEnable | msixFunctionMask
  -- Advanced Error Reporting
  | aerUncorrectableStatus | aerUncorrectableMask | aerUncorrectableSeverity | aerCorrectableStatus | aerCorrectableMask
  -- ARI, Access Control Services, Data Link Feature
  | nextFunction | acsCapability | acsControl | scaledFlowControl
  -- Data Object Exchange
  | doeStatus | doeData
  -- SR-IOV
  | ariCapable | numVfs | totalVfs | initialVfs | firstVfOffset | vfStride | vfDeviceId | supportedPageSizes | vfEnable
  | vfBar (n : Nat) | vfMigration | functionDependencyLink
deriving DecidableEq, Repr

/-- What a configuration request does: a read of a field, or a write of a value to it (R482). -/
inductive CfgAccess where
  | read (field : CfgField)
  | write (field : CfgField) (value : Nat)
deriving DecidableEq, Repr

/-- The target of a poisoned write, or another error of the host link that the endpoint meets as a receiver (R91). -/
inductive LinkError where
  | poisonedCommandWindow | poisonedAperture | poisonedBar2
  | malformedTlp | receiverError | badTlp | badDllp | replayRollover | replayTimeout
deriving DecidableEq, Repr

/-- How a node read of host memory failed (R91). -/
inductive ReadError where
  | poisoned | timeout | unsupportedRequest | completerAbort
deriving DecidableEq, Repr

/-- A DOE request object: a discovery query of an index, or a CMA/SPDM object (R90). -/
inductive DoeObject where
  | discovery (index : Nat)
  | cma
deriving DecidableEq, Repr

/-- The SPDM requests of R505, R507: the ones that change the session or leave a signed response, and all others. -/
inductive SpdmReq where
  | challenge | measurements (signed : Bool) | keyExchange | finish | endSession | other (code : Nat)
deriving DecidableEq, Repr

/-- What the packet layer finds in a received packet (R394, R422, R429). -/
inductive PktCheck where
  | good | badCrc | badTag | badKind
deriving DecidableEq, Repr

/-- A flit as the receiver sees it (R390, R391): its kind, its sequence number, the bytes in error, the packet
check of the packet that ends in it, if any. -/
structure Flit where
  kind : Nat
  fseq : BitVec 16
  byteErrors : Nat
  ends : Option PktCheck
deriving DecidableEq, Repr

/-- A packet of the fabric after decryption (R393): the header fields the node acts on, and its payload. -/
structure Packet where
  port : Nat
  src : Nat
  fn : Nat
  seq : BitVec 32
  epoch : BitVec 32
  keyId : Nat
  ctx : Nat
  offset : Nat
  last : Bool
  compressed : Bool
  payload : List Byte
deriving DecidableEq, Repr

/-- The reply fields of R149 as a Reply packet brings them. -/
structure ReplyFields where
  status : Byte
  rflags : Byte
  count : BitVec 32
  invalid : BitVec 32
  version : BitVec 32
  value : BitVec 32
deriving DecidableEq, Repr

/-- What the error correction of a near-tier, weave-store or reed-storage read finds (R516). -/
inductive Ecc where
  | clean
  | corrected
  | uncorrectable
deriving DecidableEq, Repr

/-- How a flash read ended (R195, R196): the ladder stage that corrected it (1 to 3), the codewords rebuilt at stage 4, the
whole read served from the other members of the stripe because the die is busy, or unrecoverable. -/
inductive FlashOutcome where
  | corrected (stage : Nat)
  | rebuilt (codewords : List Nat)
  | viaStripe
  | unrecoverable
deriving DecidableEq, Repr

/-- Who waits for a flash read (R181, R173, R287): an admitted command, a list of a search, an aperture read, a
load of a shuttle, an array descriptor of a loom, a reed, or background work. -/
inductive FlashClient where
  | command (cid : Nat)
  | list (cid list : Nat)
  | aperture (fn off len : Nat)
  | shuttle (sh : Nat)
  | array (loom : Nat)
  | reed (r : Nat)
  | background
deriving DecidableEq, Repr

/-- The thermal levels 1 to 4 of R460, levels 3 and 4 with their stack or flash channel. -/
inductive ThermLevel where
  | die1 | die2 | stack (s : Nat) | flash (c : Nat)
deriving DecidableEq, Repr

/-- A transaction that the node answers on the SMBus (R71-R75): the Alert Response Address; a read of the management
endpoint at a code; a write to it, with its data bytes and PEC byte if any; a read of the inventory EEPROM; a write to it.
A read says whether a PEC byte is asked for. -/
inductive SmbusQuery where
  | alert
  | read (code : Byte) (pec : Bool)
  | write (code : Byte) (data : List Byte) (pec : Option Byte)
  | eepromRead (offset length : Nat)
  | eepromWrite (offset : Nat) (data : List Byte)
deriving DecidableEq, Repr

/-- The measured inputs of one allocation (R452, R455), the readings of R72 among them: input voltage in mV, input current
in 10 mA, input power in 0.1 W, plate and hottest junction in 1/16 C, averages over the preceding 1 ms. -/
structure DraughtInput where
  vinMv : Nat
  iin10Ma : Nat
  pin100Mw : Nat
  plateX16 : Int
  hotX16 : Int
  demandW : List Nat
  usedW : List Nat
deriving DecidableEq, Repr

/-- The commands of the block. An operand with a default may be left out. -/
inductive Instr where
  /-- R61, R57: power-on reset; the eight CFG_SEL conversions, and whether VSTBY is the input that came. -/
  | powerOnReset (conv : List Nat) (vstby : Bool := true)
  /-- R56, R57: pin reset; the eight CFG_SEL conversions. -/
  | pinReset (conv : List Nat)
  /-- R56, R57: reset is released; the eight CFG_SEL conversions, for a reset that has not measured the strap yet. -/
  | resetRelease (conv : List Nat := List.replicate 8 1023)
  /-- R58: a trigger pulse on TRIG_IN. -/
  | trigIn
  /-- R63: VIN has met the turn-on threshold, at the measured millivolts. -/
  | vinTurnOn (vinMv : Nat)
  /-- R63: the next rail of the power-up order is enabled. -/
  | railEnable
  /-- R64: a rail fault of the rail with this code. -/
  | railFault (code : Nat)
  /-- R65: input loss. -/
  | inputLoss
  /-- R57, R66: the hold-up sequence ends; whether VAON stayed powered and whether VIN is back; the eight CFG_SEL conversions of a
  restart that begins with it. -/
  | holdUpEnd (vaonKept vinBack : Bool) (conv : List Nat)
  /-- R60, R59: overvoltage opens the switch. -/
  | overvoltageSwitchOff
  /-- R60: an over-current opens the switch. -/
  | ocTrip
  /-- R60: the switch closes again, the bus side at these millivolts. -/
  | switchReclose (busMv : Nat := 54000)
  /-- R59: VIN enters another band, at these millivolts. -/
  | inputBandChange (vinMv : Nat)
  /-- R61: VSTBY is below 11.4 V with VIN in range. -/
  | stbyLost
  /-- R70: a junction sensor reaches 115 C; the reading in 1/16 C. -/
  | thermTrip (tempX16 : Int)
  /-- R70: the trip latch releases; the hottest sensor in 1/16 C. -/
  | tripLatchRelease (hotX16 : Int := 0)
  /-- R71, R72: the SMBus write of POWER_CYCLE, with its PEC byte if any. -/
  | powerCycle (value : Byte) (pec : Option Byte := none)
  /-- R71, R73: the SMBus write of STATUS, with its PEC byte if any. -/
  | statusWrite (value : BitVec 16) (pec : Option Byte := none)
  /-- R68, R71, R72: the SMBus write of INLET_TEMP, 1/16 C, with its PEC byte if any. -/
  | inletTemp (value : BitVec 16) (pec : Option Byte := none)
  /-- R68: 10 s without a write. -/
  | inletTempTimeout
  /-- R71-R75: the node answers on the SMBus: the Alert Response Address, a read, or a write that no row above has. -/
  | alertResponse (q : SmbusQuery := .alert)
  /-- R76: the test access port is reset. -/
  | tapReset
  /-- R76: BYPASS or an unsupported code. -/
  | bypass
  /-- R76, R540: IDCODE. -/
  | idcode
  /-- R76: SAMPLE/PRELOAD with the bits shifted in. -/
  | samplePreload (bits : BitVec 15)
  /-- R76: EXTEST with the bits shifted in. -/
  | extest (bits : BitVec 15 := 0)
  /-- R92, R93: link down. -/
  | linkDown
  /-- R93: in-band hot reset. -/
  | hotReset
  /-- R94: Initiate Function Level Reset of f. -/
  | functionLevelReset (f : Fn)
  /-- R94: the function-level reset of f ends. -/
  | flrComplete (f : Fn)
  /-- R81: a write that sets VF Enable. -/
  | vfEnable
  /-- R82: a write that clears VF Enable. -/
  | vfDisable
  /-- R97: a write of PowerState, 0 to 3. -/
  | powerStateWrite (f : Fn) (v : BitVec 2)
  /-- R98: the link enters L1. -/
  | l1Entry
  /-- R482, R78, R80: a configuration request. -/
  | configRequest (f : Fn) (acc : CfgAccess)
  /-- R91: a poisoned write, or another error of the link as the endpoint logs it. -/
  | poisonedTlp (f : Fn) (err : LinkError)
  /-- R91, R182: a failed host read of the command; the source bytes that arrived before it, and how it failed. -/
  | hostReadError (cid : Nat) (arrived : List Byte) (err : ReadError := .poisoned)
  /-- R90: a DOE request object of this many bytes, and its protocol. -/
  | doeRequest (f : Fn) (len : Nat) (obj : DoeObject := .cma)
  /-- R90: DOE Abort. -/
  | doeAbort (f : Fn)
  /-- R505, R507: a standard SPDM request. -/
  | spdmRequest (f : Fn) (req : SpdmReq)
  /-- R506: part of the SLH-DSA chain. -/
  | getPqCert (f : Fn) (offset length : Nat)
  /-- R506: the SLH-DSA signature of the last signed response. -/
  | getPqSig (f : Fn)
  /-- R506: install f's wrapping key; whether it comes in f's secured session. -/
  | setKek (f : Fn) (secured : Bool) (key : BitVec 256)
  /-- R506: install the composition key. -/
  | setCompositionKey (f : Fn) (secured : Bool) (key : BitVec 256)
  /-- R506: install the node key. -/
  | setNodeKey (f : Fn) (secured : Bool) (key : BitVec 256)
  /-- R100-R103: a write to f's command window at a byte offset. -/
  | commandWindowWrite (f : Fn) (offset : Nat) (data : List Byte)
  /-- R85, R155, R172, R516: an aperture read at a BAR 0 offset, with the 64-byte blocks of it (counted from the block of
  its first byte) that meet an error of the near tier. -/
  | apertureRead (f : Fn) (offset length : Nat) (ecc : List (Nat × Ecc))
  /-- R85, R155, R175: an aperture write at a BAR 0 offset. -/
  | apertureWrite (f : Fn) (offset : Nat) (data : List Byte)
  /-- R173: an aperture read of the peat tier is late. -/
  | apertureReadTimeout (f : Fn) (offset : Nat)
  /-- R112: a write of RING_CTL that sets EN. -/
  | ringEnable (f : Fn) (value : BitVec 32)
  /-- R112: a write of RING_CTL that clears EN. -/
  | ringDisable (f : Fn) (value : BitVec 32)
  /-- R112: a write of RING_HEAD. -/
  | ringHeadWrite (f : Fn) (value : BitVec 32)
  /-- R121: a write of 1 to FEAT_CTL.APPLY. -/
  | apply (f : Fn)
  /-- R522: a write of 1 to SNAP_CTL.REARM. -/
  | rearm
  /-- R89: the vector may send. -/
  | msixUnmask (f : Fn) (vector : Nat)
  /-- R15, R537: a read of a BAR 2 register of f, with its size in bytes. -/
  | readClear (f : Fn) (offset size : Nat)
  /-- R450, R537: a read of QSAMPLE_COUNT_f. -/
  | qsampleCountRead (target : Fn)
  /-- R538, R87: a BAR 2 write of f, with its size in bytes. -/
  | registerWrite (f : Fn) (offset size : Nat) (value : DWord)
  /-- R89: MAX_DELAY has passed for the oldest unannounced record. -/
  | coalesceTimeout (f : Fn)
  /-- R113: the next waiting record is written. -/
  | replyRecordWrite (f : Fn)
  /-- R116, R520: the next held event is written. -/
  | eventRecordWrite (f : Fn)
  /-- R439: an admission decision. -/
  | commandAdmit
  /-- R438: a waiting command's deadline passes. -/
  | queuedDeadline (cid : Nat)
  /-- R44, R110, R322, R355: an admitted command's deadline passes; the entries a selection had consumed per
  range, or the queries of a search whose reranking had completed. -/
  | deadlineExpire (cid : Nat) (consumed : List Nat)
  /-- R115: an admitted command completes. -/
  | commandComplete (cid : Nat)
  /-- R39: a fully arrived version becomes current. -/
  | versionSwitch (obj version : Nat)
  /-- R443: a refill of every slot. -/
  | shaperRefill
  /-- R450: a depth sample of every function. -/
  | queueSample
  /-- R132. -/
  | nop (cid : Nat)
  | identify (cid : Nat)
  | schedSet (cid : Nat)
  | schedGet (cid : Nat)
  | objCreate (cid : Nat)
  | objDestroy (cid : Nat)
  /-- R135: the LEN bytes read from the host. -/
  | objWrite (cid : Nat) (host : List Byte)
  | objRead (cid : Nat)
  | objCopy (cid : Nat)
  | objHint (cid : Nat)
  | objInfo (cid : Nat)
  | objGrant (cid : Nat)
  | objRevoke (cid : Nat)
  | indexCreateList (cid : Nat)
  | indexCreateGraph (cid : Nat)
  /-- R139, R328: the bytes of a host source. -/
  | indexLoad (cid : Nat) (host : List Byte)
  | itemUpsert (cid : Nat)
  | itemDelete (cid : Nat)
  | indexCompact (cid : Nat)
  | search (cid : Nat)
  | searchBatch (cid : Nat)
  | filterEval (cid : Nat)
  | versionInfo (cid : Nat)
  | selectTopk (cid : Nat)
  | selectUnique (cid : Nat)
  | selectArgmax (cid : Nat)
  | tableCreate (cid : Nat)
  /-- R383: the bytes of a host source. -/
  | tableLoad (cid : Nat) (host : List Byte)
  | gather (cid : Nat)
  | rank (cid : Nat)
  | rowUpdate (cid : Nat)
  | hotRowsSet (cid : Nat)
  /-- R294: the bytes of a host source. -/
  | progLoad (cid : Nat) (host : List Byte)
  | progStart (cid : Nat)
  | progStop (cid : Nat)
  | knotAlloc (cid : Nat)
  | knotSet (cid : Nat)
  | knotArrive (cid : Nat)
  | knotWait (cid : Nat)
  | spindleRun (cid : Nat)
  | knotFree (cid : Nat)
  | groupCreate (cid : Nat)
  | groupDestroy (cid : Nat)
  | collective (cid : Nat)
  | fabricRequest (cid : Nat)
  | compose (cid : Nat)
  | migrate (cid : Nat)
  | portStatus (cid : Nat)
  | powerCap (cid : Nat)
  | enterBanked (cid : Nat)
  | enterDormant (cid : Nat)
  | privPartition (cid : Nat)
  | energyRead (cid : Nat)
  | healthRead (cid : Nat)
  | snapshotFire (cid : Nat)
  /-- R531, R532: the blocks that passed, the microseconds it took and the Kindling measurements (entry, FP32). -/
  | selfTest (cid : Nat) (passed : BitVec 32) (us : Nat) (measured : List (Nat × BitVec 32))
  | kindlingExit (cid : Nat)
  /-- R499: the CHUNK_LEN bytes read from the host. -/
  | fwStage (cid : Nat) (host : List Byte)
  /-- R499, R500: the staged image is verified and committed. -/
  | fwCommit (cid : Nat)
  | fabricKeySet (cid : Nat)
  | isolationSet (cid : Nat)
  | violationRead (cid : Nat)
  /-- R248, R249: the window of this key closes. -/
  | pickWindowClose (index version list cls : Nat)
  /-- R457, R235: an array rise is admitted; `power` says the grant allows it. -/
  | riseAdmit (loom array : Nat) (power : Bool)
  /-- R244: the descriptor at the head of the loom's queue completes. -/
  | descriptorComplete (loom : Nat) (ecc : Ecc)
  /-- R219: the next queued segment of the channel starts. -/
  | segmentStart (ch : Nat)
  /-- R221: the running segment ends. -/
  | segmentEnd (ch : Nat)
  /-- R218: the running segment is stopped. -/
  | segmentStop (ch : Nat)
  /-- R213: the exit ends; the longest hold in ns among the held requests. -/
  | channelExitEnd (ch : Nat) (holdNs : Nat)
  /-- R212: the refresh interval elapses. -/
  | refreshDue (ch : Nat)
  /-- R213: the gap ends. -/
  | gapEnd (ch : Nat)
  /-- R459. -/
  | ioRateChange (stack level : Nat)
  /-- R459, R185. -/
  | flashRateChange (channel level : Nat)
  /-- R301: the task starts. -/
  | taskStart (inst task : Nat)
  /-- R303: the task's deadline passes. -/
  | taskDeadline (inst task : Nat)
  /-- R304: 10 ms after the PROG_STOP. -/
  | progStopTimeout (inst : Nat)
  /-- R286: the shuttle's oldest outstanding operand arrives. -/
  | operandArrive (sh : Nat) (ecc : Ecc)
  /-- R273: the shuttle's instruction line arrives. -/
  | fetchComplete (sh : Nat)
  | alu (sh : Nat)
  | fpu (sh : Nat)
  | addi (sh : Nat)
  | andi (sh : Nat)
  | ori (sh : Nat)
  | xori (sh : Nat)
  | shi (sh : Nat)
  | slti (sh : Nat)
  | lui (sh : Nat)
  | gets (sh : Nat)
  | ld1 (sh : Nat)
  | ld2 (sh : Nat)
  | ld4 (sh : Nat)
  | ld8 (sh : Nat)
  | lds1 (sh : Nat)
  | lds2 (sh : Nat)
  | lds4 (sh : Nat)
  | st1 (sh : Nat)
  | st2 (sh : Nat)
  | st4 (sh : Nat)
  | st8 (sh : Nat)
  | vld (sh : Nat)
  | vst (sh : Nat)
  | amo (sh : Nat)
  | fence (sh : Nat)
  | beq (sh : Nat)
  | bne (sh : Nat)
  | blt (sh : Nat)
  | bge (sh : Nat)
  | bltu (sh : Nat)
  | bgeu (sh : Nat)
  | jal (sh : Nat)
  | jalr (sh : Nat)
  | vop (sh : Nat)
  | karr (sh : Nat)
  | kwait (sh : Nat)
  | kset (sh : Nat)
  | ktest (sh : Nat)
  | issue (sh : Nat)
  | irq (sh : Nat)
  | halt (sh : Nat)
  | exit (sh : Nat)
  /-- R336: the reed starts its next descriptor. -/
  | reedStart (r : Nat)
  /-- R354: the reed completes. -/
  | reedComplete (r : Nat) (ecc : Ecc)
  /-- R43, R350: a list or step result tagged with an epoch reaches the merge unit. -/
  | resultMerge (cid list : Nat) (epoch : BitVec 32)
  /-- R388: a partner on lane 0. -/
  | portDetect (port : Nat)
  /-- R388: the lanes that passed. -/
  | equaliseEnd (port : Nat) (lanes : BitVec 4)
  /-- R388: flits frame; the partner's node number. -/
  | alignEnd (port : Nat) (peer : BitVec 16)
  | portTrainTimeout (port : Nat)
  | portDownRetry (port : Nat)
  /-- R389. -/
  | retrain (port : Nat)
  /-- R389: whether the retrain ends Active. -/
  | retrainEnd (port : Nat) (active : Bool)
  /-- R391, R394. -/
  | flitReceive (port : Nat) (flit : Flit)
  /-- R391: replay is asked from this sequence number. -/
  | replayRequest (port : Nat) (fseq : BitVec 16)
  /-- R392: credits of the control (true) or data class. -/
  | creditReturn (port : Nat) (control : Bool) (n : Nat)
  /-- R403, R149: a carried command packet with its remaining deadline in microseconds. -/
  | request (pkt : Packet) (remainingUs : Nat)
  /-- R149: result data, and on the last packet the reply fields. -/
  | reply (pkt : Packet) (fields : ReplyFields)
  /-- R404, R405. -/
  | contribution (pkt : Packet) (members : List Nat) (member : Nat)
  /-- R405. -/
  | delivery (pkt : Packet) (members : List Nat)
  /-- R412, R422. -/
  | push (pkt : Packet)
  /-- R395: sequence numbers acknowledged by a node. -/
  | ack (src : Nat) (seqs : List (BitVec 32))
  /-- R410; the sender and SEQ of the packet. -/
  | moved (src : Nat) (seq : BitVec 32) (fn domain : Nat) (epoch : BitVec 32) (node : BitVec 16)
  /-- R397: an action of a Composition packet, with its sender and SEQ. -/
  | node (src : Nat) (seq : BitVec 32) (cseq : BitVec 32) (number runtimeNode : BitVec 16) (reportMs : BitVec 32)
  /-- R399. -/
  | route (src : Nat) (seq : BitVec 32) (cseq : BitVec 32) (first count mask : BitVec 16)
  /-- R400. -/
  | tenant (src : Nat) (seq : BitVec 32) (cseq : BitVec 32) (fn : Nat) (features : BitVec 32)
  /-- R398. -/
  | epoch (src : Nat) (seq : BitVec 32) (cseq : BitVec 32) (fn : Nat) (domain newEpoch : BitVec 32) (newNode : BitVec 16)
  /-- R397: the function, or every function. -/
  | drain (src : Nat) (seq : BitVec 32) (cseq : BitVec 32) (fn : Option Nat)
  | undrain (src : Nat) (seq : BitVec 32) (cseq : BitVec 32) (fn : Option Nat)
  /-- R395: the oldest packet toward the node is unacknowledged for 50 us. -/
  | retransmitTimeout (dst : Nat) (seq : BitVec 32)
  /-- R396. -/
  | probe (dst : Nat)
  /-- R402. -/
  | report
  /-- R411. -/
  | epochReport (fn domain : Nat)
  /-- R413. -/
  | streamAbandon (fn stream : Nat)
  /-- R409: the target acknowledges. -/
  | cutover (cid : Nat)
  /-- R195: a read of codewords (0 to 127, 32 in each plane; all unless named) of a granule (object, granule) for a client. -/
  | flashReadComplete (obj gran : Nat) (client : FlashClient) (outcome : FlashOutcome) (need : List Nat := List.range 128)
  /-- R191: the oldest program of the die completes; whether it succeeded. -/
  | programComplete (die : Nat) (ok : Bool)
  /-- R200: an erase of a block set completes. -/
  | eraseComplete (die blockSet : Nat) (ok : Bool)
  | journalWrite
  | mapWrite
  | zqCalibration
  | wearLevelCheck
  /-- R201: the block sets whose sample was weak. -/
  | patrol (weak : List (Nat × Nat))
  | dieTimeout (die : Nat)
  /-- R162: the oldest move of a granule completes. -/
  | granuleMoveComplete (obj gran : Nat)
  | draughtAllocation (inp : DraughtInput)
  /-- R25: 156 readings. -/
  | monitorSample (readings : List Nat)
  /-- R461: the bolt and the depth in mV. -/
  | droopEvent (bolt depthMv : Nat)
  | droopFloor
  /-- R455: in parts per 1,000. -/
  | efficiencyMeasure (etaMilli : Nat)
  | vloomStep
  /-- R467: measured input energy in nJ of the interval. -/
  | energyInterval (inputNj : Nat)
  /-- R468: the mean ratio of each bolt, in units of 1/32,768. -/
  | ageingHour (ratios : List Nat)
  /-- R469: the ageing floor the readings give, in mV. -/
  | marginReplan (floorMv : Nat)
  /-- R460: the sensor's level and its reading. -/
  | thermalLevelEntry (level : ThermLevel) (tempX16 : Int)
  | thermalLevelExit (level : ThermLevel) (tempX16 : Int)
  | junctionCapStep
  | paceStep
  | bankedExit
  | dormantRailsOff
  /-- R481, R485: a stage ends; the declared failure, if any; at stage 6 the dies that fail their checks (R186). -/
  | startStageEnd (stage : Nat) (failed : Bool) (badDies : List Nat := [])
  | startTimeout
  | healthEvaluate
  | panelPress
  | panelHold
  | removalProceed
  /-- R522: SRC bit 1 to 5. -/
  | snapshotTrigger (src : Nat)
  | snapshotCopyDone
  | pinConfiguration
  | refclkStable
  /-- R77, R92: the link is up at this rate (1..7) and width; whether the partner supports flit mode. -/
  | pcieLinkUp (rate width : Nat) (partnerFlit : Bool := false)
  /-- R63, R70: every junction sensor reads below 90 C; the hottest in 1/16 C. -/
  | junctionSensorsCool (hotX16 : Int := 0)
  | iinLimit
  /-- R57, R72: 1 s after POWER_CYCLE; the eight CFG_SEL conversions of the restart. -/
  | powerCycleRestart (conv : List Nat)
  /-- R408: the descriptor issued by this shuttle with this SEQ. -/
  | collectiveDescriptorDeadline (fn seq : Nat)
deriving DecidableEq, Repr

end Sys2Proof
end

