-- ==== Sys2Proof/WellFormed.lean ====
section
/-! DEFINITION. Which commands name things the node has: function numbers (R18), slots of the eight strap conversions
(R57), shuttles (R275), channels (R207), looms, arrays, reeds (R22), dies and flash channels (R184), codewords of a granule
(R187), stacks, ports (R387), vectors (R88), start stages (R481), snapshot sources (R522), monitor readings (R25). -/

namespace Sys2Proof

/-- A shuttle the node has (R275). -/
def shuttleNamed (sh : Nat) : Bool := decide (sh < 16384)

/-- A packet for a function, on a port the node has. -/
def packetNamed (pkt : Packet) : Bool := decide (pkt.fn < 256) && decide (pkt.port < 12)

/-- A flash client the node has. -/
def FlashClient.named : FlashClient → Bool
  | .aperture fn _ _ => decide (fn < 256)
  | .shuttle sh => shuttleNamed sh
  | .array loom => decide (loom < 128)
  | .reed r => decide (r < 28)
  | .command _ | .list _ _ | .background => true

/-- A stack or flash channel the node has, for a thermal level that names one. -/
def ThermLevel.named : ThermLevel → Bool
  | .stack s => decide (s < 20)
  | .flash c => decide (c < 32)
  | .die1 | .die2 => true

/-- A command's operands lie in the ranges the spec gives them. -/
def Instr.wf : Instr → Bool
  | .powerOnReset conv _ | .pinReset conv | .resetRelease conv | .holdUpEnd _ _ conv | .powerCycleRestart conv =>
    conv.length == 8 && conv.all (· < 1024)
  | .trigIn | .vinTurnOn _ | .railEnable | .inputLoss | .overvoltageSwitchOff | .ocTrip
  | .switchReclose _ => true
  | .railFault code => decide (1 ≤ code ∧ code ≤ 11)
  | .inputBandChange _ | .stbyLost | .thermTrip _ | .tripLatchRelease _ | .powerCycle _ _ | .statusWrite _ _
  | .inletTemp _ _ | .inletTempTimeout => true
  | .alertResponse _ | .tapReset | .bypass | .idcode | .samplePreload _ | .extest _ | .linkDown | .hotReset => true
  | .functionLevelReset f | .flrComplete f | .powerStateWrite f _ | .configRequest f _ | .poisonedTlp f _
  | .doeRequest f _ _ | .doeAbort f | .spdmRequest f _ => decide (f < 256)
  | .vfEnable | .vfDisable | .l1Entry | .hostReadError _ _ _ => true
  | .getPqCert f _ _ | .getPqSig f | .setKek f _ _ | .setCompositionKey f _ _ | .setNodeKey f _ _
  | .commandWindowWrite f _ _ | .apertureRead f _ _ _ | .apertureWrite f _ _ => decide (f < 256)
  | .apertureReadTimeout f _ | .ringEnable f _ | .ringDisable f _ | .ringHeadWrite f _ | .apply f | .readClear f _ _
  | .registerWrite f _ _ _ | .coalesceTimeout f => decide (f < 256)
  | .rearm => true
  | .msixUnmask f vector => decide (f < 256) && decide (vector < 8)
  | .qsampleCountRead target => decide (target < 256)
  | .replyRecordWrite f | .eventRecordWrite f => decide (f < 256)
  | .commandAdmit | .queuedDeadline _ | .deadlineExpire _ _ | .commandComplete _ | .versionSwitch _ _ | .shaperRefill
  | .queueSample | .nop _ => true
  | .identify _ | .schedSet _ | .schedGet _ | .objCreate _ | .objDestroy _ | .objWrite _ _ | .objRead _ | .objCopy _ => true
  | .objHint _ | .objInfo _ | .objGrant _ | .objRevoke _ | .indexCreateList _ | .indexCreateGraph _ | .indexLoad _ _
  | .itemUpsert _ => true
  | .itemDelete _ | .indexCompact _ | .search _ | .searchBatch _ | .filterEval _ | .versionInfo _ | .selectTopk _
  | .selectUnique _ => true
  | .selectArgmax _ | .tableCreate _ | .tableLoad _ _ | .gather _ | .rank _ | .rowUpdate _ | .hotRowsSet _
  | .progLoad _ _ => true
  | .progStart _ | .progStop _ | .knotAlloc _ | .knotSet _ | .knotArrive _ | .knotWait _ | .spindleRun _
  | .knotFree _ => true
  | .groupCreate _ | .groupDestroy _ | .collective _ | .fabricRequest _ | .compose _ | .migrate _ | .portStatus _
  | .powerCap _ => true
  | .enterBanked _ | .enterDormant _ | .privPartition _ | .energyRead _ | .healthRead _ | .snapshotFire _
  | .selfTest _ _ _ _ | .kindlingExit _ => true
  | .fwStage _ _ | .fwCommit _ | .fabricKeySet _ | .isolationSet _ | .violationRead _ | .pickWindowClose _ _ _ _ => true
  | .riseAdmit loom array _ => decide (loom < 128) && decide (array < 4)
  | .descriptorComplete loom _ => decide (loom < 128)
  | .segmentStart ch | .segmentEnd ch | .segmentStop ch | .channelExitEnd ch _ | .refreshDue ch | .gapEnd ch => decide (ch < 640)
  | .ioRateChange stack _ => decide (stack < 20)
  | .flashRateChange channel _ => decide (channel < 32)
  | .taskStart _ _ | .taskDeadline _ _ | .progStopTimeout _ => true
  | .operandArrive sh _ | .fetchComplete sh | .alu sh | .fpu sh | .addi sh | .andi sh | .ori sh => shuttleNamed sh
  | .xori sh | .shi sh | .slti sh | .lui sh | .gets sh | .ld1 sh | .ld2 sh => shuttleNamed sh
  | .ld4 sh | .ld8 sh | .lds1 sh | .lds2 sh | .lds4 sh | .st1 sh | .st2 sh => shuttleNamed sh
  | .st4 sh | .st8 sh | .vld sh | .vst sh | .amo sh | .fence sh | .beq sh => shuttleNamed sh
  | .bne sh | .blt sh | .bge sh | .bltu sh | .bgeu sh | .jal sh | .jalr sh => shuttleNamed sh
  | .vop sh | .karr sh | .kwait sh | .kset sh | .ktest sh | .issue sh | .irq sh => shuttleNamed sh
  | .halt sh | .exit sh => shuttleNamed sh
  | .reedStart r | .reedComplete r _ => decide (r < 28)
  | .resultMerge _ _ _ => true
  | .portDetect port | .equaliseEnd port _ | .alignEnd port _ | .portTrainTimeout port | .portDownRetry port
  | .retrain port => decide (port < 12)
  | .retrainEnd port _ | .flitReceive port _ | .replayRequest port _ | .creditReturn port _ _ => decide (port < 12)
  | .request pkt _ | .reply pkt _ | .contribution pkt _ _ | .delivery pkt _ | .push pkt => packetNamed pkt
  | .ack _ _ | .node _ _ _ _ _ _ | .route _ _ _ _ _ _ => true
  | .moved _ _ fn _ _ _ | .tenant _ _ _ fn _ | .epoch _ _ _ fn _ _ _ => decide (fn < 256)
  | .drain _ _ _ fn | .undrain _ _ _ fn => fn.all (· < 256)
  | .retransmitTimeout _ _ | .probe _ | .report | .cutover _ => true
  | .epochReport fn _ | .streamAbandon fn _ | .collectiveDescriptorDeadline fn _ => decide (fn < 256)
  | .flashReadComplete _ _ client _ need => client.named && need.all (· < 128)
  | .programComplete die _ | .dieTimeout die => decide (die < 512)
  | .eraseComplete die blockSet _ => decide (die < 512) && decide (blockSet < 828)
  | .journalWrite | .mapWrite | .zqCalibration | .wearLevelCheck | .patrol _ | .granuleMoveComplete _ _
  | .draughtAllocation _ | .droopFloor => true
  | .monitorSample readings => readings.length == 156
  | .droopEvent bolt _ => decide (bolt < 16)
  | .efficiencyMeasure _ | .vloomStep | .energyInterval _ | .marginReplan _ | .junctionCapStep | .paceStep
  | .bankedExit | .dormantRailsOff => true
  | .ageingHour ratios => ratios.length == 16
  | .thermalLevelEntry level _ | .thermalLevelExit level _ => level.named
  | .startStageEnd stage _ badDies => decide (1 ≤ stage ∧ stage ≤ 9) && badDies.all (· < 512)
  | .startTimeout | .healthEvaluate | .panelPress | .panelHold | .removalProceed | .snapshotCopyDone
  | .pinConfiguration | .refclkStable => true
  | .snapshotTrigger src => decide (1 ≤ src ∧ src ≤ 5)
  | .pcieLinkUp rate width _ => decide (1 ≤ rate ∧ rate ≤ 7) && (width == 1 || width == 2 || width == 4)
  | .junctionSensorsCool _ | .iinLimit => true

end Sys2Proof
end

