-- ==== Sys2Proof/Decode.lean ====
section
/-! DEFINITION. The block decodes no words: no row of the table gives bits, so no word spells a command. -/

namespace Sys2Proof

/-- The command a word spells by the table's bits: none, because the table gives no row any bits. -/
def decodeTableWord (_nbits _w : Nat) : Option Instr := none

end Sys2Proof
end

