-- ==== Sys2Proof/Machine/Bits.lean ====
section
/-! DEFINITION. Byte order (R7), bit fields (R8), saturating counters, and CRC-32 of IEEE 802.3 (R294, R328, R383). -/

namespace Sys2Proof.Machine
open Sys2Proof

/-- The value of little-endian bytes (R7). -/
def leNat : List Byte → Nat
  | [] => 0
  | b :: bs => b.toNat + 256 * leNat bs

/-- The low `n` bytes of a value, least significant first (R7). -/
def toLE : Nat → Nat → List Byte
  | 0, _ => []
  | n + 1, v => BitVec.ofNat 8 v :: toLE n (v / 256)

/-- `n` bytes of a string from an offset; bytes beyond the end read 0. -/
def slice (bs : List Byte) (off n : Nat) : List Byte :=
  let got := (bs.drop off).take n
  got ++ List.replicate (n - got.length) 0#8

/-- A little-endian field of a packet, record or image: `n` bytes at `off` (R7, R124). -/
def field (bs : List Byte) (off n : Nat) : Nat := leNat (slice bs off n)

/-- Whether the bytes from `lo` up to `hi` are all zero (reserved bytes, R106). -/
def zeroIn (bs : List Byte) (lo hi : Nat) : Bool := ((bs.drop lo).take (hi - lo)).all (· == 0#8)

/-- Bit `i` of a natural. -/
def bit (v i : Nat) : Bool := v / 2 ^ i % 2 == 1

/-- Bits [hi:lo] of a natural (R8). -/
def bits (v hi lo : Nat) : Nat := v / 2 ^ lo % 2 ^ (hi + 1 - lo)

/-- A Boolean as a field value. -/
def b2n (b : Bool) : Nat := if b then 1 else 0

/-- A counter that saturates at all ones (R111, R180, R204). -/
def satAdd {w : Nat} (c : BitVec w) (n : Nat) : BitVec w :=
  if c.toNat + n < 2 ^ w then c + BitVec.ofNat w n else BitVec.allOnes w

/-- Ceiling of a division. -/
def ceilDiv (a b : Nat) : Nat := (a + b - 1) / b

/-- Rounding up to a multiple. -/
def roundUp (a m : Nat) : Nat := ceilDiv a m * m

/-- A record of `n` bytes with fields (offset, length, value) laid into it, every other byte zero. -/
def lay (n : Nat) (fs : List (Nat × Nat × Nat)) : List Byte :=
  fs.foldl (fun bs f => bs.take f.1 ++ toLE f.2.1 f.2.2 ++ bs.drop (f.1 + f.2.1)) (List.replicate n 0#8)

/-- One bit step of the reflected CRC-32 of IEEE 802.3. -/
def crcBit (c : Nat) : Nat := if c % 2 == 1 then c / 2 ^^^ 0xEDB88320 else c / 2

/-- One byte step of CRC-32. -/
def crcByte (c : Nat) (b : Byte) : Nat :=
  crcBit (crcBit (crcBit (crcBit (crcBit (crcBit (crcBit (crcBit (c ^^^ b.toNat))))))))

/-- CRC-32 of IEEE 802.3 over a byte string (R294, R328, R383, R393). -/
def crc32 (bs : List Byte) : Nat := bs.foldl crcByte 0xFFFFFFFF ^^^ 0xFFFFFFFF

/-- A value put into a rising list. -/
def insertUp (x : Nat) : List Nat → List Nat
  | [] => [x]
  | y :: ys => if x ≤ y then x :: y :: ys else y :: insertUp x ys

/-- The median of the conversions: of an even number, the mean of the middle two rounded down (R57, R463; DEDUCED). -/
def median (xs : List Nat) : Nat :=
  let ys := xs.foldr insertUp []
  let n := ys.length
  if n % 2 = 1 then ys.getD (n / 2) 0 else (ys.getD (n / 2 - 1) 0 + ys.getD (n / 2) 0) / 2

/-- The two's-complement reading of the low `w` bits. -/
def signed (w v : Nat) : Int :=
  let r := v % 2 ^ w
  if r < 2 ^ (w - 1) then (r : Int) else (r : Int) - (2 ^ w : Nat)

/-- The `w`-bit two's-complement encoding of an integer. -/
def unsigned (w : Nat) (i : Int) : Nat := (i % ((2 ^ w : Nat) : Int)).toNat

/-! ### Sorting (R339) -/

/-- Stable insertion: behind the elements it does not precede (R339). -/
def insertBy {α : Type} (lt : α → α → Bool) (x : α) : List α → List α
  | [] => [x]
  | y :: ys => if lt x y then x :: y :: ys else y :: insertBy lt x ys

/-- Stable sort: elements that neither precedes keep their order (R339). -/
def sortBy {α : Type} (lt : α → α → Bool) (xs : List α) : List α := xs.foldl (fun acc x => insertBy lt x acc) []

end Sys2Proof.Machine
end

