-- ==== Sys2Proof/Machine/Numerics.lean ====
section
/-! DEFINITION. Number formats, rounding, FP32 arithmetic and the node's quantiser (R254-R270), the score rules of
R30-R32 and the rank of R338. A value is exact (a sign, a natural and a power of two) until it is encoded once. -/

namespace Sys2Proof.Machine
open Sys2Proof

/-- A float format (R254): exponent and fraction bits, bias, whether it has infinities (E4M3 has none). -/
structure Fmt where
  expBits : Nat
  frac : Nat
  bias : Nat
  infs : Bool

def fp32 : Fmt := ⟨8, 23, 127, true⟩
def bf16 : Fmt := ⟨8, 7, 127, true⟩
def fp16 : Fmt := ⟨5, 10, 15, true⟩
def e5m2 : Fmt := ⟨5, 2, 15, true⟩
def e4m3 : Fmt := ⟨4, 3, 7, false⟩

/-- Bits of an encoding. -/
def Fmt.width (f : Fmt) : Nat := 1 + f.expBits + f.frac

/-- A value: NaN, a signed infinity, or sign, magnitude `m * 2^e`. -/
inductive Val where
  | nan
  | inf (neg : Bool)
  | fin (neg : Bool) (m : Nat) (e : Int)
deriving DecidableEq, Repr

/-- The value of an encoding (R254, R255). -/
def Fmt.decode (f : Fmt) (x : Nat) : Val :=
  let fr := x % 2 ^ f.frac
  let ex := x / 2 ^ f.frac % 2 ^ f.expBits
  let neg := x / 2 ^ (f.frac + f.expBits) % 2 == 1
  let top := 2 ^ f.expBits - 1
  if ex = 0 then .fin neg fr (1 - (f.bias : Int) - f.frac)
  else if ex = top && f.infs then (if fr = 0 then .inf neg else .nan)
  else if ex = top && fr = 2 ^ f.frac - 1 then .nan
  else .fin neg (2 ^ f.frac + fr) ((ex : Int) - f.bias - f.frac)

/-- The canonical NaN (R256). -/
def Fmt.nanBits (f : Fmt) : Nat :=
  if f.infs then (2 ^ f.expBits - 1) * 2 ^ f.frac + 2 ^ (f.frac - 1) else 2 ^ (f.expBits + f.frac) - 1

/-- The encoding of the largest finite magnitude (R254). -/
def Fmt.maxBits (f : Fmt) : Nat :=
  if f.infs then (2 ^ f.expBits - 1) * 2 ^ f.frac - 1 else 2 ^ (f.expBits + f.frac) - 2

/-- Sign bit of an encoding. -/
def Fmt.signBit (f : Fmt) (neg : Bool) : Nat := if neg then 2 ^ (f.expBits + f.frac) else 0

/-- Floor of log2 of `n / d`, both positive. -/
def log2Ratio (n d : Nat) : Int :=
  let k : Int := (Nat.log2 n : Int) - Nat.log2 d
  let small := if 0 ≤ k then n < d * 2 ^ k.toNat else n * 2 ^ (-k).toNat < d
  if small then k - 1 else k

/-- The magnitude bits of `n / d * 2^e` rounded to nearest, ties away from zero (R258), before the overflow rule. -/
def Fmt.roundMag (f : Fmt) (n d : Nat) (e : Int) : Nat :=
  if n = 0 then 0 else
  let qmin : Int := 1 - (f.bias : Int) - f.frac
  let q := max (log2Ratio n d + e - f.frac) qmin
  let s := e - q
  let num := if 0 ≤ s then n * 2 ^ s.toNat else n
  let den := if 0 ≤ s then d else d * 2 ^ (-s).toNat
  let m := (2 * num + den) / (2 * den)
  (q - qmin).toNat * 2 ^ f.frac + m

/-- The encoding of a signed rational magnitude: overflow gives infinity, or the largest finite in E4M3 (R259, R263). -/
def Fmt.encodeRat (f : Fmt) (neg : Bool) (n d : Nat) (e : Int) : Nat :=
  let m := f.roundMag n d e
  let m := if m ≤ f.maxBits then m else if f.infs then (2 ^ f.expBits - 1) * 2 ^ f.frac else f.maxBits
  f.signBit neg + m

/-- The encoding of a value, rounded once (R258, R263). -/
def Fmt.encode (f : Fmt) : Val → Nat
  | .nan => f.nanBits
  | .inf neg => f.signBit neg + (if f.infs then (2 ^ f.expBits - 1) * 2 ^ f.frac else f.maxBits)
  | .fin neg m e => f.encodeRat neg m 1 e

/-- Negation. -/
def Val.neg : Val → Val
  | .nan => .nan
  | .inf s => .inf (!s)
  | .fin s m e => .fin (!s) m e

/-- Magnitude. -/
def Val.abs : Val → Val
  | .nan => .nan
  | .inf _ => .inf false
  | .fin _ m e => .fin false m e

/-- The signed integer of a finite magnitude at a lower exponent. -/
def alignTo (s : Bool) (m : Nat) (e lo : Int) : Int :=
  let v : Int := (m * 2 ^ (e - lo).toNat : Nat)
  if s then -v else v

/-- The exact sum (R259): zero of opposite signs is +0, of two -0 is -0. -/
def Val.add : Val → Val → Val
  | .nan, _ => .nan
  | _, .nan => .nan
  | .inf s, .inf t => if s = t then .inf s else .nan
  | .inf s, .fin _ _ _ => .inf s
  | .fin _ _ _, .inf t => .inf t
  | .fin s m e, .fin t n g =>
    let lo := min e g
    let v := alignTo s m e lo + alignTo t n g lo
    if v = 0 then .fin (s && t) 0 lo else .fin (v < 0) v.natAbs lo

/-- The exact product (R259). -/
def Val.mul : Val → Val → Val
  | .nan, _ => .nan
  | _, .nan => .nan
  | .inf s, .inf t => .inf (s != t)
  | .inf s, .fin t m _ => if m = 0 then .nan else .inf (s != t)
  | .fin s m _, .inf t => if m = 0 then .nan else .inf (s != t)
  | .fin s m e, .fin t n g => .fin (s != t) (m * n) (e + g)

/-- An FP32 operand. -/
def f32 (x : Word) : Val := fp32.decode x.toNat

/-- The FP32 encoding of a value. -/
def toF32 (v : Val) : Word := BitVec.ofNat 32 (fp32.encode v)

/-- FP32 addition, subtraction and multiplication, each rounded once (R259). -/
def fadd (a b : Word) : Word := toF32 ((f32 a).add (f32 b))
def fsub (a b : Word) : Word := toF32 ((f32 a).add (f32 b).neg)
def fmul (a b : Word) : Word := toF32 ((f32 a).mul (f32 b))

/-- FP32 division (R259). -/
def fdiv (a b : Word) : Word :=
  match f32 a, f32 b with
  | .nan, _ => toF32 .nan
  | _, .nan => toF32 .nan
  | .inf _, .inf _ => toF32 .nan
  | .inf s, .fin t _ _ => toF32 (.inf (s != t))
  | .fin s _ _, .inf t => toF32 (.fin (s != t) 0 0)
  | .fin s m e, .fin t n g =>
    if n = 0 then (if m = 0 then toF32 .nan else toF32 (.inf (s != t)))
    else BitVec.ofNat 32 (fp32.encodeRat (s != t) m n (e - g))

/-- One step of an FP32 chain: the exact `chain + a * b` rounded once (R260). -/
def ffma (chain : Word) (a b : Val) : Word := toF32 ((f32 chain).add (a.mul b))

/-- Integer square root, by halving the number's digits in base 4. -/
def isqrt : Nat → Nat → Nat
  | 0, _ => 0
  | fuel + 1, n =>
    if n = 0 then 0 else
    let r := 2 * isqrt fuel (n / 4)
    if (r + 1) * (r + 1) ≤ n then r + 1 else r

/-- FP32 square root, the exact root rounded once (R259). -/
def fsqrt (a : Word) : Word :=
  match f32 a with
  | .nan => toF32 .nan
  | .inf s => if s then toF32 .nan else toF32 (.inf false)
  | .fin s m e =>
    if m = 0 then a
    else if s then toF32 .nan
    else
      -- m * 2^e = n * 2^(2h) with 2^60 more bits than the root needs; floor(2 r) decides the tie
      let e' := e - (if (e % 2) = 0 then 0 else 1)
      let m' := if (e % 2) = 0 then m else 2 * m
      let lift : Nat := 60
      let n := m' * 2 ^ (2 * lift)
      let r := isqrt (Nat.log2 n / 2 + 1) n
      -- a root that is not exact lies strictly between r and r + 1: keep a sticky half below it
      let exact := r * r == n
      let mag := if exact then 2 * r else 2 * r + 1
      toF32 (.fin false mag (e' / 2 - lift - 1))

/-- FP32 comparison of numbers, -0 equal to +0 (R29); false with a NaN. -/
def vlt : Val → Val → Bool
  | .nan, _ => false
  | _, .nan => false
  | .inf s, .inf t => s && !t
  | .inf s, .fin _ _ _ => s
  | .fin _ _ _, .inf t => !t
  | .fin s m e, .fin t n g => let lo := min e g; alignTo s m e lo < alignTo t n g lo

def veq : Val → Val → Bool
  | .nan, _ => false
  | _, .nan => false
  | a, b => !vlt a b && !vlt b a

def flt (a b : Word) : Bool := vlt (f32 a) (f32 b)
def feq (a b : Word) : Bool := veq (f32 a) (f32 b)
def isNan (a : Word) : Bool := f32 a == .nan
def isFinite32 (a : Word) : Bool := match f32 a with | .fin _ _ _ => true | _ => false
def fabs32 (a : Word) : Word := toF32 (f32 a).abs
def fneg32 (a : Word) : Word := toF32 (f32 a).neg

/-- Value of an integer. -/
def ofInt (i : Int) : Val := .fin (i < 0) i.natAbs 0

/-- FP32 of an integer (R263). -/
def i2f (i : Int) : Word := toF32 (ofInt i)

/-- A finite magnitude rounded to an integer, ties away from zero (R258). -/
def roundInt (m : Nat) (e : Int) : Nat :=
  if 0 ≤ e then m * 2 ^ e.toNat else (2 * m + 2 ^ (-e).toNat) / (2 * 2 ^ (-e).toNat)

/-- A value rounded to an integer and clamped to a range; NaN gives 0 (R263, R281). -/
def toIntClamp (v : Val) (lo hi : Int) : Int :=
  match v with
  | .nan => 0
  | .inf s => if s then lo else hi
  | .fin s m e => let r : Int := roundInt m e; let r := if s then -r else r; max lo (min hi r)

/-- Conversion of one format to FP32, exact (R263). -/
def Fmt.toF32 (f : Fmt) (x : Nat) : Word := Sys2Proof.Machine.toF32 (f.decode x)

/-- Conversion of FP32 to a narrower format (R263). -/
def Fmt.ofF32 (f : Fmt) (x : Word) : Nat := f.encode (f32 x)

/-- Code of an element: `clamp(round(x / S))` (R265 step 3). -/
def quantCode (qmax : Nat) (s x : Word) : Int := toIntClamp (f32 (fdiv x s)) (-(qmax : Int)) qmax

/-- The largest magnitude of a block (R265 step 1). -/
def maxAbs (xs : List Word) : Word := xs.foldl (fun m x => if flt m (fabs32 x) then fabs32 x else m) 0

/-- The error of a candidate scale, an FP32 left fold (R267 step 2). -/
def quantError (s : Word) (xs : List Word) (qs : List Int) : Word :=
  (xs.zip qs).foldl (fun acc p => fadd acc (fabs32 (fsub p.1 (fmul s (i2f p.2))))) 0

/-- The scale of a block in its format, widened to FP32, with its codes (R264-R268). -/
def quantBlock (sf : Fmt) (qmax : Nat) (xs : List Word) : Word × List Int :=
  if xs.any (fun x => !isFinite32 x) then (sf.toF32 sf.nanBits, xs.map (fun _ => 0))
  else
    let m := maxAbs xs
    let raw := sf.ofF32 (fdiv m (i2f qmax))
    let s0 := sf.toF32 (if raw ≤ sf.maxBits then raw else sf.maxBits)
    if f32 s0 == .fin false 0 (1 - (fp32.bias : Int) - fp32.frac) then (0, xs.map (fun _ => 0))
    else
      let c0 := xs.map (quantCode qmax s0)
      if 4 * (c0.filter (fun q => q.natAbs ≤ 1)).length ≤ 3 * xs.length then (s0, c0)
      else
        let cand := (List.range 8).filterMap fun j =>
          let s := sf.toF32 (sf.encode ((f32 s0).mul (.fin false 1 (-(j : Int)))))
          if s = 0 then none
          else let c := xs.map (quantCode qmax s); some (s, c, quantError s xs c)
        let best := cand.foldl (fun (b : Option (Word × List Int × Word)) c =>
          match b with
          | none => some c
          | some a => if flt c.2.2 a.2.2 then some c else some a) none
        match best with
        | some (s, c, _) => (s, c)
        | none => (s0, c0)

/-- A list cut into blocks of `n`. -/
def chunk {α : Type} (n : Nat) : Nat → List α → List (List α)
  | 0, _ => []
  | fuel + 1, xs => if xs.isEmpty then [] else xs.take n :: chunk n fuel (xs.drop n)

/-- Vector coding in blocks of 32 with FP16 scales (R264): scales as FP32, codes in order. -/
def quantVector (qmax : Nat) (xs : List Word) : List Word × List Int :=
  let bs := (chunk 32 xs.length xs).map (quantBlock fp16 qmax)
  (bs.map (·.1), bs.flatMap (·.2))

/-- Sum of products of two integer strings. -/
def intDot : List Int → List Int → Int
  | a :: as, b :: bs => a * b + intDot as bs
  | _, _ => 0

/-- Steps 1 to 4 of R30: block sums, FP32 products with the block scales, the fold from +0, the query scale. -/
def dot30 (q codes : List Int) (scales : List Word) (qscale : Word) : Word :=
  let qb := chunk 32 q.length q
  let cb := chunk 32 codes.length codes
  let acc := (qb.zip (cb.zip scales)).foldl (fun acc p => fadd acc (fmul (i2f (intDot p.1 p.2.1)) p.2.2)) 0
  fmul acc qscale

/-- R31: `(n_v - 2 d) + n_q`. -/
def dist31 (d nv nq : Word) : Word := fadd (fsub nv (fmul (i2f 2) d)) nq

/-- n_v from codes and scales: the fold of `FP32(sum q^2) * (v * v)` (R269). -/
def norm269 (codes : List Int) (scales : List Word) : Word :=
  ((chunk 32 codes.length codes).zip scales).foldl
    (fun acc p => fadd acc (fmul (i2f (intDot p.1 p.1)) (fmul p.2 p.2))) 0

/-- n_q of an INT8 query (R269). -/
def normQuery (q : List Int) (s : Word) : Word := fmul (i2f (intDot q q)) (fmul s s)

/-- The fused left fold over products in ascending order, from a chain value (R32, R231, R260). -/
def chainFrom (c : Word) : List Val → List Val → Word
  | a :: as, b :: bs => chainFrom (ffma c a b) as bs
  | _, _ => c

/-- The 96-bit rank of R338 as (primary, ordinal); no rank for a NaN. -/
def rankOf (similarity : Bool) (score : Word) (ordinal : Nat) : Option (Nat × Nat) :=
  if isNan score then none
  else
    let u := if score.toNat = 0x80000000 then 0 else score.toNat
    let m := if bit u 31 then 0xFFFFFFFF - u else u + 0x80000000
    some (if similarity then 0xFFFFFFFF - m else m, ordinal)

/-- Rank order: lower is better (R338). -/
def rankLt (a b : Nat × Nat) : Bool := a.1 < b.1 || (a.1 == b.1 && a.2 < b.2)

/-- Signed elements of INT4 rows packed two per byte (R257), `n` of them. -/
def unpack4 (bs : List Byte) : List Int := bs.flatMap (fun b => [signed 4 b.toNat, signed 4 (b.toNat / 16)])

/-- INT4 codes packed two per byte (R257). -/
def pack4 : List Int → List Byte
  | a :: b :: r => BitVec.ofNat 8 (unsigned 4 a + 16 * unsigned 4 b) :: pack4 r
  | [a] => [BitVec.ofNat 8 (unsigned 4 a)]
  | [] => []

/-- Signed bytes. -/
def ints8 (bs : List Byte) : List Int := bs.map (fun b => signed 8 b.toNat)

/-- Little-endian elements of `n` bytes each, `k` of them. -/
def elems (n : Nat) : Nat → List Byte → List Nat
  | 0, _ => []
  | k + 1, bs => field bs 0 n :: elems n k (bs.drop n)

/-- ReLU, hard tanh and hard sigmoid, and identity (R368), by `ACT` code. -/
def activation (act : Nat) (x : Word) : Word :=
  let one := i2f 1
  let clampTo (lo hi x : Word) : Word := if flt x lo then lo else if flt hi x then hi else x
  if isNan x then toF32 .nan
  else match act with
    | 1 => if flt 0 x then x else 0
    | 2 =>
      let y := fadd (fmul x 0x3E2AAAAB#32) 0x3F000000#32
      if flt 0 y then clampTo 0 one y else 0
    | 3 => clampTo (i2f (-1)) one x
    | _ => x

end Sys2Proof.Machine
end

