-- ==== Sys2Proof/Config.lean ====
section
/-! DEFINITION. What the manual fixes at manufacture or leaves open: constants without a value (free values). No
body is given, so a claim holds whatever they are. Each is named in the assumption log. -/

namespace Sys2Proof.Config

/-- Module serial number (R542, `SERIAL`, Media). -/
opaque serial : DWord
/-- Boot ROM version (R542, fixed at manufacture). -/
opaque romVersion : BitVec 16
/-- Module revision (R542, Media). -/
opaque moduleRev : Byte
/-- Outputs of a spindle segment stopped under R218, which are undefined: the n-th use. -/
opaque stoppedOutput : Nat → Word
/-- The SLH-DSA signature bytes of R506 over the response last signed; its n-th use. -/
opaque pqSignature : Nat → List Byte
/-- The SLH-DSA-SHA2-192s certificate chain of slot 0 (R506), stored at manufacture (R501). -/
opaque pqChain : List Byte
/-- The bytes of an SPDM or DOE answer (R505, R90), whose content is the standard's; its n-th use. -/
opaque spdmAnswer : Nat → List Byte
/-- Whether RSASSA-PSS and SLH-DSA verify over the 128 header bytes with the public-key block (R498). -/
opaque signaturesVerify : List Byte → List Byte → List Byte → List Byte → Bool
/-- SHA-384 of a byte string (R497, R498), 48 bytes. -/
opaque sha384 : List Byte → List Byte
/-- The fused hash of a key index (R497), and whether it is revoked. -/
opaque fusedHash : Nat → List Byte
opaque revoked : Nat → Bool
/-- AES key unwrap of NIST SP 800-38F (R502): 40 bytes to a 256-bit key, none when the check fails. -/
opaque keyUnwrap : BitVec 256 → List Byte → Option (BitVec 256)
/-- Handshake steps from the latch instant to a loom-core bank's latch (R521), 0 to 2 by R545; its n-th use, for a bank. -/
opaque latchSkew : Nat → Nat → Nat
/-- The route hash of R399 over (DST_NODE, FN, CTX), whose function the manual does not give. -/
opaque routeHash : Nat → Nat → Nat → Nat
/-- Whether a top-k collective orders its entries by similarity (R338, R351): the command carries no direction. -/
opaque collectiveSimilarity : Bool
/-- Running firmware of a slot before any image was staged: its header word FW_VERSION and SVN (Measured, R542). -/
opaque factoryVersion : Nat → Word
opaque factorySvn : Nat → Word

/-- A snapshot field whose value follows from timing or wear the manual fixes no instant of (R546, R547, R551): the
n-th latch, the bank and the byte offset. -/
opaque snapField : Nat → Nat → Nat → Nat

/-- The loom supply in mV that meets the demand of the running plans (R458), which rests on rates measured at manufacture
(R468) and on a demand the manual gives no figure for, under a pacing cut in percent (R463); its n-th use. -/
opaque vloomDemand : Nat → Nat → Nat

/-- Levels of the fifteen single-ended contacts that boundary scan captures (R51, R76); its n-th use. -/
opaque boundaryCapture : Nat → BitVec 15

/-- Whether the temperature reading of R68 in 1/16 C is rounded up, the manual giving no rounding; its n-th use. -/
opaque inletRoundsUp : Nat → Bool

/-- The serial number and the manufacturing date (three bytes) that the inventory EEPROM holds, and its bytes beyond the
three areas of R75, which the manual does not give. -/
opaque fruSerial : List Byte
opaque fruDate : BitVec 24
opaque fruRest : Nat → Byte

/-- Whether a channel is one of the reserved near tier that holds the translation journal, the parity of partly filled
stripes or staging copies (R65): the manual does not place them. -/
opaque holdsMedia : Nat → Bool

/-- Senses beyond the first of stage 3 of the read ladder (R195), 0 to 23; its n-th use. -/
opaque retrySenses : Nat → Nat

end Sys2Proof.Config
end

