-- ==== Sys2Proof/Machine/State.lean ====
section
/-! DEFINITION. The node's state as plain data, and its value right after a power-on reset (R17, R477, R491).
Numbers software reads as bits are bit vectors; counts, indexes and quantities the rules compute with are naturals.
Maps keyed by a number are association lists, keys rising, an absent key meaning the field's reset value. -/

namespace Sys2Proof.Machine
open Sys2Proof

/-- Sparse bytes: addresses strictly rising, no entry equal to 0, an unlisted address reads 0 (R158). -/
abbrev Mem := List Host.Cell

/-- The form of a `Mem`: keys strictly rising and no zero byte listed. -/
abbrev Mem.wf (m : Mem) : Prop := m.Pairwise (fun a b => a.1 < b.1) ∧ ∀ c ∈ m, c.2 ≠ 0#8

/-- A sparse map from naturals, keys rising. -/
abbrev AMap (α : Type) := List (Nat × α)

/-- A counter over the last 24 powered hours (R517): the counts of the present hour and of those before it. -/
abbrev Hours := List Nat

/-- Why the machine stops with a fault. No meaning of this model raises one: the spec gives every row an effect. -/
inductive Fault where
  /-- raised by nothing: the spec names no event of this block after which the block stops for good. Safe. -/
  | none
deriving DecidableEq, Repr

/-- Why a command has no meaning. -/
inductive Refusal where
  /-- raised only by an arm of `exec` whose row has no meaning yet. Safe: the model stops where the node goes on. -/
  | notModelled (mnemonic : String)
deriving DecidableEq, Repr

/-! ### What leaves the node -/

/-- What the node sends to the outside, in the order it sends it (R89, R113). -/
inductive Emission where
  /-- bytes written into host memory for function f (R78, R89), and the Relaxed Ordering attribute -/
  | dma (f addr : Nat) (data : List Byte) (relaxed : Bool)
  /-- an MSI-X message (R88) -/
  | msix (f vector : Nat) (addr : DWord) (data : Word)
  /-- data of a completed BAR read -/
  | readData (f : Nat) (data : List Byte)
  /-- Completer Abort (R173) -/
  | completerAbort (f : Nat)
  /-- an error message of function f: 0 correctable, 1 non-fatal, 2 fatal (R91) -/
  | errorMessage (f severity : Nat)
  /-- a configuration completion; `none` is Request Retry Status (R482) -/
  | config (f : Nat) (value : Option Nat)
  /-- an SMBus answer (R71-R75); `none`: the transaction is not acknowledged -/
  | smbus (answer : Option (List Byte))
  /-- bits shifted out of TDO (R76) -/
  | tdo (width value : Nat)
  /-- the 100 ns low pulse on TRIG_OUT (R58) -/
  | trigOut
  /-- a DOE or SPDM answer: the function, its kind (0 answer, 1 SessionRequired, 2 InvalidRequest) and bytes (R90, R505, R506) -/
  | doe (f code : Nat) (data : List Byte)
  /-- a fabric packet (R393): kind, destination, function, `KEY_ID`, `SEQ`, epoch, context, offset, LAST, COMPRESSED, the fields
  it carries beside its payload (a Request's remaining deadline in us, R403; a Reply's fields, R149), its payload -/
  | packet (kind dst f key : Nat) (seq epoch : Word) (ctx offset : Nat) (last compressed : Bool) (extra : List Nat)
    (data : List Byte)
  /-- a flit replay request or a replay from a flit (R391) -/
  | replayAsk (port : Nat) (fseq : BitVec 16)
  | replayFrom (port : Nat) (fseq : BitVec 16)
deriving DecidableEq, Repr

/-! ### Commands of the host and the fabric -/

/-- A command-window slot (R99-R102): its bytes, its written-dword record, whether its command is in flight. -/
structure Slot where
  bytes : Mem := []
  written : BitVec 128 := 0
  busy : Bool := false
deriving DecidableEq, Repr

/-- Where a command came from: a host slot (R99) or a Request packet (R403); `silent` once no record is owed (R93). -/
inductive Origin where
  | host (slot : Nat)
  | fabric (src ctx : Nat)
  | silent
deriving DecidableEq, Repr

/-- A committed command (R101, R403): the copy of its packet, its commit count, its deadline count (R110). -/
structure Cmd where
  cid : Nat
  fn : Nat
  origin : Origin
  packet : List Byte
  commit : Nat
  deadline : Option Nat
deriving DecidableEq, Repr

/-- The outcome of a command's work: reply fields of R115 and its result data. -/
structure Result where
  status : Byte := 0
  rflags : Byte := 0
  count : BitVec 32 := 0
  invalid : BitVec 32 := 0
  version : BitVec 32 := 0
  value : BitVec 32 := 0
  data : List Byte := []
deriving DecidableEq, Repr

/-- Where an admitted command stands: at work, waiting for something, or its outcome known. -/
inductive Phase where
  | running
  | waitKnot (k : Nat)
  | waitStop (inst : Nat)
  | waitCollective
  | waitReply (dst : Nat)
  | waitSegments
  | waitMigrate
  | done (r : Result)
deriving DecidableEq, Repr

/-- An admitted command (R107, R169): its feature set (R122), the versions it pins, the lists or visit steps already merged for
it and those issued with the epoch each was issued under last (R41, R42; the query of a batch in bits 48 up), its admission number, the version switch it owes (R139), the packet it carries to another node (R126), and the
energy of its activities in the unit of `activityPj` (R464). -/
structure Adm where
  cmd : Cmd
  seq : Nat
  admitted : Nat
  features : BitVec 128
  pins : List (Nat × Nat) := []
  merged : List Nat := []
  work : List (Nat × BitVec 32) := []
  phase : Phase := .running
  switch : Option Nat := none
  carried : List Byte := []
  energy : Nat := 0
deriving DecidableEq, Repr

/-- A reply waiting for ring space (R113), in completion order, with its command's number in commit order (R109). -/
structure Waiting where
  cid : Nat
  slot : Nat
  cookie : BitVec 32
  irqNow : Bool
  fence : Bool
  elapsed : BitVec 32
  res : Result
deriving DecidableEq, Repr

/-- An asynchronous event held for the ring (R116, R520). -/
structure Event where
  code : Byte
  arg0 : BitVec 32
  arg1 : BitVec 32
  arg2 : BitVec 64
deriving DecidableEq, Repr

/-- One entry of an MSI-X table (R86, R89). -/
structure MsixEntry where
  addr : DWord := 0
  data : Word := 0
  masked : Bool := true
deriving DecidableEq, Repr

/-- The cause of the last event that cleared a function's host-side state (R87), as a 4-bit code. -/
abbrev LastReset := BitVec 4

/-- What software sets in a function's configuration space beside the fields that act in other rules (R77, R78, R84, R86, R89,
R91): base addresses, Device Control, Completion Timeout control, ACS control and the AER registers. Encodings and default
values are those of PCI Express (PRESUMED, log entry 103). -/
structure CfgRegs where
  bar0 : BitVec 64 := 0
  bar2 : BitVec 64 := 0
  payload : BitVec 3 := 0
  readRequest : BitVec 3 := 2
  relaxed : Bool := true
  tags14 : Bool := false
  timeoutValue : BitVec 4 := 0
  timeoutDisable : Bool := false
  reporting : BitVec 4 := 0
  uncStatus : BitVec 32 := 0
  uncMask : BitVec 32 := 0x00400000
  uncSeverity : BitVec 32 := 0x00462030
  corStatus : BitVec 32 := 0
  corMask : BitVec 32 := 0x0000E000
  acs : BitVec 7 := 0
deriving DecidableEq, Repr

/-- One function's state (R18): host side, queues, settings, rights, keys and counters. -/
structure FnState where
  -- host side, cleared by hot reset and link down (R93)
  cfg : CfgRegs := {}
  d3hot : Bool := false
  msixEnable : Bool := false
  msixMask : Bool := false
  msix : AMap MsixEntry := []
  pba : BitVec 8 := 0
  apBase : AMap (BitVec 20) := []
  apEn : BitVec 4 := 0
  maxDelay : BitVec 16 := 0
  maxCount : BitVec 16 := 0
  unannounced : Nat := 0
  announceBy : Nat := 0
  ringBase : BitVec 52 := 0
  ringLog2 : BitVec 5 := 0
  ringEn : Bool := false
  ringHead : BitVec 32 := 0
  ringTail : BitVec 32 := 0
  cwDiscard : BitVec 32 := 0
  inflight : Nat := 0
  featAccept : BitVec 128 := 0
  featActive : BitVec 128 := 0
  locked : Bool := false
  rejected : Bool := false
  handshake : Bool := false
  doeError : Bool := false
  doe : Option (List Byte) := none
  session : Bool := false
  lastSigned : Option Nat := none
  -- status
  lastReset : LastReset := 0
  ready : Bool := false
  flr : Bool := false
  present : Bool := false
  -- commands
  window : AMap Slot := []
  hostQ : List Cmd := []
  fabQ : List Cmd := []
  waiting : List Waiting := []
  events : List Event := []
  eventsLost : BitVec 32 := 0
  -- scheduling (R439, R446, R450)
  weight : BitVec 16 := 256
  shaper : BitVec 6 := 0
  poolReserve : Nat := 0
  nearLimit : BitVec 64 := 0
  peatLimit : BitVec 64 := 0
  startTag : BitVec 64 := 0
  finishTag : BitVec 64 := 0
  awake : Bool := false
  maxDepth : BitVec 16 := 0
  depthSum : BitVec 32 := 0
  maxDelayUs : BitVec 32 := 0
  delaySumUs : BitVec 32 := 0
  admittedCount : BitVec 32 := 0
  samples : BitVec 32 := 0
  -- fabric (R397-R400)
  tenant : Option (BitVec 32) := none
  drained : Bool := false
  shareEpoch : BitVec 32 := 0
  -- rights and isolation (R513, R509, R515)
  violations : BitVec 64 := 0
  sealBolts : BitVec 4 := 1
  sealStacks : BitVec 4 := 1
  isSealed : Bool := false
  bolts : List Nat := []
  dedStacks : List Nat := []
  -- keys (R429, R501)
  kek : Option (BitVec 256) := none
  txKey : Option (Nat × BitVec 256) := none
  rxKeys : List (Nat × BitVec 256) := []
  -- counters
  tierFail : BitVec 32 := 0
  energyNj : Nat := 0
  objSerial : Nat := 0
  instSerial : Nat := 0
deriving DecidableEq, Repr

/-- A shaper slot (R443, R444): the settings in force, the settings that wait for a refill with the count they were set at,
oldest first (R451), its tokens. -/
structure Shaper where
  rate : BitVec 32 := 0
  burst : BitVec 32 := 0
  next : List (BitVec 32 × BitVec 32 × Nat) := []
  tokens : Int := 0
deriving DecidableEq, Repr

/-- What the node does again every period of its time (R185, R189, R199, R396, R402, R443, R450, R452-R467, R517); a probe for its
destination. -/
inductive Periodic where
  | refill | sample | probe (dst : Nat) | report | journal | map | calibration | wear
  | allocation | monitors | droop | efficiency | supply | energy | junction | pace | health
deriving DecidableEq, Repr

/-- The admission stage (R435-R443), with the count of node time at which each recurring event came last. -/
structure Sched where
  nextCid : Nat := 1
  nextSeq : Nat := 1
  admitted : List Adm := []
  vtime : BitVec 64 := 0
  shapers : AMap Shaper := []
  fired : List (Periodic × Nat) := []
deriving DecidableEq, Repr

/-! ### Object space -/

/-- Granule states of R160. -/
inductive Tier where
  | near | peat | cached
deriving DecidableEq, Repr

/-- A stored granule: the version that wrote it, its number, its tier, whether its content is lost (R193), and
whether a full vector lies in it (R310), and its 64-byte blocks that are uncorrectable (R516). -/
structure Frame where
  ver : Nat
  gran : Nat
  tier : Tier
  lost : Bool := false
  full : Bool := false
  ue : List Nat := []
deriving DecidableEq, Repr

/-- A live version (R166, R167): its bytes and, for each granule, the version that wrote it (`origin` where unlisted). -/
structure Version where
  num : Nat
  size : Nat
  bytes : Mem := []
  origin : Nat
  origins : AMap Nat := []
deriving DecidableEq, Repr

/-- What the kind of an object adds (R138, R145, R147, R358). -/
inductive ObjKind where
  | data
  | bitmap
  | listIndex (dim : Nat) (similarity : Bool) (lists : Nat)
  | graphIndex (dim : Nat) (similarity : Bool) (degree : Nat)
  | table (fmt rows columns colFirst colCount group : Nat)
  | program
  | group (members : List Nat) (self : Nat)
deriving DecidableEq, Repr

/-- A mutation applied to an index or table while a load runs (R140, R382). -/
inductive Mutation where
  | upsert (data : List Byte) (batch : Nat)
  | delete (data : List Byte) (batch : Nat)
  | rows (data : List Byte) (count : Nat) (lr : BitVec 32) (adagrad : Bool)
deriving DecidableEq, Repr

/-- A built or loaded version that has not switched in (R139, R140). -/
structure Building where
  cid : Nat
  seq : Nat
  bytes : Mem
  size : Nat
  makeCurrent : Bool
deriving DecidableEq, Repr

/-- An object (R157). `mutations` are those a running load must apply again, with the admission number of their command
and the version they were built on (R140). `base` is its object-space address and `span` the granules of its range (R154); `former` its
former ranges (base, granules, newest version made before the move). -/
structure Obj where
  fn : Nat
  kind : ObjKind
  hint : BitVec 8 := 0
  overridden : Bool := false
  base : Nat := 0
  span : Nat := 0
  former : List (Nat × Nat × Nat) := []
  grants : List Nat := []
  versions : List Version := []
  current : Nat := 0
  tip : Nat := 0
  next : Nat := 1
  destroyed : Bool := false
  building : List Building := []
  mutations : List (Nat × Nat × Mutation) := []
  frames : List Frame := []
  epoch : BitVec 32 := 0
  rejected : BitVec 32 := 0
  hotRows : List (Nat × Nat) := []
deriving DecidableEq, Repr

/-- A granule move in progress (R162): the object, the frame and the tier it goes to. -/
structure Move where
  obj : Nat
  ver : Nat
  gran : Nat
  dest : Tier
deriving DecidableEq, Repr

/-- An aperture read that waits for flash (R173): function, BAR 0 offset, length, and the object, offset and version that it
reads, those of its arrival (R87, R159), with its time. -/
structure ApRead where
  fn : Nat
  bar : Nat
  len : Nat
  oid : Nat
  off : Nat
  ver : Nat
  arrived : Nat
deriving DecidableEq, Repr

/-- The object space (R154-R181), with the aperture reads that wait for flash; the granules used, least recently used first,
and those read by a streamed pass, as (object, version that wrote it, number), by which a hint's eviction goes (R163). -/
structure Space where
  objs : AMap Obj := []
  moves : List Move := []
  apReads : List ApRead := []
  recent : List (Nat × Nat × Nat) := []
  streamed : List (Nat × Nat × Nat) := []
deriving DecidableEq, Repr

/-! ### Flash media -/

/-- States of a block set (R187-R200). -/
inductive SetState where
  | free | opened | closed | retired
deriving DecidableEq, Repr

/-- A block set of a die, one block of each plane: its erase count, senses per plane, next page, the tags its pages hold
(page, object, version, granule, write sequence; object 0 marks parity), and the relocation and suspect marks (R184, R188,
R193, R199-R201). -/
structure BlockSet where
  erases : Nat := 0
  senses : List Nat := [0, 0, 0, 0]
  state : SetState := .free
  nextPage : Nat := 0
  pages : List (Nat × Nat × Nat × Nat × Nat) := []
  suspect : Bool := false
  relocate : Bool := false
deriving DecidableEq, Repr

/-- A program in flight with its staging copy (R191), the page of the stripe it is part of, and the command that waits for it
(R189). `parity` marks the parity of its stripe, `moot` a program that moves no map entry: of a granule freed since, or of an
abandoned relocation (R203). `shared` marks media management (R466). -/
structure Program where
  obj : Nat
  ver : Nat
  gran : Nat
  set : Nat
  page : Nat
  stripe : Nat
  stripePage : Nat
  seq : Nat
  parity : Bool := false
  moot : Bool := false
  cid : Option Nat := none
  shared : Bool := false
deriving DecidableEq, Repr

/-- A die (R184, R185, R194): its block sets, programs in flight, the read-retry offset set last applied (0: none) and the
block set that takes parity programmed again (R191). -/
structure Die where
  failed : Bool := false
  retired24 : Hours := []
  sets : AMap BlockSet := []
  programs : List Program := []
  offset : Nat := 0
  spare : Option Nat := none
deriving DecidableEq, Repr

/-- Where a granule lies on the media (R187), with the number of its block stripe (R192). -/
structure Loc where
  obj : Nat
  ver : Nat
  gran : Nat
  die : Nat
  set : Nat
  page : Nat
  stripe : Nat
  seq : Nat
deriving DecidableEq, Repr

/-- Where the parity of a partly filled stripe is (R190, R192): in the near tier, its program in flight, on the media since a
hold-up, or lost with the near tier. -/
inductive ParityState where
  | near | running | media | missing
deriving DecidableEq, Repr

/-- A stripe whose parity is not yet programmed (R192): its stream (the position of its stripe group, plus 16 where wear
levelling fills it, R199), members (die, block set) in ascending channel, page, data granules started, its parity. -/
structure Stripe where
  position : Nat
  stripe : Nat
  members : List (Nat × Nat)
  page : Nat
  filled : Nat
  parity : ParityState := .near
deriving DecidableEq, Repr

/-- A parity granule programmed to another block set than its block stripe's (R191): the stripe's number and page, and its
place. -/
structure MovedParity where
  stripe : Nat
  stripePage : Nat
  die : Nat
  set : Nat
  page : Nat
deriving DecidableEq, Repr

/-- A request read that waits at the die of its granule (R197), with the deadline of its command, if any. -/
structure FlashRead where
  client : FlashClient
  obj : Nat
  ver : Nat
  gran : Nat
  deadline : Option Nat
deriving DecidableEq, Repr

/-- The peat tier (R184-R204): the dies, the translation map, the journal in the near tier, the journal and the map on
flash, the granules whose content is lost (object, version, granule), the stripes without programmed parity, for each stream
its open block stripe and next page, the members (die, block set) of every block stripe by number, parity programmed
elsewhere, the reads that wait, in their order of arrival, and whether the interface runs at its full rate (R185). -/
structure Flash where
  dies : AMap Die := []
  map : List Loc := []
  journal : List Loc := []
  journalFlash : List Loc := []
  mapFlash : List Loc := []
  lost : List (Nat × Nat × Nat) := []
  stripes : List Stripe := []
  stripeOpen : AMap (Nat × Nat) := []
  blockStripes : AMap (List (Nat × Nat)) := []
  movedParity : List MovedParity := []
  nextStripe : Nat := 0
  writeSeq : BitVec 64 := 0
  reads : List FlashRead := []
  raised : Bool := false
  calibrated : Nat := 0
  retired : BitVec 32 := 0
  capacity : BitVec 32 := 732421875
  headroom : Int := 92797
  rebuilds : BitVec 32 := 0
  rateLevel : AMap Nat := []
  soft : AMap Nat := []
  rebuilt : AMap Nat := []
deriving DecidableEq, Repr

/-! ### Spindle channels -/

/-- States of a channel (R209). -/
inductive ChanState where
  | memory | entry | segment | exit | gap | selfRefresh
deriving DecidableEq, Repr

/-- A queued segment (R214): its descriptor bytes, the function and the sequence (a command or an instance) it
belongs to, its place in the sequence, and whether it is a scan of the search path or a step of a sequence model, which
writes to no object (R214, R219, R223). -/
structure Segment where
  desc : List Byte
  fn : Nat
  owner : Nat ⊕ Nat
  index : Nat := 0
  scan : Bool := false
deriving DecidableEq, Repr

/-- Who made an ordinary request (R209): the host through an aperture, a shuttle of an instance, or the node itself. -/
inductive Requester where
  | aperture
  | shuttle (sh inst : Nat)
  | node
deriving DecidableEq, Repr

/-- What an ordinary request does (R209, R286, R287): a host's read, a write, a shuttle's load (sign-extended from its width or
not), an atomic with its operation and operands. -/
inductive HeldOp where
  | read
  | write (data : List Byte)
  | load (extend : Bool)
  | atomic (op : Nat) (gb gd : BitVec 64)
deriving DecidableEq, Repr

/-- A request held while a channel is not in memory mode (R210): its function and requester, its BAR 0 offset or shuttle
address, the object and offset that it named at its arrival and the version it reads (R87, R159, R278), its length, what it does
and, for a host's read, the errors it will meet (R516). -/
structure Held where
  fn : Nat
  from' : Requester
  place : Nat
  oid : Nat
  off : Nat
  ver : Nat
  length : Nat
  op : HeldOp
  ecc : List (Nat × Ecc) := []
deriving DecidableEq, Repr

/-- A channel (R205-R219): its state, queue, running segment, the admission number of the sequence served last, the
operands by owner, held requests, those stalled on the network while 64 are held (R210), an owed refresh, refreshes issued and
segments stopped. -/
structure Chan where
  state : ChanState := .memory
  queue : List Segment := []
  running : Option Segment := none
  lastSeq : Nat := 0
  operand : List (Nat × List Byte) := []
  held : List Held := []
  stalled : List Held := []
  owed : Bool := false
  refreshes : Nat := 0
  stopped : BitVec 32 := 0
deriving DecidableEq, Repr

/-- A running sequence of SPINDLE_RUN (R214): the command, the segments still to end, rows written, the channel runs (object,
run) whose granules stay Near until the command completes (R217), and the descriptors that run on no channel, by their place,
whose outputs wait for an earlier segment's (R216, R222). -/
structure Sequence where
  cid : Nat
  left : Nat
  rows : Nat
  runs : List (Nat × Nat) := []
  off : List (Nat × List Byte) := []
deriving DecidableEq, Repr

/-- The stacks and spindles (R205-R225). -/
structure Stacks where
  chans : AMap Chan := []
  sequences : List Sequence := []
  ioLevel : AMap Nat := []
  tempX16 : AMap Int := []
  segments : BitVec 64 := 0
  maxHold : BitVec 16 := 0
  stopped : BitVec 16 := 0
  ce : AMap Nat := []
  ue : AMap Nat := []
deriving DecidableEq, Repr

/-! ### Looms, picks and reeds -/

/-- Phases of an array (R546). -/
inductive ArrayPhase where
  | off | rise | load | streaming | drain | fall
deriving DecidableEq, Repr

/-- The members of a pick on a loom (R249, R250): the searches by column, each with whether it is still there. -/
abbrev PickMembers := List (Nat × Bool)

/-- A queued array descriptor (R239): its 64 bytes, its function, its instance, its task, the version of the source it
reads; whether its template breaks R298; whether its arrays have taken it up, with the query block that their banks hold
(R237); the scores already put out of it (R241), the tile it stands in with that tile's gates (R242), the streamed row it
stands in (R227); and for a pick of the service plan its members. -/
structure ArrayDesc where
  desc : List Byte
  fn : Nat
  inst : Nat
  task : Option Nat
  ver : Nat := 0
  bad : Bool := false
  started : Bool := false
  bank : Mem := []
  done : Nat := 0
  tile : Option Nat := none
  gates : List (BitVec 32) := []
  row : Option (Nat × List Byte) := none
  pick : Option PickMembers := none
deriving DecidableEq, Repr

/-- A loom (R226-R246): its owner, weave store, descriptor queue, array phases with the steps made in each, for each array the
64 bobbins' entries of a row that waits (R232), the arrays whose rise has not begun, instruction lines. -/
structure Loom where
  owner : Option Nat := none
  ws : Mem := []
  dq : List ArrayDesc := []
  phase : AMap ArrayPhase := []
  steps : AMap Nat := []
  bobbins : AMap (List (List Nat)) := []
  waitRise : List Nat := []
  delayed : List Nat := []
  lines : List (Nat × Nat) := []
  out : Bool := false
  ce : BitVec 32 := 0
  ue : BitVec 32 := 0
deriving DecidableEq, Repr

/-- A pick window (R247): index, pinned version, list, sharing class, opening count, members in join order. -/
structure Window where
  index : Nat
  version : Nat
  list : Nat
  cls : Nat
  opened : Nat
  closeAt : Nat
  windowUs : Nat
  reserveUs : Nat
  minMembers : Nat
  members : List Nat
deriving DecidableEq, Repr

/-- Looms and picks (R253). -/
structure Looms where
  looms : AMap Loom := []
  windows : List Window := []
  reserveUs : BitVec 16 := 200
  windowUs : BitVec 16 := 150
  minMembers : BitVec 9 := 8
  picks : BitVec 32 := 0
  members : BitVec 32 := 0
  small : BitVec 32 := 0
  spindle : BitVec 32 := 0
  monitors : List Nat := []
  boltRate : AMap Nat := []
  boltBlocked : AMap Nat := []
  riseTimes : List Nat := []
deriving DecidableEq, Repr

/-- A reed descriptor or service selection in a reed (R336, R352). -/
structure ReedDesc where
  desc : List Byte
  fn : Nat
  inst : Nat
  loom : Nat
deriving DecidableEq, Repr

/-- A reed (R335, R336, R346). -/
structure Reed where
  queue : List ReedDesc := []
  running : Option ReedDesc := none
  out : Bool := false
  ue : BitVec 32 := 0
deriving DecidableEq, Repr

/-- The reeds and their registers (R357), search counters (R334), ranking counters (R386). -/
structure Reeds where
  reeds : AMap Reed := []
  argmaxOnly : BitVec 28 := 0xFFFFFFF
  keys : BitVec 64 := 0
  large : BitVec 32 := 0
  weave : BitVec 32 := 0
  searches : BitVec 32 := 0
  shorts : BitVec 32 := 0
  widened : BitVec 32 := 0
  partials : BitVec 32 := 0
  ranks : BitVec 32 := 0
  stale : BitVec 32 := 0
  updates : BitVec 32 := 0
  rows : BitVec 32 := 0
deriving DecidableEq, Repr

/-- An entry of the feature cache (R378): function, image, member, row, the contribution. -/
structure Feature where
  fn : Nat
  image : Nat
  member : Nat
  row : Nat
  part : List (BitVec 32)
deriving DecidableEq, Repr

/-! ### Programs -/

/-- States of a shuttle (R272). -/
inductive ShState where
  | free | idle | ready | waitMem | waitKnot (k : Nat) | waitFetch | stopped
deriving DecidableEq, Repr

/-- An outstanding load or atomic (R286): a general or a vector register, the value on its way, its address, the pc of its
instruction, and whether a channel still holds it (R210). -/
structure Operand where
  vector : Bool
  reg : Nat
  value : BitVec 512
  addr : Nat
  pc : BitVec 32 := 0
  held : Bool := false
deriving DecidableEq, Repr

/-- A shuttle (R274): 64 general and 8 vector registers (unlisted read 0), pc, state. -/
structure Shuttle where
  state : ShState := .free
  inst : Nat := 0
  task : Nat := 0
  index : Nat := 0
  pc : BitVec 32 := 0
  g : AMap (BitVec 64) := []
  v : AMap (BitVec 512) := []
  pending : List Operand := []
  waitReg : Nat := 0
deriving DecidableEq, Repr

/-- States of a task of an instance (R301). -/
inductive TaskState where
  | waiting | running | complete
deriving DecidableEq, Repr

/-- A program instance (R299-R304): the admission number of its PROG_START and its feature set (R122), its image, plan, argument object with its exit knot, granted looms with shuttles and weave-store bytes
of each, knots, slots (object, pinned version), tasks, for each running task what is left of it, step, whether a stop is
pending and when it is honoured at the latest (R304), whether the step has a counted violation (R277), the channels its segments
have used (R216), for each running task its start and the energy of its activities (R464), and since when each task may start
(R297). -/
structure Instance where
  fn : Nat
  seq : Nat := 0
  features : BitVec 128 := 0
  image : Nat
  plan : Nat
  argObj : Nat
  exitKnot : Option Nat := none
  looms : List Nat
  shuttles : Nat
  wsBytes : Nat
  wsBase : AMap Nat := []
  knots : List Nat
  slots : List (Nat × Nat) := []
  tasks : List TaskState
  running : AMap Nat := []
  step : BitVec 64 := 0
  stopping : Bool := false
  violated : Bool := false
  chans : List Nat := []
  meters : AMap (Nat × Nat) := []
  may : AMap Nat := []
  stopBy : Nat := 0
deriving DecidableEq, Repr

/-- A knot (R290-R293, R296). -/
structure Knot where
  fn : Nat
  inst : Option Nat := none
  counter : BitVec 32 := 0
  target : BitVec 32 := 0
  boundary : Bool := false
  resetOnCycle : Bool := false
deriving DecidableEq, Repr

/-- Programs (R271-R306), with the shuttle of each engine that issued last (R271). -/
structure Prog where
  shuttles : AMap Shuttle := []
  lastIssue : AMap Nat := []
  instances : AMap Instance := []
  knots : AMap Knot := []
  faults : BitVec 32 := 0
deriving DecidableEq, Repr

/-! ### Fabric -/

/-- States of a port (R388). -/
inductive PortState where
  | idle | detect | equalise | align | active | retrain | down
deriving DecidableEq, Repr

/-- Tables of a block that a port's expander holds (R427): whether of a Reply, the function, sender and number of the
message or stream, the block's offset and length. -/
structure TableSlot where
  reply : Bool
  fn : Nat
  src : Nat
  id : Nat
  xoff : Nat
  xlen : Nat
deriving DecidableEq, Repr

/-- A Serel port (R387-R392, R415, R427). -/
structure Port where
  state : PortState := .idle
  width : Nat := 0
  peer : BitVec 16 := 0xFFFF
  corrected : BitVec 32 := 0
  replays : BitVec 16 := 0
  retrains : BitVec 16 := 0
  crcDrops : BitVec 16 := 0
  tagDrops : BitVec 16 := 0
  txFseq : BitVec 16 := 0
  rxFseq : BitVec 16 := 0
  discarding : Bool := false
  held : List (BitVec 16) := []
  ctrlCredits : Nat := 4096
  dataCredits : Nat := 4096
  badFlits : List Nat := []
  since : Nat := 0
  askOwed : Option (BitVec 16) := none
  tables : List TableSlot := []
  egressV : BitVec 64 := 0
  egress : AMap (BitVec 64 × BitVec 64) := []
deriving DecidableEq, Repr

/-- A packet kept until it is acknowledged (R395): destination, sequence number, function, the packet, how often it
was sent (0: it waits for its turn and credits, R392, R449), on which port last, whether it waits to be sent again, and whether it
is not kept once it is sent (an Ack, a probe). -/
structure Retained where
  dst : Nat
  seq : BitVec 32
  fn : Nat
  em : Emission
  flits : Nat
  sends : Nat
  port : Nat
  sentAt : Nat := 0
  again : Bool := false
  once : Bool := false
deriving DecidableEq, Repr

/-- A collective of this node (R404, R405) or a ranking reduce (R372, kind 5; kind 255: the members disagree): the
function, members, sequence and parameters, this node's index, the contributions received (member, offset, bytes),
whether this node has begun it, its own source bytes, the packets of its result (offset, compressed, payload) with the
result's end, the local command or descriptor (shuttle, bytes, issue count), whether its destination is written, and the time of its
last contribution packet (R463). -/
structure Coll where
  fn : Nat
  members : List Nat
  seq : Nat
  kind : Nat
  root : Nat
  len : Nat
  k : Nat
  self : Nat := 0
  parts : List (Nat × Nat × List Byte) := []
  begun : Bool := false
  own : List Byte := []
  got : List (Nat × Bool × List Byte) := []
  gotEnd : Option Nat := none
  cid : Option Nat := none
  desc : Option (Nat × List Byte × Nat) := none
  delivered : Bool := false
  sentAt : Nat := 0
deriving DecidableEq, Repr

/-- A pushed stream (R412, R413, R422): its packets (offset, compressed, payload) in order of arrival, the expanded
end once its last packet has come, whether it is discarded. -/
structure Stream where
  fn : Nat
  id : Nat
  parts : List (Nat × Bool × List Byte) := []
  last : Option Nat := none
  discarded : Bool := false
  gained : Nat := 0
deriving DecidableEq, Repr

/-- A message of several packets on its way in (R403): its kind (1 Request, 2 Reply), function, sender and number, its
packets, its end once the last packet has come, and the fields beside the payload. -/
structure Inbox where
  kind : Nat
  fn : Nat
  src : Nat
  ctx : Nat
  parts : List (Nat × Bool × List Byte) := []
  last : Option Nat := none
  extra : List Nat := []
deriving DecidableEq, Repr

/-- What a node knows of a placement domain (R41, R409-R411): its function, the domain's ID, epoch, node and former
epoch, the results rejected since, the time it learned of the cutover, whether that is still to be reported. -/
structure Domain where
  fn : Nat
  id : Nat
  epoch : BitVec 32
  node : BitVec 16
  old : BitVec 32 := 0
  rejected : BitVec 32 := 0
  learned : Nat := 0
  owed : Bool := false
deriving DecidableEq, Repr

/-- The fabric (R387-R416): ports, node numbers, routes, the sequence numbers sent and, by sender, those received in the
window (R395), the highest number accepted by (function, key, sender) (R430), packets kept until acknowledged,
collectives, the members of finished ones whose parameters are still to come (function, members, number, member; R148), pushed streams, messages on their way in, domains, the feature cache (R378). -/
structure Fabric where
  ports : AMap Port := []
  node : BitVec 16 := 0xFFFF
  runtime : BitVec 16 := 0xFFFF
  reportMs : BitVec 32 := 0
  cseq : BitVec 32 := 0
  routes : AMap (BitVec 16) := []
  sendSeq : AMap (BitVec 64) := []
  recv : AMap (List Nat) := []
  recvKeys : List (Nat × Nat × Nat × Nat) := []
  retained : List Retained := []
  unreachable : List Nat := []
  unreachableCount : BitVec 32 := 0
  rejected : BitVec 32 := 0
  colls : List Coll := []
  late : List (Nat × List Nat × Nat × Nat) := []
  streams : List Stream := []
  inbox : List Inbox := []
  domains : List Domain := []
  rseq : BitVec 32 := 0
  features : List Feature := []
  coded : BitVec 32 := 0
  raw : BitVec 32 := 0
deriving DecidableEq, Repr

/-! ### Board, power, start, trust, service -/

/-- The input band (R59). -/
inductive Band where
  | absent | low | normal | high
deriving DecidableEq, Repr

/-- The instruction in the test access port (R76). -/
inductive TapInstr where
  | bypass | idcode | sample | extest
deriving DecidableEq, Repr

/-- The board and the always-on pins (R48-R76): whether the always-on domain and `VSTBY` are powered, whether a device reset
has yet to reach release, the pins, the input and its last readings, the switch with its openings on current, the rails
with the latches that hold them off, the heat that a power-on reset's start waits for, the cause of the device reset that
the next start of the main rails begins (0: none), what a hold-up sequence keeps for its end, and the test access port. -/
structure Board where
  -- the always-on domain's inputs and pins (R51, R53, R61)
  powered : Bool := true
  stby : Bool := true
  configured : Bool := false
  resetting : Bool := true
  perstLow : Bool := false
  pwrGood : Bool := false
  thermTripN : Bool := true
  alertN : Bool := true
  -- input power and its readings (R59, R72)
  band : Band := .absent
  vinMv : Nat := 0
  iin10Ma : Nat := 0
  pin100Mw : Nat := 0
  plateX16 : Int := 0
  hotX16 : Int := 0
  currentLimit : Bool := false
  -- the hot-swap switch (R60); times on the node time counter, negative where it has been cleared since
  switchClosed : Bool := true
  openings : List Int := []
  openedAt : Int := 0
  openedOnCurrent : Bool := false
  lockedOpen : Bool := false
  -- the main rails (R62-R66, R70)
  rails : Nat := 0
  railsWanted : Bool := false
  goodAt : Int := 0
  railFault : BitVec 8 := 0
  railLatch : Bool := false
  tripLatch : Bool := false
  restored : Bool := false
  coolWait : Bool := true
  restart : Nat := 0
  holdUp : Bool := false
  heldPerst : Bool := false
  heldVin : Bool := false
  heldCycle : Bool := false
  cyclePending : Bool := false
  -- STATUS and the inlet temperature (R68, R73)
  status : BitVec 16 := 0
  inlet : Option Int := none
  inletAt : Int := 0
  -- boundary scan (R76)
  tap : TapInstr := .idcode
  boundary : BitVec 15 := 0
  driven : Bool := false
deriving DecidableEq, Repr

/-- The PCIe endpoint (R77-R98). -/
structure Link where
  up : Bool := false
  training : Bool := false
  l1 : Bool := false
  refclk : Bool := false
  aspmL1 : Bool := false
  rate : Nat := 0
  width : Nat := 0
  ari : Bool := false
  vfEnable : Bool := false
  numVfs : Nat := 0
  vfBar0 : BitVec 64 := 0
  vfBar2 : BitVec 64 := 0
  flit : Bool := false
  downs24 : Hours := []
deriving DecidableEq, Repr

/-- The reset and boot controller with its boot store (R477-R494). -/
structure Boot where
  cause : BitVec 4 := 1
  released : Bool := false
  releasedAt : BitVec 64 := 0
  starting : Bool := false
  stages : List Nat := []
  serviceReady : Bool := false
  kindling : Bool := false
  kindlingBolt : Option Nat := none
  boltsTested : Nat := 0
  failedBolts : List Nat := []
  failCount : BitVec 8 := 0
  failStage : BitVec 4 := 0
  trialFailed : Bool := false
  trial : Option Nat := none
  lastGood : Option Nat := none
  slotRun : BitVec 4 := 0
  strapRaw : BitVec 10 := 0
  strapCode : BitVec 4 := 0
  strapShort : Bool := false
  strapOpen : Bool := false
  strapRsvd : Bool := false
  strapOwed : Bool := true
  slotA : Mem := []
  slotB : Mem := []
  slotALen : Nat := 0
  slotBLen : Nat := 0
  dormantMark : Bool := false
  dormantImage : AMap Obj := []
  directory : AMap Obj := []
  exitPending : Option Nat := none
deriving DecidableEq, Repr

/-- Low-power state of the node (R471, R472, R525). -/
inductive NodeMode where
  | service | enteringBanked | banked | leavingBanked | enteringDormant | dormant | removal | safe
deriving DecidableEq, Repr

/-- Glaesh (R495-R515). -/
structure Glaesh where
  minSvn : BitVec 32 := 0
  fwSvn : BitVec 32 := 0
  fwVersion : BitVec 32 := 0
  katPass : Bool := false
  compKey : Option (BitVec 256) := none
  nodeKey : Option (BitVec 256) := none
  aliasKey : Bool := false
deriving DecidableEq, Repr

/-- A phase of work (R464): a task of a plan of an image, or an opcode. -/
inductive PhaseKey where
  | program (fn image plan task : Nat)
  | service (fn opcode : Nat)
deriving DecidableEq, Repr

/-- A privileged partition (R464, R465): enabled, its function mask, its phase estimates in mW from the most recently
used, its share and the power it used. -/
structure Partition where
  en : Bool := false
  mask : BitVec 256 := 0
  phases : List (PhaseKey × Nat) := []
  shareW : BitVec 16 := 0
  usedW : BitVec 16 := 0
deriving DecidableEq, Repr

/-- What the collective unit measures of a group (R463): its function and members, when it last ran a collective of kind 0,
1 or 2, and its last 64 delivery waits in microseconds, the newest first. -/
structure PaceGroup where
  fn : Nat
  members : List Nat
  last : Nat
  waits : List Nat
deriving DecidableEq, Repr

/-- The draught controller (R452-R476). Watts as naturals; energies in nJ. -/
structure Draught where
  hostCap : Nat := 2400
  junctionCap : Nat := 2400
  capW : BitVec 16 := 2400
  levels : List ThermLevel := []
  etaMilli : Nat := 920
  grants : AMap (BitVec 16) := []
  powers : AMap (BitVec 16) := []
  parts : AMap Partition := []
  privMaxW : BitVec 16 := 1200
  paceMinUs : BitVec 16 := 20
  pace : Bool := false
  paceCut : Nat := 0
  paceSlackUs : BitVec 16 := 0
  order : BitVec 28 := 0x7654321
  vloomMv : BitVec 16 := 650
  vloomTarget : Nat := 650
  vFloorMv : BitVec 12 := 600
  deepest : Nat := 0
  droops : BitVec 32 := 0
  riseDelayed : BitVec 32 := 0
  energyUj : BitVec 64 := 0
  energyRestNj : Nat := 0
  activityPj : AMap Nat := []
  hours : BitVec 24 := 0
  ageMin : BitVec 16 := 0x8000
  ageFloorMv : BitVec 16 := 650
  ageWarn : Bool := false
  agePlanned : Nat := 0x8000
  planHours : Nat := 0
  planPending : Option Nat := none
  planned : Bool := false
  vDroopMv : Nat := 600
  paceGroups : List PaceGroup := []
deriving DecidableEq, Repr

/-- Service, health, snapshots and panel (R516-R534). -/
structure Service where
  mode : NodeMode := .service
  score : BitVec 8 := 100
  state : BitVec 2 := 0
  faults : BitVec 16 := 0
  ce : BitVec 32 := 0
  ue : BitVec 32 := 0
  ce24 : Hours := []
  ue24 : Hours := []
  soft24 : Hours := []
  retrains24 : Hours := []
  replays24 : Hours := []
  portsDownSince : Nat := 0
  pressPending : Bool := false
  removalSince : Nat := 0
  snapSrc : BitVec 6 := 1
  snapDue : List Nat := []
  snapSeq : BitVec 32 := 0
  missed : BitVec 16 := 0
  snapSource : BitVec 8 := 0
  valid : Bool := false
  frozen : Bool := false
  snapTime : BitVec 64 := 0
  latched : Mem := []
  store : Mem := []
  panel : BitVec 4 := 0
  locate : Bool := false
  scratch : AMap (BitVec 64) := []
  deferred : List (Nat × Nat × DWord) := []
deriving DecidableEq, Repr

/-- The whole state of the node, and the queue of the commands that wait. -/
structure State where
  pending : List Instr
  time : BitVec 64
  board : Board
  link : Link
  boot : Boot
  glaesh : Glaesh
  draught : Draught
  service : Service
  fns : AMap FnState
  sched : Sched
  space : Space
  flash : Flash
  stk : Stacks
  looms : Looms
  reeds : Reeds
  prog : Prog
  fabric : Fabric
  sent : List Emission
  fresh : Nat
deriving DecidableEq, Repr

/-- Right after power-on reset (R17, R61, R477, R491): no rail on, no start begun, every register at its Reset value. -/
def State.reset : State where
  pending := []
  time := 0
  board := {}
  link := {}
  boot := {}
  glaesh := {}
  draught := {}
  service := {}
  fns := []
  sched := {}
  space := {}
  flash := {}
  stk := {}
  looms := {}
  reeds := {}
  prog := {}
  fabric := {}
  sent := []
  fresh := 0

end Sys2Proof.Machine
end

