-- ==== Sys2Proof/Machine/Maps.lean ====
section
/-! DEFINITION. The operations on sparse maps and sparse byte memories; every one keeps the canonical form. -/

namespace Sys2Proof.Machine
open Sys2Proof

/-- The value at a key, if listed. -/
def AMap.get? {α : Type} : AMap α → Nat → Option α
  | [], _ => none
  | (k, v) :: m, i => if k = i then some v else AMap.get? m i

/-- The value at a key, or the default. -/
def AMap.getD {α : Type} (m : AMap α) (i : Nat) (d : α) : α := (AMap.get? m i).getD d

/-- The map with a value put at a key, keys kept rising. -/
def AMap.insert {α : Type} : AMap α → Nat → α → AMap α
  | [], i, v => [(i, v)]
  | (k, w) :: m, i, v =>
    if i < k then (i, v) :: (k, w) :: m
    else if k = i then (i, v) :: m
    else (k, w) :: AMap.insert m i v

/-- The map without a key. -/
def AMap.erase {α : Type} (m : AMap α) (i : Nat) : AMap α := m.filter (fun e => e.1 ≠ i)

/-- The map with a value put at a key; the default value is kept unlisted. -/
def AMap.put {α : Type} [DecidableEq α] (m : AMap α) (i : Nat) (v d : α) : AMap α :=
  if v = d then AMap.erase m i else AMap.insert m i v

/-- The values of a map. -/
def AMap.vals {α : Type} (m : AMap α) : List α := m.map (·.2)

/-- An event of the present hour, the total, and the start of another hour (R517). -/
def Hours.add : Hours → Hours
  | [] => [1]
  | n :: ns => (n + 1) :: ns
def Hours.total (h : Hours) : Nat := h.foldl (· + ·) 0
def Hours.roll (h : Hours) : Hours := 0 :: h.take 23

/-- One byte of a sparse memory (0 where unlisted, R158). -/
def Mem.read (m : Mem) (a : Nat) : Byte :=
  match m with
  | [] => 0#8
  | (k, v) :: r => if k = a then v else if a < k then 0#8 else Mem.read r a

/-- `n` bytes from an address. -/
def Mem.readBytes (m : Mem) (a n : Nat) : List Byte :=
  let near := (m.dropWhile (fun c => c.1 < a)).takeWhile (fun c => c.1 < a + n)
  let rec go : Nat → Nat → Mem → List Byte
    | 0, _, _ => []
    | k + 1, x, [] => 0#8 :: go k (x + 1) []
    | k + 1, x, (y, v) :: r => if y = x then v :: go k (x + 1) r else 0#8 :: go k (x + 1) ((y, v) :: r)
  go n a near

/-- A little-endian field of a sparse memory. -/
def Mem.nat (m : Mem) (a n : Nat) : Nat := leNat (Mem.readBytes m a n)

/-- The nonzero cells of bytes laid from an address. -/
def cellsAt : Nat → List Byte → Mem
  | _, [] => []
  | a, b :: bs => if b = 0#8 then cellsAt (a + 1) bs else (a, b) :: cellsAt (a + 1) bs

/-- The memory with bytes written from an address. -/
def Mem.write (m : Mem) (a : Nat) (bs : List Byte) : Mem :=
  m.filter (fun c => c.1 < a) ++ cellsAt a bs ++ m.filter (fun c => a + bs.length ≤ c.1)

/-- The memory cut at a size. -/
def Mem.cut (m : Mem) (n : Nat) : Mem := m.filter (fun c => c.1 < n)

/-- A sparse memory holding a byte string from address 0. -/
def Mem.ofBytes (bs : List Byte) : Mem := cellsAt 0 bs

/-- A little-endian field written into a sparse memory. -/
def Mem.putNat (m : Mem) (a n v : Nat) : Mem := m.write a (toLE n v)

end Sys2Proof.Machine
end

