-- ==== Sys2Proof/Machine/Flags.lean ====
section
/-! DEFINITION. Codes and flags: status codes (R117), STATUS bits of the management endpoint (R73), object kind codes
(R157), event codes (R520), reply flags (R115). -/

namespace Sys2Proof.Machine
open Sys2Proof

/-! Status codes of R117. -/
def stOk : Byte := 0
def stShort : Byte := 1
def stPartial : Byte := 2
def stInvalidOpcode : Byte := 16
def stInvalidParam : Byte := 17
def stNoObject : Byte := 32
def stNoSpace : Byte := 33
def stTierFail : Byte := 48
def stDeadline : Byte := 49
def stBusyMode : Byte := 80
def stSecurity : Byte := 96
def stInternal : Byte := 127

/-! STATUS bits of R73. -/
def sbIinLimit : Nat := 0
def sbThermWarn : Nat := 1
def sbThermTrip : Nat := 2
def sbRailFault : Nat := 3
def sbOcTrip : Nat := 4
def sbVinLow : Nat := 5
def sbVinHigh : Nat := 6
def sbVinLoss : Nat := 7
def sbStbyLost : Nat := 8

/-- Reply flags of R115. -/
def rfStale : Byte := 1
def rfWidened : Byte := 2

/-- A refusal or failure: a status and nothing else (R117). -/
def Result.bare (st : Byte) : Result := { status := st }

/-- Status SHORT or OK by whether `got` reaches `want` (R36, R117). -/
def shortOr (got want : Nat) : Byte := if got < want then stShort else stOk

/-- Kind code of an object (R157). -/
def ObjKind.code : ObjKind → Nat
  | .data => 1
  | .bitmap => 2
  | .listIndex _ _ _ => 3
  | .graphIndex _ _ _ => 4
  | .table _ _ _ _ _ _ => 5
  | .program => 6
  | .group _ _ => 7

/-- Kinds whose content changes only by versions (R157). -/
def ObjKind.versioned : ObjKind → Bool
  | .bitmap | .listIndex _ _ _ | .graphIndex _ _ _ | .table _ _ _ _ _ _ => true
  | .data | .program | .group _ _ => false

/-- Kinds without an address (R156, R157). -/
def ObjKind.addressed : ObjKind → Bool
  | .program | .group _ _ => false
  | _ => true

/-- Last-reset codes of R87. -/
def lrHot : LastReset := 1
def lrLinkDown : LastReset := 2
def lrFlr : LastReset := 3
def lrVfCleared : LastReset := 4

end Sys2Proof.Machine
end

