-- ==== Sys2Proof/Machine/Ops.lean ====
section
/-! DEFINITION. Operations the meanings share: emissions, function records, interrupts (R88, R89), events (R116,
R520), violations (R513), deadlines, and the life of an admitted command (R101, R107, R115, R131). -/

namespace Sys2Proof.Machine
open Sys2Proof

/-- The outcome type of every meaning. -/
abbrev Out := Host.Outcome State Fault Refusal

/-- Whether an emission uses the host link. -/
def Emission.toHost (e : Emission) : Bool :=
  match e with
  | .smbus _ => false
  | .tdo _ _ => false
  | .trigOut => false
  | .packet _ _ _ _ _ _ _ _ _ _ _ _ => false
  | .replayAsk _ _ => false
  | .replayFrom _ _ => false
  | _ => true

/-- What leaves the node is appended in order (R89, R113); the endpoint leaves L1 for it (R98). -/
def emit (s : State) (e : Emission) : State :=
  { s with sent := s.sent ++ [e], link := { s.link with l1 := s.link.l1 && !e.toHost } }

/-- Node time as a number of 10 ns counts (R19). -/
def now (s : State) : Nat := s.time.toNat

/-- An activity is counted against a function (R466), in pJ at the nominal point times 562,500 (750 mV squared);
`scaled` energies follow the square of the `VLOOM` setting. -/
def charge (s : State) (f pj : Nat) (scaled : Bool) : State :=
  let v := s.draught.vloomMv.toNat
  { s with draught := { s.draught with
    activityPj := AMap.insert s.draught.activityPj f (AMap.getD s.draught.activityPj f 0 + pj * (if scaled then v * v else 562500)) } }

/-- What has been counted against a function since the last interval. -/
def activity (s : State) (f : Nat) : Nat := AMap.getD s.draught.activityPj f 0

/-- The function of a phase. -/
def PhaseKey.fn : PhaseKey → Nat
  | .program f _ _ _ => f
  | .service f _ => f

/-- The enabled partition of a function (R464). -/
def partitionOf (s : State) (f : Nat) : Option Nat :=
  (List.range 4).find? (fun p => (AMap.getD s.draught.parts p {}).en && (AMap.getD s.draught.parts p {}).mask.getLsbD f)

/-- A table of phase estimates after an observation of m mW (R464): 1,024 keys, the least recently used gives way. -/
def learn (ps : List (PhaseKey × Nat)) (k : PhaseKey) (m : Nat) : List (PhaseKey × Nat) :=
  let p := (ps.find? (·.1 == k)).elim m (fun e => (7 * e.2 + m) / 8)
  ((k, p) :: ps.filter (·.1 != k)).take 1024

/-- A phase ends (R464): its energy over its duration, in mW, is observed by the partition of its function. -/
def observePhase (s : State) (k : PhaseKey) (energy counts : Nat) : State :=
  match partitionOf s k.fn with
  | none => s
  | some p =>
    let x := AMap.getD s.draught.parts p {}
    let x := { x with phases := learn x.phases k (energy / (5625000 * max 1 counts)) }
    { s with draught := { s.draught with parts := AMap.insert s.draught.parts p x } }

/-- Node time raised to a due count that an event stands for. -/
def advanceTo (s : State) (due : Nat) : State := { s with time := BitVec.ofNat 64 (max s.time.toNat due) }

/-- The period of a recurring event in counts of 10 ns. -/
def Periodic.counts (s : State) : Periodic → Nat
  | .refill | .allocation => 10000
  | .sample | .monitors => 1000
  | .probe _ | .efficiency => 1000000
  | .report => 100000 * s.fabric.reportMs.toNat
  | .journal | .calibration | .droop => 10000000
  | .map => 180000000000
  | .wear => 60000000000
  | .supply => 200
  | .energy | .pace => 100000
  | .junction => 100000000
  | .health => 1000000000

/-- When a recurring event came last. -/
def lastFired (s : State) (p : Periodic) : Nat := (s.sched.fired.find? (·.1 == p)).elim 0 (·.2)

/-- The count at which a recurring event comes next: a period after the last, the two of the admission stage at a multiple of their
period (R443, R450). -/
def dueAt (s : State) (p : Periodic) : Nat :=
  let n := p.counts s
  let t := max (now s) (lastFired s p + n)
  match p with
  | .refill | .sample => roundUp t n
  | _ => t

/-- A recurring event comes: node time stands at its count, which is kept. -/
def recur (s : State) (p : Periodic) : State :=
  let t := dueAt s p
  { advanceTo s t with sched := { s.sched with fired := (p, t) :: s.sched.fired.filter (·.1 != p) } }

/-! ### Functions -/

/-- The record of a function (R18). -/
def fnOf (s : State) (f : Nat) : FnState := AMap.getD s.fns f {}

/-- A function's record replaced. -/
def setFn (s : State) (f : Nat) (x : FnState) : State := { s with fns := AMap.insert s.fns f x }

/-- A function's record changed. -/
def updFn (s : State) (f : Nat) (g : FnState → FnState) : State := setFn s f (g (fnOf s f))

/-- Tag order: a difference modulo 2^64 read as signed (R439). -/
def tagLt (a b : BitVec 64) : Bool := (a - b).msb

/-- D_f (R439). -/
def increment (x : FnState) : Nat := ceilDiv (2 ^ 24) (max 1 x.weight.toNat)

/-- Every function's record changed. -/
def mapFns (s : State) (g : Nat → FnState → FnState) : State :=
  { s with fns := (List.range 256).map (fun f => (f, g f (fnOf s f))) }

/-- Whether the function exists on the host link: function 0, or an enabled virtual function (R79, R81). -/
def exists' (s : State) (f : Nat) : Bool := f == 0 || (decide (f < 256) && (fnOf s f).present)

/-- Whether the function's BARs are assigned and answer: configuration space is ready from the end of stage 3 (R481,
R482, R539). -/
def barReady (s : State) (f : Nat) : Bool := exists' s f && s.boot.stages.contains 3

/-- Whether BAR accesses of the function have effect: not in D3hot nor in its function-level reset (R87). -/
def barLive (s : State) (f : Nat) : Bool := barReady s f && !(fnOf s f).d3hot && !(fnOf s f).flr

/-- A violation is counted; the counter saturates (R513). A function-level reset keeps the counter (R94): what the function's
work still does while it is taken down counts nothing. -/
def violate (s : State) (f n : Nat) : State :=
  updFn s f (fun x => if x.flr then x else { x with violations := satAdd x.violations n })

/-! ### Interrupts -/

/-- Whether a vector of the function can send its message now (R89, R97). -/
def canSend (s : State) (f v : Nat) : Bool :=
  let x := fnOf s f
  x.msixEnable && !x.msixMask && !(AMap.getD x.msix v {}).masked && !x.d3hot && s.link.up

/-- A vector fires: its message is sent, or its pending bit is set (R89). -/
def raise (s : State) (f v : Nat) : State :=
  if canSend s f v then
    let e := AMap.getD (fnOf s f).msix v {}
    emit s (.msix f v e.addr e.data)
  else updFn s f (fun x => { x with pba := x.pba ||| (1#8 <<< v) })

/-- Pending vectors that can send now are sent (R89). -/
def flushPba (s : State) (f : Nat) : State :=
  (List.range 8).foldl (fun s v =>
    if (fnOf s f).pba.getLsbD v && canSend s f v then
      let e := AMap.getD (fnOf s f).msix v {}
      emit (updFn s f (fun x => { x with pba := x.pba &&& ~~~(1#8 <<< v) })) (.msix f v e.addr e.data)
    else s) s

/-- Vector 0 announces every record written so far (R89). -/
def announce (s : State) (f : Nat) : State :=
  raise (updFn s f (fun x => { x with unannounced := 0, announceBy := 0 })) f 0

/-- A record has been written: the coalescing limits of R89, or IRQ_NOW (R104). -/
def recordWritten (s : State) (f : Nat) (irqNow : Bool) : State :=
  let x := fnOf s f
  let n := x.unannounced + 1
  let due := if x.unannounced = 0 then now s + 100 * x.maxDelay.toNat else x.announceBy
  let s := setFn s f { x with unannounced := n, announceBy := due }
  if irqNow || x.maxCount.toNat ≤ n || x.maxDelay = 0 then announce s f else s

/-! ### Events -/

/-- An event is posted while its function has feature 29; 64 are held, more are counted (R116, R520). -/
def postEvent (s : State) (f : Nat) (code : Byte) (a0 a1 : BitVec 32) (a2 : BitVec 64) : State :=
  updFn s f (fun x =>
    if !x.featActive.getLsbD 29 then x
    else if x.events.length < 64 then { x with events := x.events ++ [⟨code, a0, a1, a2⟩] }
    else { x with eventsLost := satAdd x.eventsLost 1 })

/-! ### Errors of the host link (R91): bits of the AER registers as PCI Express numbers them -/

def aerPoisoned : Nat := 12
def aerTimeout : Nat := 14
def aerAbort : Nat := 15
def aerUnsupported : Nat := 20

/-- The bit that a failed read of host memory is logged under. -/
def readErrorBit : ReadError → Nat
  | .poisoned => aerPoisoned
  | .timeout => aerTimeout
  | .unsupportedRequest => aerUnsupported
  | .completerAbort => aerAbort

/-- The bit that an error of the link is logged under: uncorrectable (left) or correctable (right). -/
def linkErrorBit : LinkError → Nat ⊕ Nat
  | .poisonedCommandWindow => .inl aerPoisoned
  | .poisonedAperture => .inl aerPoisoned
  | .poisonedBar2 => .inl aerPoisoned
  | .malformedTlp => .inl 18
  | .receiverError => .inr 0
  | .badTlp => .inr 6
  | .badDllp => .inr 7
  | .replayRollover => .inr 8
  | .replayTimeout => .inr 12

/-- An uncorrectable error is logged in function f's AER status; unless masked it is reported at the severity the severity
register sets, where Device Control lets that be. -/
def logUncorrectable (s : State) (f b : Nat) : State :=
  let c := (fnOf s f).cfg
  let s := updFn s f (fun x => { x with cfg := { x.cfg with uncStatus := x.cfg.uncStatus ||| (1#32 <<< b) } })
  let sev := if c.uncSeverity.getLsbD b then 2 else 1
  if !c.uncMask.getLsbD b && c.reporting.getLsbD sev then emit s (.errorMessage f sev) else s

/-- A correctable error is logged, and reported unless masked where Device Control lets it be. -/
def logCorrectable (s : State) (f b : Nat) : State :=
  let c := (fnOf s f).cfg
  let s := updFn s f (fun x => { x with cfg := { x.cfg with corStatus := x.cfg.corStatus ||| (1#32 <<< b) } })
  if !c.corMask.getLsbD b && c.reporting.getLsbD 0 then emit s (.errorMessage f 0) else s

/-! ### STATUS and ALERT_N -/

/-- A bit of STATUS is set; a change from 0 to 1 asserts ALERT_N (R73, R74), which stays released until the pins are set up
and in every reset (R51). -/
def setStatus (s : State) (b : Nat) : State :=
  let old := s.board.status
  let new := old ||| (1#16 <<< b)
  let held := !s.board.configured || s.board.resetting
  { s with board := { s.board with status := new, alertN := s.board.alertN && (new == old || held) } }

/-! ### Packets -/

/-- Header fields of a packet (R104). -/
def Cmd.opcode (c : Cmd) : Nat := field c.packet 0 2
def Cmd.length (c : Cmd) : Nat := field c.packet 2 2
def Cmd.flags (c : Cmd) : Nat := field c.packet 4 2
def Cmd.fence (c : Cmd) : Bool := bit c.flags 0
def Cmd.acceptPartial (c : Cmd) : Bool := bit c.flags 1
def Cmd.irqNow (c : Cmd) : Bool := bit c.flags 2
def Cmd.deadlineUs (c : Cmd) : Nat := field c.packet 8 4
def Cmd.cookie (c : Cmd) : BitVec 32 := BitVec.ofNat 32 (field c.packet 12 4)
def Cmd.resultAddr (c : Cmd) : Nat := field c.packet 16 8
def Cmd.resultLen (c : Cmd) : Nat := field c.packet 24 4

/-- A parameter of a command: `n` bytes at packet offset `o`, little-endian (R124). -/
def Cmd.p (c : Cmd) (o n : Nat) : Nat := field c.packet o n

/-- A parameter of an admitted command. -/
def Adm.p (a : Adm) (o n : Nat) : Nat := a.cmd.p o n

/-- The function of an admitted command. -/
def Adm.fn (a : Adm) : Nat := a.cmd.fn

/-- Whether a command is a search. -/
def Cmd.isSearch (c : Cmd) : Bool := c.opcode == 0x206 || c.opcode == 0x207

/-- Whether a feature bit was active at admission (R122). -/
def Adm.has (a : Adm) (b : Nat) : Bool := a.features.getLsbD b

/-! ### Admitted commands -/

/-- The admitted command of a number. -/
def findAdm (s : State) (cid : Nat) : Option Adm := s.sched.admitted.find? (fun a => a.cmd.cid == cid)

/-- An admitted command changed. -/
def updAdm (s : State) (cid : Nat) (g : Adm → Adm) : State :=
  { s with sched := { s.sched with admitted := s.sched.admitted.map (fun a => if a.cmd.cid == cid then g a else a) } }

/-- The command's work has ended with an outcome (R115). -/
def finish (s : State) (cid : Nat) (r : Result) : State := updAdm s cid (fun a => { a with phase := .done r })

/-- The command ends with a status and no result (R117). -/
def fail (s : State) (cid : Nat) (st : Byte) : State := finish s cid (.bare st)

/-- The command waits for something. -/
def setPhase (s : State) (cid : Nat) (p : Phase) : State := updAdm s cid (fun a => { a with phase := p })

/-- The version switch a command owes when it completes (R139). -/
def owe (s : State) (cid ver : Nat) : State := updAdm s cid (fun a => { a with switch := some ver })

/-- The activities counted between two states are added to a command's energy (R464). -/
def meterCmd (s s' : State) (cid f : Nat) : State :=
  if activity s' f = activity s f then s'
  else updAdm s' cid (fun a => { a with energy := a.energy + (activity s' f - activity s f) })

/-- Whether a command came from a host slot whose record is still owed. -/
def Origin.isHost : Origin → Bool
  | .host _ => true
  | .fabric _ _ => false
  | .silent => false

/-- Whether a host command of the function that committed before number `cid`, with FENCE set, still awaits its record
(R109). -/
def fenceHeld (s : State) (f cid : Nat) : Bool :=
  s.sched.admitted.any (fun a => a.cmd.fn == f && a.cmd.fence && a.cmd.origin.isHost && decide (a.cmd.cid < cid))
  || (fnOf s f).waiting.any (fun w => w.fence && decide (w.cid < cid))

/-- Whether a host command of the function that committed before number `cid` still awaits its record (R109). -/
def hostBusy (s : State) (f cid : Nat) : Bool :=
  s.sched.admitted.any (fun a => a.cmd.fn == f && a.cmd.origin.isHost && decide (a.cmd.cid < cid))
  || (fnOf s f).waiting.any (fun w => decide (w.cid < cid))

/-- A free value is used: the counter advances. -/
def freshen (s : State) : State := { s with fresh := s.fresh + 1 }

end Sys2Proof.Machine
end

