-- ==== Sys2Proof/Machine/FlashOps.lean ====
section
/-! DEFINITION. The translation layer's operations (R184-R204): block stripes and their parity, programs in flight, the map
and its journal, senses, relocation, retirement, die failure, and the recovery of a start. A granule is named by object, the
version that wrote it and number. -/

namespace Sys2Proof.Machine
open Sys2Proof

/-- A die and a block set of it. -/
def dieOf (fl : Flash) (d : Nat) : Die := AMap.getD fl.dies d {}
def blockSetOf (x : Die) (b : Nat) : BlockSet := AMap.getD x.sets b {}

/-- A die or a block set changed. -/
def updDie (fl : Flash) (d : Nat) (g : Die → Die) : Flash := { fl with dies := AMap.insert fl.dies d (g (dieOf fl d)) }
def updSet (fl : Flash) (d b : Nat) (g : BlockSet → BlockSet) : Flash :=
  updDie fl d (fun x => { x with sets := AMap.insert x.sets b (g (blockSetOf x b)) })

/-- Every program in flight changed. -/
def mapPrograms (fl : Flash) (g : Program → Program) : Flash :=
  { fl with dies := fl.dies.map (fun e => (e.1, { e.2 with programs := e.2.programs.map g })) }

/-- Whether some program in flight meets a condition. -/
def anyProgram (fl : Flash) (c : Program → Bool) : Bool := fl.dies.any (fun e => e.2.programs.any c)

/-- Whether two granule names agree. -/
def Loc.names (l : Loc) (obj ver gran : Nat) : Bool := l.obj == obj && l.ver == ver && l.gran == gran
def Program.names (p : Program) (obj ver gran : Nat) : Bool := !p.parity && p.obj == obj && p.ver == ver && p.gran == gran

/-- The place of a granule on the media (R187). -/
def locOf (fl : Flash) (obj ver gran : Nat) : Option Loc := fl.map.find? (·.names obj ver gran)

/-! ### Block stripes (R192, R194, R199) -/

/-- The live dies of a stripe group, one on each channel, in ascending channel (R184, R192, R194). -/
def groupDies (fl : Flash) (pos : Nat) : List Nat :=
  ((List.range 32).map (fun c => 16 * c + pos)).filter (fun d => !(dieOf fl d).failed)

/-- The free block set of a die with the lowest erase count, the lowest number among equals (R199). -/
def freeSet (x : Die) : Option Nat :=
  (List.range 828).foldl (fun best b =>
    if (blockSetOf x b).state ≠ .free then best
    else match best with
      | none => some b
      | some a => if (blockSetOf x b).erases < (blockSetOf x a).erases then some b else some a) none

/-- The free block set of a die with the highest erase count, which wear levelling fills (R199). -/
def worstSet (x : Die) : Option Nat :=
  (List.range 828).foldl (fun best b =>
    if (blockSetOf x b).state ≠ .free then best
    else match best with
      | none => some b
      | some a => if (blockSetOf x a).erases < (blockSetOf x b).erases then some b else some a) none

/-- A new block stripe of a stream, one free block set of each live die of its group (R192, R199). -/
def openStripe (fl : Flash) (pos : Nat) : Flash :=
  let pick := if pos < 16 then freeSet else worstSet
  let members := (groupDies fl (pos % 16)).filterMap (fun d => (pick (dieOf fl d)).map (fun b => (d, b)))
  let fl := members.foldl (fun fl m => updSet fl m.1 m.2 (fun b => { b with state := .opened, nextPage := 0, pages := [] })) fl
  { fl with
    blockStripes := AMap.insert fl.blockStripes fl.nextStripe members
    stripeOpen := AMap.insert fl.stripeOpen pos (fl.nextStripe, 0)
    nextStripe := fl.nextStripe + 1 }

/-- Index of the parity member of page p of a stream at position d (R192, R194). -/
def parityIndex (n pos page : Nat) : Nat := (page + pos % 16) % n

/-- The parity member of a stripe; the data members in ascending channel. -/
def parityMember (st : Stripe) : Nat × Nat := st.members.getD (parityIndex st.members.length st.position st.page) (0, 0)
def dataMembers (st : Stripe) : List (Nat × Nat) :=
  st.members.eraseIdx (parityIndex st.members.length st.position st.page)

/-- Whether a stripe takes another data granule. -/
def Stripe.takes (st : Stripe) (pos : Nat) : Bool :=
  st.position == pos && st.parity == .near && decide (st.filled < (dataMembers st).length)

/-- Whether a stream can take a granule: a stripe or a block stripe is open, or enough dies have a free block set. -/
def streamRoom (fl : Flash) (pos : Nat) : Bool :=
  fl.stripes.any (·.takes pos) || (AMap.get? fl.stripeOpen pos).any (fun e => decide (e.2 < 2304)) ||
  decide (2 ≤ (groupDies fl (pos % 16)).countP (fun d => (List.range 828).any (fun b => (blockSetOf (dieOf fl d) b).state == .free)))

/-- Whether the media can take a program of a new or rewritten granule. -/
def flashRoom (fl : Flash) : Bool := (List.range 16).any (streamRoom fl)

/-- The stream that the next granule goes to: the write sequence number modulo 16, or the next one that has room, past a
position that must not take it. -/
def putStream (fl : Flash) (kind : Nat) (shun : Option Nat) : Nat :=
  let k := fl.writeSeq.toNat % 16
  kind + (((List.range 16).map (fun i => (k + i) % 16)).find? (fun p => shun != some p && streamRoom fl (kind + p))).getD k

/-- The stripe of a stream that takes the next data granule; a new page or block stripe where none is open. -/
def currentStripe (fl : Flash) (pos : Nat) : Flash × Option Stripe :=
  match fl.stripes.find? (·.takes pos) with
  | some st => (fl, some st)
  | none =>
    let fl := match AMap.get? fl.stripeOpen pos with
      | some (_, page) => if page < 2304 then fl else openStripe fl pos
      | none => openStripe fl pos
    match AMap.get? fl.stripeOpen pos with
    | none => (fl, none)
    | some (k, page) =>
      let st : Stripe := { position := pos, stripe := k, members := AMap.getD fl.blockStripes k [], page := page, filled := 0 }
      if st.members.length < 2 then (fl, none)
      else ({ fl with stripes := fl.stripes ++ [st], stripeOpen := AMap.insert fl.stripeOpen pos (k, page + 1) }, some st)

/-! ### Programs (R188, R189, R191) -/

/-- A program starts on a die, with a raised write sequence (R188). -/
def startProgram (fl : Flash) (d : Nat) (p : Program) : Flash :=
  let seq := fl.writeSeq + 1
  let fl := updDie { fl with writeSeq := seq } d (fun x => { x with programs := x.programs ++ [{ p with seq := seq.toNat }] })
  updSet fl d p.set (fun b => { b with nextPage := max b.nextPage (p.page + 1) })

/-- A program of a granule starts on the next page of a stream's open block stripe (R188, R191). -/
def flashPut (fl : Flash) (pos obj ver gran : Nat) (cid : Option Nat) (shared : Bool) : Flash :=
  match currentStripe fl pos with
  | (fl, none) => fl
  | (fl, some st) =>
    let m := (dataMembers st).getD st.filled (0, 0)
    startProgram { fl with stripes := fl.stripes.map (fun x => if x == st then { x with filled := x.filled + 1 } else x) } m.1
      { obj := obj, ver := ver, gran := gran, set := m.2, page := st.page, stripe := st.stripe, stripePage := st.page, seq := 0,
        cid := cid, shared := shared }

/-- A write of a granule, which brings a lost granule's content back (R203, R204). -/
def flashStart (fl : Flash) (obj ver gran : Nat) (cid : Option Nat) : Flash :=
  flashPut { fl with lost := fl.lost.filter (· != (obj, ver, gran)) } (putStream fl 0 none) obj ver gran cid false

/-- A relocation of a granule, which is no function's work (R466). -/
def flashMove (fl : Flash) (pos obj ver gran : Nat) : Flash := flashPut fl pos obj ver gran none true

/-- The map entry moves to a page and is entered in the journal in the near tier, in one step (R188, R189); of two
writes of a granule the map keeps the later (R203). -/
def mapTo (fl : Flash) (l : Loc) : Flash :=
  if fl.map.any (fun x => x.names l.obj l.ver l.gran && decide (l.seq < x.seq)) then fl
  else { fl with
    map := fl.map.filter (fun x => !x.names l.obj l.ver l.gran) ++ [l]
    journal := fl.journal ++ [l] }

/-- A granule leaves the map: its page is invalid (R188), a program of it in flight moves no entry, and it is no longer among
the lost. -/
def unmap (fl : Flash) (obj ver gran : Nat) : Flash :=
  mapPrograms { fl with map := fl.map.filter (fun x => !x.names obj ver gran), lost := fl.lost.filter (· != (obj, ver, gran)) }
    (fun p => if p.names obj ver gran then { p with moot := true, cid := none } else p)

/-- A write of a granule abandons a relocation of it under way: the copy's program moves no map entry (R203). -/
def stopRelocation (fl : Flash) (obj ver gran : Nat) : Flash :=
  mapPrograms fl (fun p => if p.shared && p.names obj ver gran then { p with moot := true } else p)

/-- Whether a program is superseded: by a later one of its granule, in flight or done (R203). -/
def superseded (fl : Flash) (p : Program) : Bool :=
  fl.map.any (fun l => l.names p.obj p.ver p.gran && decide (p.seq < l.seq)) ||
  anyProgram fl (fun q => q.names p.obj p.ver p.gran && !q.moot && decide (p.seq < q.seq))

/-- Whether a program of a granule that moves its map entry is in flight already. -/
def movingAway (fl : Flash) (l : Loc) : Bool := anyProgram fl (fun p => p.names l.obj l.ver l.gran && !p.moot)

/-- A data program that did not succeed is made again elsewhere from its staging copy, unless it has become needless (R191,
R203). -/
def redoProgram (fl : Flash) (p : Program) : Flash :=
  if p.parity || p.moot || superseded fl p then fl
  else flashPut fl (putStream fl 0 none) p.obj p.ver p.gran p.cid p.shared

/-! ### Parity (R190-R192) -/

/-- Valid granules of a block set, and of a stripe. -/
def validIn (fl : Flash) (d b : Nat) : List Loc := fl.map.filter (fun l => l.die == d && l.set == b)
def validInStripe (fl : Flash) (st : Stripe) : List Loc := fl.map.filter (fun l => l.stripe == st.stripe && l.page == st.page)

/-- A stripe leaves the list, its page used up; its block sets close with the last page (R192). -/
def dropStripe (fl : Flash) (st : Stripe) : Flash :=
  let close (b : BlockSet) : BlockSet :=
    { b with nextPage := max b.nextPage (st.page + 1), state := if b.state = .opened && 2304 ≤ st.page + 1 then .closed else b.state }
  st.members.foldl (fun fl m => if (dieOf fl m.1).failed then fl else updSet fl m.1 m.2 close)
    { fl with stripes := fl.stripes.filter (fun x => !(x.stripe == st.stripe && x.page == st.page)) }

/-- The block set and page that take a stripe's parity (R191, R192): its member's, or on that die another block set where the
member's is retired; none where the die has failed or has no free block set. -/
def paritySlot (fl : Flash) (st : Stripe) : Option (Nat × Nat × Nat) :=
  let m := parityMember st
  let x := dieOf fl m.1
  if x.failed then none
  else if (blockSetOf x m.2).state ≠ .retired then some (m.1, m.2, st.page)
  else match x.spare.filter (fun b => (blockSetOf x b).state == .opened && decide ((blockSetOf x b).nextPage < 2304)) with
    | some b => some (m.1, b, (blockSetOf x b).nextPage)
    | none => (freeSet x).map (fun b => (m.1, b, 0))

/-- The block set that a parity granule goes to is in use: as its member's, or as its die's block set for parity made again
(R191). -/
def takeParitySlot (fl : Flash) (st : Stripe) (p : Nat × Nat × Nat) : Flash :=
  if p.2.1 = (parityMember st).2 then fl
  else
    let fl := updDie fl p.1 (fun x => { x with spare := some p.2.1 })
    let fl := updSet fl p.1 p.2.1 (fun b => { b with
      state := if p.2.2 + 1 < 2304 then .opened else .closed, pages := if p.2.2 = 0 then [] else b.pages })
    { fl with movedParity := fl.movedParity.filter (fun x => !(x.stripe == st.stripe && x.stripePage == st.page)) ++
      [{ stripe := st.stripe, stripePage := st.page, die := p.1, set := p.2.1, page := p.2.2 }] }

/-- A stripe that no parity can protect is emptied: its granules are programmed elsewhere. -/
def emptyStripe (fl : Flash) (st : Stripe) : Flash :=
  ((validInStripe fl st).filter (fun l => !movingAway fl l)).foldl
    (fun fl l => flashMove fl (putStream fl 0 (some (st.position % 16))) l.obj l.ver l.gran) (dropStripe fl st)

/-- A stripe's state of parity changed. -/
def setParity (fl : Flash) (stripe page : Nat) (k : ParityState) : Flash :=
  { fl with stripes := fl.stripes.map (fun x => if x.stripe == stripe && x.page == page then { x with parity := k } else x) }

/-- The parity granule of a stripe starts (R192). -/
def parityStart (fl : Flash) (st : Stripe) : Flash :=
  match paritySlot fl st with
  | none => emptyStripe fl st
  | some p =>
    startProgram (takeParitySlot (setParity fl st.stripe st.page .running) st p) p.1
      { obj := 0, ver := 0, gran := 0, set := p.2.1, page := p.2.2, stripe := st.stripe, stripePage := st.page, seq := 0, parity := true }

/-- Whether a data program of the stripe is still in flight. -/
def stripeBusy (fl : Flash) (st : Stripe) : Bool :=
  anyProgram fl (fun p => p.stripe == st.stripe && p.stripePage == st.page && !p.parity)

/-- Stripes whose data granules are all programmed get their parity (R192). -/
def parityDue (fl : Flash) : Flash :=
  fl.stripes.foldl (fun fl st =>
    if st.parity == .near && decide ((dataMembers st).length ≤ st.filled) && !stripeBusy fl st then parityStart fl st else fl) fl

/-- A program of a die has succeeded: its page holds the tag of R188; a data granule's map entry moves (R189, R191), a stripe with
its parity is complete (R192). -/
def landed (fl : Flash) (d : Nat) (p : Program) : Flash :=
  let fl := updDie fl d (fun x => { x with programs := x.programs.filter (· != p) })
  let fl := updSet fl d p.set (fun b => { b with pages := b.pages ++ [(p.page, p.obj, p.ver, p.gran, p.seq)] })
  if p.parity then
    (fl.stripes.filter (fun x => x.stripe == p.stripe && x.page == p.stripePage)).foldl dropStripe fl
  else
    let l : Loc := { obj := p.obj, ver := p.ver, gran := p.gran, die := d, set := p.set, page := p.page, stripe := p.stripe, seq := p.seq }
    parityDue (if p.moot then fl else mapTo fl l)

/-- The oldest program of a die completes well. -/
def programDone (fl : Flash) (d : Nat) : Flash :=
  match (dieOf fl d).programs with
  | [] => fl
  | p :: _ => landed fl d p

/-- The parity of a stripe is put on the media at once, with its tag: at hold-up, and where a start forms it again (R65, R190,
R192). -/
def sealStripe (fl : Flash) (st : Stripe) : Flash :=
  match paritySlot fl st with
  | none => emptyStripe fl st
  | some p =>
    let seq := fl.writeSeq + 1
    let fl := takeParitySlot { setParity fl st.stripe st.page .media with writeSeq := seq } st p
    updSet fl p.1 p.2.1 (fun b => { b with
      nextPage := max b.nextPage (p.2.2 + 1), pages := b.pages ++ [(p.2.2, 0, 0, 0, seq.toNat)] })

/-- Block stripes that a condition on their members meets take no more pages; their partly filled stripes are completed with
zero granules, so that their parity follows (R192). -/
def closeStripes (fl : Flash) (gone : Nat × Nat → Bool) : Flash :=
  let shut := fl.stripeOpen.filter (fun e => (AMap.getD fl.blockStripes e.2.1 []).any gone)
  let ms := shut.flatMap (fun e => AMap.getD fl.blockStripes e.2.1 [])
  let fl := ms.foldl (fun fl m => updSet fl m.1 m.2 (fun x => if x.state = .opened then { x with state := .closed } else x)) fl
  { fl with
    stripes := fl.stripes.map (fun st => if st.members.any gone then { st with filled := (dataMembers st).length } else st)
    stripeOpen := fl.stripeOpen.filter (fun e => !((AMap.getD fl.blockStripes e.2.1 []).any gone)) }

/-! ### Stripe contents (R192, R193) -/

/-- Bytewise exclusive-or of granules of one length. -/
def xorBytes (a b : List Byte) : List Byte := (a.zip b).map (fun p => p.1 ^^^ p.2)
/-- The parity granule of a stripe's data granules (R192), `n` bytes long. -/
def parityBytes (n : Nat) (data : List (List Byte)) : List Byte := data.foldl xorBytes (List.replicate n 0#8)
/-- A granule rebuilt from the other data granules of its stripe and the parity (R193). -/
def rebuiltBytes (n : Nat) (others : List (List Byte)) (parity : List Byte) : List Byte := xorBytes (parityBytes n others) parity

/-! ### Relocation, retirement, die failure (R193, R194, R199-R203) -/

/-- Relocation of every valid granule of a block set, to streams of the normal kind (0) or of wear levelling (16): a
program elsewhere each, the source kept until then (R193, R199, R201, R203). -/
def relocateTo (fl : Flash) (kind d b : Nat) : Flash :=
  let fl := updSet (closeStripes fl (fun m => m.1 == d && m.2 == b)) d b (fun x => { x with relocate := true })
  parityDue (((validIn fl d b).filter (fun l => !movingAway fl l)).foldl
    (fun fl l => flashMove fl (putStream fl kind none) l.obj l.ver l.gran) fl)
def relocate (fl : Flash) (d b : Nat) : Flash := relocateTo fl 0 d b

/-- Data block sets lost: the headroom falls, and below 16,384 the capacity falls by 2,304 granules each (R202). -/
def loseSets (fl : Flash) (n : Nat) : Flash :=
  let short (h : Int) : Nat := (16384 - h).toNat
  let h := fl.headroom - n
  let cut := short h - short fl.headroom
  { fl with headroom := h, retired := satAdd fl.retired n, capacity := BitVec.ofNat 32 (fl.capacity.toNat - 2304 * cut) }

/-- Granules' contents are lost and not yet rewritten (R204). -/
def loseGranules (fl : Flash) (ls : List Loc) : Flash :=
  { fl with lost := (fl.lost ++ ls.map (fun l => (l.obj, l.ver, l.gran))).eraseDups }

/-- The members of a granule's block stripe. -/
def membersOf (fl : Flash) (l : Loc) : List (Nat × Nat) := AMap.getD fl.blockStripes l.stripe []

/-- The failed dies of a die's group whose granules have not all been rebuilt (R194). -/
def rebuildingDies (fl : Flash) (d : Nat) : List Nat :=
  ((List.range 32).map (fun c => 16 * c + d % 16)).filter (fun e => (dieOf fl e).failed && fl.map.any (·.die == e))

/-- Whether another member of a granule's stripe is lost (R193, R194): a failed die not yet rebuilt, or parity that never
reached the media and went with the near tier (R190). -/
def stripeShort (fl : Flash) (l : Loc) : Bool :=
  (rebuildingDies fl l.die).any (fun e => e != l.die && (membersOf fl l).any (fun m => m.1 == e)) ||
  fl.stripes.any (fun st => st.stripe == l.stripe && st.page == l.page && st.parity == .missing)

/-- The granules of a failed die are rebuilt into stripes of other positions; those whose stripe has lost two members are lost,
on this die and on the others that are being rebuilt (R194). -/
def rebuildDie (fl : Flash) (d : Nat) : Flash × List Loc :=
  let hit := fl.map.filter (fun l => (dieOf fl l.die).failed && (l.die == d || (membersOf fl l).any (fun m => m.1 == d)) &&
    stripeShort fl l && !fl.lost.contains (l.obj, l.ver, l.gran))
  let fl := loseGranules fl hit
  let todo := fl.map.filter (fun l => l.die == d && !fl.lost.contains (l.obj, l.ver, l.gran) && !movingAway fl l)
  (todo.foldl (fun fl l => flashMove fl (putStream fl 0 (some (d % 16))) l.obj l.ver l.gran) fl, hit)

/-- A die is declared failed (R194): its programs are made again elsewhere, its block stripes close, its block sets are lost
for good, and its granules are rebuilt. The granules that are lost come back with the flash. -/
def failDie (fl : Flash) (d : Nat) : Flash × List Loc :=
  let x := dieOf fl d
  if x.failed then (fl, [])
  else
    let good := (List.range 828).countP (fun b => (blockSetOf x b).state ≠ .retired)
    let fl := updDie fl d (fun x => { x with failed := true, programs := [] })
    let fl := loseSets (closeStripes fl (fun m => m.1 == d)) good
    let fl := x.programs.foldl (fun fl p => if p.parity then setParity fl p.stripe p.stripePage .near else redoProgram fl p) fl
    let (fl, hit) := rebuildDie fl d
    (parityDue fl, hit)

/-- A block set is retired, its valid granules first relocated, its programs in flight made again elsewhere; the 64th in 24
hours fails its die (R191, R194, R200). -/
def retireSet (fl : Flash) (d b : Nat) : Flash × List Loc :=
  if (blockSetOf (dieOf fl d) b).state = .retired || (dieOf fl d).failed then (fl, [])
  else
    let fl := relocate fl d b
    let redo := (dieOf fl d).programs.filter (fun p => p.set == b)
    let fl := updSet fl d b (fun x => { x with state := .retired })
    let fl := updDie fl d (fun x => { x with
      retired24 := Hours.add x.retired24, programs := x.programs.filter (fun p => p.set != b) })
    let fl := redo.foldl (fun fl p => if p.parity then setParity fl p.stripe p.stripePage .near else redoProgram fl p) fl
    let fl := loseSets (parityDue fl) 1
    if 64 ≤ Hours.total (dieOf fl d).retired24 then failDie fl d else (fl, [])

/-! ### Senses (R187, R193, R195, R201) -/

/-- The planes of codewords of a granule, 32 in each (R184, R187). -/
def planesOf (need : List Nat) : List Nat := (List.range 4).filter (fun q => need.any (fun c => c / 32 == q))

/-- Planes of a block set are sensed; at 2,000,000 senses of a plane block it is relocated (R201). A failed die is read no
more (R194). -/
def senseSet (fl : Flash) (d b n : Nat) (planes : List Nat) : Flash :=
  if (dieOf fl d).failed then fl
  else
    let fl := updSet fl d b (fun x => { x with senses := x.senses.mapIdx (fun q k => if planes.contains q then k + n else k) })
    let x := blockSetOf (dieOf fl d) b
    if x.senses.any (fun k => decide (2000000 ≤ k)) && !x.relocate then relocate fl d b else fl

/-- The other members of a granule's stripe that hold a programmed page, as (die, block set) (R191-R193). -/
def stripeOthers (fl : Flash) (l : Loc) : List (Nat × Nat) :=
  let moved := fl.movedParity.find? (fun x => x.stripe == l.stripe && x.stripePage == l.page)
  let place (m : Nat × Nat) : Nat × Nat := match moved with
    | some x => if x.die = m.1 then (x.die, x.set) else m
    | none => m
  ((membersOf fl l).map place).filter (fun m => m.1 != l.die && !(dieOf fl m.1).failed &&
    (blockSetOf (dieOf fl m.1) m.2).pages.any (fun t => t.1 == (match moved with
      | some x => if x.die = m.1 then x.page else l.page
      | none => l.page)))

/-- The codewords' planes of the other members of a granule's stripe are sensed once (R193). -/
def senseOthers (fl : Flash) (l : Loc) (need : List Nat) : Flash :=
  (stripeOthers fl l).foldl (fun fl m => senseSet fl m.1 m.2 1 (planesOf need)) fl

/-- Energy in pJ of senses of planes and of codewords transferred and decoded (R466). -/
def readEnergy (senses codewords : Nat) : Nat := 1200000 * senses + 30000 * codewords

/-! ### Hold-up and start (R65, R189, R190, R192, R203) -/

/-- Hold-up: every program started is completed, every partly filled stripe gets its parity, and the journal is
written to flash. -/
def holdUp (fl : Flash) : Flash :=
  let fl : Flash := (fl.dies.map (·.1)).foldl (fun fl d =>
    (dieOf fl d).programs.foldl (fun fl _ => programDone fl d) fl) fl
  let fl : Flash := { fl with dies := fl.dies.map (fun e => (e.1, { e.2 with programs := [] })) }
  let fl : Flash := fl.stripes.foldl (fun fl st => if st.parity == .media then fl else sealStripe fl st) fl
  { fl with journalFlash := fl.journalFlash ++ fl.journal, journal := [] }

/-- The media part of the flash: what rails going off leaves (R189, R190, R204). The map and the journal in the near tier,
programs in flight, parity not yet on the media and the reads that wait are lost. -/
def mediaOnly (fl : Flash) : Flash :=
  { fl with
    dies := fl.dies.map (fun e => (e.1, { e.2 with programs := [], offset := 0 }))
    stripes := fl.stripes.map (fun st => if st.parity == .media then st else { st with parity := .missing })
    map := [], journal := [], reads := [], raised := false
    rebuilds := 0, rateLevel := [], soft := [], rebuilt := [] }

/-- Map entries that the tags of a die's open block sets record (R190). -/
def tagsOf (fl : Flash) (d : Nat) : List Loc :=
  ((dieOf fl d).sets.filter (fun e => e.2.state == .opened)).flatMap (fun e =>
    (e.2.pages.filter (fun t => t.2.1 ≠ 0)).map (fun t =>
      { obj := t.2.1, ver := t.2.2.1, gran := t.2.2.2.1, die := d, set := e.1, page := t.1, seq := t.2.2.2.2
        stripe := (((fl.blockStripes.filter (fun k => k.2.contains (d, e.1))).getLast?).elim 0 (·.1)) }))

/-- Entries in ascending write sequence number. -/
def bySeq (ls : List Loc) : List Loc := sortBy (fun a b => decide (a.seq < b.seq)) ls

/-- Whether the page that a map entry names holds its tag. -/
def tagged (fl : Flash) (l : Loc) : Bool :=
  (blockSetOf (dieOf fl l.die) l.set).pages.contains (l.page, l.obj, l.ver, l.gran, l.seq)

/-- The map of a start (R189, R190): the last full map, the journal replayed, then the tags of the open block sets in
ascending write sequence number; a page erased since holds no tag. -/
def loadMap (fl : Flash) : Flash :=
  let fl := { fl with map := fl.mapFlash.filter (tagged fl) }
  let fl := (fl.journalFlash.filter (tagged fl)).foldl mapTo fl
  let fl := { fl with journal := [] }
  (bySeq (((List.range 512).flatMap (tagsOf fl)).filter (fun l => !fl.map.contains l))).foldl mapTo fl

/-- The partly filled stripes get the parity that the last stop did not program, and are completed with zero granules (R190,
R192). -/
def finishStripes (fl : Flash) : Flash :=
  fl.stripes.foldl (fun fl st => dropStripe (if st.parity == .media then fl else sealStripe fl st) st) fl

/-- Relocations that a stop cut short start again (R203). -/
def resumeMoves (fl : Flash) : Flash :=
  (fl.dies.flatMap (fun e => if e.2.failed then [] else (e.2.sets.filter (fun b => b.2.relocate)).map (fun b => (e.1, b.1)))).foldl
    (fun fl m => if (validIn fl m.1 m.2).isEmpty then fl else relocate fl m.1 m.2) fl

/-- Stage 6 of a start (R185, R186, R189, R190, R194, R203): the interface is calibrated and raised, the map is recovered, the
dies that fail their checks are declared failed, partly filled stripes are completed, rebuilds and relocations go on. The
granules that are lost come back with the flash. -/
def startFlash (fl : Flash) (now : Nat) (badDies : List Nat) : Flash × List Loc :=
  let fl := loadMap { fl with raised := true, calibrated := now }
  let step (r : Flash × List Loc) (g : Flash → Flash × List Loc) : Flash × List Loc :=
    let (fl, ls) := g r.1
    (fl, r.2 ++ ls)
  let old := (fl.dies.filter (fun e => e.2.failed)).map (·.1)
  let r := old.foldl (fun r d => step r (fun fl => rebuildDie fl d)) (fl, [])
  let r := (badDies.filter (· < 512)).foldl (fun r d => step r (fun fl => failDie fl d)) r
  (resumeMoves (finishStripes r.1), r.2)

/-! ### Questions -/

/-- Whether a program that the command waits for is in flight (R189). -/
def programWaits (fl : Flash) (cid : Nat) : Bool := anyProgram fl (fun p => p.cid == some cid)

/-- Whether a die programs or erases (R196): one operation at a time; without a program in flight, a closed block set that holds
no valid granule is being erased. -/
def dieErases (fl : Flash) (d : Nat) : Bool :=
  (dieOf fl d).programs.isEmpty && (dieOf fl d).sets.any (fun e => e.2.state == .closed && (validIn fl d e.1).isEmpty)
def dieBusy (fl : Flash) (d : Nat) : Bool := !(dieOf fl d).programs.isEmpty || dieErases fl d

/-- Highest and lowest erase count of the block sets in service (R204). -/
def eraseSpread (fl : Flash) : Nat × Nat :=
  let live := (List.range 512).filter (fun d => !(dieOf fl d).failed)
  let unlisted := live.any (fun d => (dieOf fl d).sets.length < 828)
  let counts := live.flatMap (fun d => ((dieOf fl d).sets.filter (fun e => e.2.state ≠ .retired)).map (fun e => e.2.erases))
  let counts := if unlisted then 0 :: counts else counts
  (counts.foldl max 0, counts.foldl min (counts.headD 0))

end Sys2Proof.Machine
end

