-- ==== Sys2Proof/Machine/Space.lean ====
section
/-! DEFINITION. The object space (R127-R130, R154-R183): rights and targets, pins, granule frames and their tiers,
placement and capacity, addresses, versions and their release. -/

namespace Sys2Proof.Machine
open Sys2Proof

/-! ### Objects, rights, targets -/

/-- The granule size (R160). -/
def granule : Nat := 65536

/-- Granules that hold a number of bytes. -/
def granules (n : Nat) : Nat := ceilDiv n granule

/-- Owner and serial of an object ID (R127). -/
def oidFn (oid : Nat) : Nat := oid / 2 ^ 24
def oidSerial (oid : Nat) : Nat := oid % 2 ^ 24

/-- The object of an ID, destroyed ones still pinned included. -/
def objOf (s : State) (oid : Nat) : Option Obj := AMap.get? s.space.objs oid

/-- An object not destroyed (R136). -/
def liveObj (s : State) (oid : Nat) : Option Obj := (objOf s oid).filter (fun o => !o.destroyed)

/-- An object stored or changed. -/
def putObj (s : State) (oid : Nat) (o : Obj) : State := { s with space := { s.space with objs := AMap.insert s.space.objs oid o } }
def updObj (s : State) (oid : Nat) (g : Obj → Obj) : State :=
  match objOf s oid with
  | some o => putObj s oid (g o)
  | none => s

/-- Whether an object is a group. -/
def Obj.isGroup (o : Obj) : Bool :=
  match o.kind with
  | .group _ _ => true
  | _ => false

/-- Full or read rights (R128); a group is its creator's alone. -/
def mayRead (o : Obj) (f : Nat) : Bool := o.fn == f || (o.grants.contains f && !o.isGroup)

/-- The number of a function's tenant share as a domain: the ID with serial 0. -/
def shareDomain (f : Nat) : Nat := f * 2 ^ 24

/-- What is known of a domain. -/
def domainOf (s : State) (f id : Nat) : Option Domain := s.fabric.domains.find? (fun d => d.fn == f && d.id == id)

/-- A domain's present epoch (R398). -/
def domainEpoch (s : State) (f id : Nat) : BitVec 32 :=
  let local' := if id = shareDomain f then (fnOf s f).shareEpoch else (objOf s id).elim 0 (·.epoch)
  let known := (domainOf s f id).elim 0 (·.epoch)
  if known.toNat < local'.toNat then local' else known

/-- A result rejected under its domain (R41, R411, R416). -/
def countRejected (s : State) (f id : Nat) : State :=
  let d := (domainOf s f id).getD { fn := f, id := id, epoch := domainEpoch s f id, node := s.fabric.node }
  { s with fabric := { s.fabric with
    rejected := satAdd s.fabric.rejected 1
    domains := s.fabric.domains.filter (fun d => !(d.fn == f && d.id == id)) ++ [{ d with rejected := satAdd d.rejected 1 }] } }

/-- What an object parameter of a command names (R128, R129, R131). -/
inductive Target where
  | own (o : Obj)
  | granted (o : Obj)
  | foreign
  | missing
deriving DecidableEq, Repr

/-- A version of an object. -/
def verOf (o : Obj) (n : Nat) : Option Version := o.versions.find? (·.num == n)

/-- The version number with which a command names an object, 0 for the current one (R128, R169). -/
def namedVersion (a : Adm) (oid : Nat) : Nat :=
  if [0x206, 0x207, 0x208, 0x402].contains a.cmd.opcode && a.p 32 4 == oid then a.p 36 4 else 0

/-- Resolution of an object ID for an admitted command: rights and existence are those of its admission, kept in its
pins (R129, R136, R137). -/
def target (s : State) (a : Adm) (oid : Nat) : Target :=
  if oidSerial oid = 0 then (if oidFn oid = a.fn then .missing else .foreign)
  else match objOf s oid with
    | some o =>
      if a.pins.any (·.1 == oid) then (if o.fn = a.fn then .own o else .granted o)
      else if oidFn oid = a.fn then .missing
      else if !o.destroyed && mayRead o a.fn && namedVersion a oid != 0 && (verOf o (namedVersion a oid)).isNone then .missing
      else .foreign
    | none => if oidFn oid = a.fn then .missing else .foreign

/-- Whether a target is outside the function's rights for reading (R129). -/
def Target.isForeign : Target → Bool
  | .foreign => true
  | _ => false

/-- Whether a target is outside the function's rights for writing: foreign, or only readable (R129). -/
def Target.noWrite : Target → Bool
  | .foreign => true
  | .granted _ => true
  | _ => false

/-- The readable object of a target. -/
def Target.obj? : Target → Option Obj
  | .own o => some o
  | .granted o => some o
  | _ => none

/-- The version a command pinned of an object (R169); 0 for an unversioned one. -/
def pinnedVer (a : Adm) (oid : Nat) : Nat := (a.pins.find? (·.1 == oid)).elim 0 (·.2)

/-- The bytes of a version of an object. -/
def verBytes (o : Obj) (n : Nat) : Mem := (verOf o n).elim [] (·.bytes)

/-- The size of a version of an object. -/
def verSize (o : Obj) (n : Nat) : Nat := (verOf o n).elim 0 (·.size)

/-- Commands and instances that pin a version of an object (R169, R300). -/
def pinCount (s : State) (oid ver : Nat) : Nat :=
  s.sched.admitted.countP (fun a => a.pins.contains (oid, ver)) +
  (AMap.vals s.prog.instances).countP (fun i => i.slots.contains (oid, ver) || i.image == oid)

/-- Commands and instances that pin any version of an object. -/
def pinsOf (s : State) (oid : Nat) : Nat :=
  s.sched.admitted.countP (fun a => a.pins.any (·.1 == oid)) +
  (AMap.vals s.prog.instances).countP (fun i => i.slots.any (·.1 == oid) || i.image == oid)

/-! ### Frames, tiers and capacity -/

/-- The version that wrote granule g of a version. -/
def originOf (v : Version) (g : Nat) : Nat := AMap.getD v.origins g v.origin

/-- The frame of a granule of a version. -/
def frameOf (o : Obj) (v : Version) (g : Nat) : Option Frame :=
  o.frames.find? (fun fr => fr.ver == originOf v g && fr.gran == g)

/-- Bytes of a row record (R359). -/
def rowBytes (fmt cols : Nat) : Nat :=
  roundUp ((match fmt with | 0 => cols + cols / 16 | 1 => cols | 2 => 2 * cols | _ => 4 * cols) + 4) 16

/-- Near granules that the extra copies of a table's hot rows take (R364). -/
def hotGranules (o : Obj) : Nat :=
  match o.kind with
  | .table fmt _ _ _ cols _ => granules (o.hotRows.foldl (fun n r => n + rowBytes fmt cols * (r.2 - 1)) 0)
  | _ => 0

/-- Near and peat granules charged to a function (R160, R178): each frame once, with the copies of hot rows (R364). -/
def chargedNear (s : State) (f : Nat) : Nat :=
  ((AMap.vals s.space.objs).filter (·.fn == f)).foldl (fun n o => n + hotGranules o + o.frames.countP (fun fr => fr.tier == .near)) 0
def chargedPeat (s : State) (f : Nat) : Nat :=
  ((AMap.vals s.space.objs).filter (·.fn == f)).foldl (fun n o => n + o.frames.countP (fun fr => fr.tier != .near)) 0

/-- Near and peat granules charged to any function. -/
def nearUsed (s : State) : Nat :=
  (AMap.vals s.space.objs).foldl (fun n o => n + hotGranules o + o.frames.countP (fun fr => fr.tier == .near)) 0
def peatUsed (s : State) : Nat :=
  (AMap.vals s.space.objs).foldl (fun n o => n + o.frames.countP (fun fr => fr.tier != .near)) 0

/-- Near granules offered to objects (R161). -/
def nearTotal : Nat := 15204352

/-- Frames a channel offers (R161). -/
def channelFrames (c : Nat) : Nat := if c < 128 then 20480 else 24576

/-- Channels of a function's set in ascending number (R208). -/
def channelSet (s : State) (f : Nat) : List Nat :=
  let x := fnOf s f
  if x.isSealed then (List.range 640).filter (fun c => x.dedStacks.contains (c / 32))
  else (List.range 640).filter (fun c => !(s.fns.any (fun e => e.2.isSealed && e.2.dedStacks.contains (c / 32))))

/-- The channel of a granule (R207). -/
def channelOf (s : State) (oid g : Nat) : Nat :=
  let set := channelSet s (oidFn oid)
  set.getD ((13 * oidFn oid + 67 * oidSerial oid + g / 8) % set.length) 0

/-- Near frames in use on a channel. -/
def channelUsed (s : State) (c : Nat) : Nat :=
  s.space.objs.foldl (fun n e => n + e.2.frames.countP (fun fr => fr.tier == .near && channelOf s e.1 fr.gran == c)) 0

/-- Cached copies on a channel, which are dropped for Near granules (R160). -/
def channelCached (s : State) (c : Nat) : Nat :=
  s.space.objs.foldl (fun n e => n + e.2.frames.countP (fun fr => fr.tier == .cached && channelOf s e.1 fr.gran == c)) 0

/-- Place of a granule among those used, the least recently used first; one never used stands before them all (R163). -/
def lastUse (s : State) (oid ver g : Nat) : Nat := (s.space.recent.idxOf? (oid, ver, g)).elim 0 (· + 1)

/-- Granules of a version used by a read or a write of a range become the most recent (R163). -/
def touchRange (s : State) (oid ver off n : Nat) : State :=
  match (objOf s oid).bind (fun o => verOf o ver) with
  | none => s
  | some v =>
    let gs := if n = 0 then [] else
      (List.range (granules (off + n) - off / granule)).map (fun i => (oid, originOf v (off / granule + i), off / granule + i))
    { s with space := { s.space with recent := s.space.recent.filter (fun x => !gs.contains x) ++ gs } }

/-- Granules of a version read by a streamed pass (R163). -/
def streamRange (s : State) (oid ver off n : Nat) : State :=
  match (objOf s oid).bind (fun o => verOf o ver) with
  | none => s
  | some v =>
    let gs := if n = 0 then [] else
      (List.range (granules (off + n) - off / granule)).map (fun i => (oid, originOf v (off / granule + i), off / granule + i))
    touchRange { s with space := { s.space with streamed := s.space.streamed.filter (fun x => !gs.contains x) ++ gs } } oid ver off n

/-- The cached copies on a channel, as (object, version, granule). -/
def cachedOn (s : State) (c : Nat) : List (Nat × Nat × Nat) :=
  s.space.objs.flatMap (fun e => (e.2.frames.filter (fun fr => fr.tier == .cached && channelOf s e.1 fr.gran == c)).map
    (fun fr => (e.1, fr.ver, fr.gran)))

/-- A channel about to take a Near granule drops a cached copy, the least recently used, where its frames are all taken (R160). -/
def dropCached (s : State) (c : Nat) : State :=
  if channelUsed s c + channelCached s c < channelFrames c then s
  else match (cachedOn s c).foldl (fun best x => match best with
      | none => some x
      | some y => if lastUse s x.1 x.2.1 x.2.2 < lastUse s y.1 y.2.1 y.2.2 then some x else some y) none with
    | none => s
    | some x => updObj s x.1 (fun o => { o with frames := o.frames.map (fun fr =>
        if fr.ver == x.2.1 && fr.gran == x.2.2 then { fr with tier := .peat } else fr) })

/-- Whether a granule can be placed Near (R179, R207): its channel has a frame and the near limit allows it. -/
def nearRoom (s : State) (oid g : Nat) : Bool :=
  let c := channelOf s oid g
  let lim := (fnOf s (oidFn oid)).nearLimit.toNat
  decide (channelUsed s c < channelFrames c) && (lim == 0 || decide (chargedNear s (oidFn oid) < lim))

/-- Whether a granule can be placed on the peat tier (R179, R202). -/
def peatRoom (s : State) (oid : Nat) : Bool :=
  let lim := (fnOf s (oidFn oid)).peatLimit.toNat
  decide (peatUsed s < s.flash.capacity.toNat) && decide (4096 ≤ s.flash.headroom) && flashRoom s.flash &&
    (lim == 0 || decide (chargedPeat s (oidFn oid) < lim))

/-- Whether a hint's new granules go to the peat tier (R163, R310). -/
def wantsPeat (hint : BitVec 8) (full : Bool) : Bool := full || hint == 2

/-- Where a new or copied granule goes (R163, R164, R179): its tier, and whether the hint is overridden. -/
def placeTier (s : State) (oid : Nat) (hint : BitVec 8) (g : Nat) (full : Bool) : Option (Tier × Bool) :=
  if wantsPeat hint full then
    if peatRoom s oid then some (.peat, false)
    else if nearRoom s oid g then some (.near, !full)
    else none
  else
    if nearRoom s oid g then some (.near, false)
    else if peatRoom s oid then some (.peat, hint == 1 || hint == 3)
    else none

/-- A granule of a version of an object is placed; a peat granule starts its program (R188). -/
def placeOne (s : State) (oid ver g : Nat) (full : Bool) (cid : Option Nat) : Option State :=
  match objOf s oid with
  | none => none
  | some o =>
    match placeTier s oid o.hint g full with
    | none => none
    | some (t, ovr) =>
      let s := if t == .near then dropCached s (channelOf s oid g) else s
      let s := updObj s oid (fun o => { o with
        frames := o.frames ++ [{ ver := ver, gran := g, tier := t, full := full }]
        overridden := o.overridden || ovr })
      some (if t == .peat then { s with flash := flashStart s.flash oid ver g cid } else s)

/-- Granules placed in order; none where one of them fits neither tier (R179). -/
def placeAll (s : State) (oid ver : Nat) (cid : Option Nat) : List (Nat × Bool) → Option State
  | [] => some s
  | (g, full) :: gs =>
    match placeOne s oid ver g full cid with
    | some s' => placeAll s' oid ver cid gs
    | none => none

/-- A placement decision for an object begins: an earlier override stands only if a granule is still where the hint
does not want it (R164). -/
def rehint (o : Obj) (moves : List Move) (oid : Nat) : Bool :=
  match o.hint.toNat with
  | 1 | 3 => o.frames.any (fun fr => !fr.full && fr.tier != .near &&
      !(moves.any (fun m => m.obj == oid && m.ver == fr.ver && m.gran == fr.gran && m.dest == .near)))
  | 2 => o.overridden && o.frames.any (fun fr => !fr.full && fr.tier == .near &&
      !(moves.any (fun m => m.obj == oid && m.ver == fr.ver && m.gran == fr.gran && m.dest == .peat)))
  | _ => false

/-- HINT_STATE kept true to R164 after granules moved or were placed. -/
def reviewHint (s : State) (oid : Nat) : State := updObj s oid (fun o => { o with overridden := rehint o s.space.moves oid })

/-- A frame of an object changed. -/
def updFrame (s : State) (oid ver g : Nat) (k : Frame → Frame) : State :=
  updObj s oid (fun o => { o with frames := o.frames.map (fun fr => if fr.ver == ver && fr.gran == g then k fr else fr) })

/-- A move of a granule is abandoned (R162). -/
def dropMove (s : State) (oid ver g : Nat) : State :=
  { s with space := { s.space with
      moves := s.space.moves.filter (fun m => !(m.obj == oid && m.ver == ver && m.gran == g)) } }

/-- Whether the granules of a byte range of a version are lost on the media (R193, R203). -/
def lostRange (o : Obj) (ver off len : Nat) : Bool :=
  match verOf o ver with
  | none => false
  | some v => len ≠ 0 && (List.range (granules (off + len) - off / granule)).any
      (fun i => (frameOf o v (off / granule + i)).any (·.lost))

/-- Whether a byte range of a version meets an uncorrectable block of the near tier (R516). -/
def eccRange (o : Obj) (ver off len : Nat) : Bool :=
  match verOf o ver with
  | none => false
  | some v => len ≠ 0 && (List.range (granules (off + len) - off / granule)).any (fun i =>
      let g := off / granule + i
      (frameOf o v g).any (fun fr => fr.ue.any (fun b =>
        decide (granule * g + 64 * b < off + len) && decide (off < granule * g + 64 * b + 64))))

/-! ### Channels that hold ordinary requests (R209, R210) -/

/-- A channel's record. -/
def chanOf (s : State) (c : Nat) : Chan := AMap.getD s.stk.chans c {}

/-- Whether a channel in a state holds ordinary requests (R209). -/
def ChanState.holds : ChanState → Bool
  | .entry | .segment | .exit => true
  | .memory | .gap | .selfRefresh => false

/-- Whether a channel holds ordinary requests (R209, R210). -/
def chanHolds (s : State) (c : Nat) : Bool := (chanOf s c).state.holds

/-- Whether any channel holds ordinary requests. -/
def anyHolds (s : State) : Bool := s.stk.chans.any (fun e => e.2.state.holds)

/-- The channel, holding ordinary requests now, of the Near granule or cached copy that holds a byte of a version (R210). -/
def holdingChan (s : State) (oid ver off : Nat) : Option Nat :=
  let fr := (objOf s oid).bind (fun o => (verOf o ver).bind (fun v => frameOf o v (off / granule)))
  let c := channelOf s oid (off / granule)
  if anyHolds s && fr.any (·.tier != .peat) && chanHolds s c then some c else none

/-- Whether a range of a version lies in part on a channel that holds ordinary requests (R210). -/
def rangeHeld (s : State) (oid ver off len : Nat) : Bool :=
  anyHolds s && len != 0 &&
  (List.range (granules (off + len) - off / granule)).any (fun i => (holdingChan s oid ver (granule * (off / granule + i))).isSome)

/-- A request joins a channel's queue; while that holds 64 it is stalled (R210). -/
def holdRequest (s : State) (c : Nat) (h : Held) : State :=
  let x := chanOf s c
  let x := if x.held.length < 64 then { x with held := x.held ++ [h] } else { x with stalled := x.stalled ++ [h] }
  { s with stk := { s.stk with chans := AMap.insert s.stk.chans c x } }

/-- Whether a request reads bytes of a version. -/
def HeldOp.reads : HeldOp → Bool
  | .read | .load _ => true
  | .write _ | .atomic _ _ _ => false

/-- Requests that channels hold or stall. -/
def heldRequests (s : State) : List Held := (AMap.vals s.stk.chans).flatMap (fun c => c.held ++ c.stalled)

/-! ### Reads that wait at a die (R197) -/

/-- An aperture read of a granule that waits for flash (R173). -/
def apWaits (s : State) (oid g : Nat) : FlashClient → Option ApRead
  | .aperture f off len =>
    s.space.apReads.find? (fun r => r.fn == f && r.bar == off && r.len == len && r.oid == oid && r.off / granule == g)
  | .command _ | .list _ _ | .shuttle _ | .array _ | .reed _ | .background => none

/-- Whether the work that a queued read is for still goes on. -/
def readAlive (s : State) (r : FlashRead) : Bool :=
  match r.client with
  | .command cid | .list cid _ => (findAdm s cid).any (fun a => match a.phase with | .done _ => false | _ => true)
  | .aperture _ _ _ => (apWaits s r.obj r.gran r.client).isSome
  | .shuttle sh => !(AMap.getD s.prog.shuttles sh {}).pending.isEmpty
  | .array l => !(AMap.getD s.looms.looms l {}).dq.isEmpty
  | .reed k => (AMap.getD s.reeds.reeds k {}).running.isSome
  | .background => false

/-- The deadline of a client's command (R197). -/
def clientDeadline (s : State) : FlashClient → Option Nat
  | .command cid | .list cid _ => (findAdm s cid).bind (·.cmd.deadline)
  | .aperture _ _ _ | .shuttle _ | .array _ | .reed _ | .background => none

/-- The order of a die's queue (R197): the earlier deadline first, a read without one behind every read that has one. -/
def readBefore (a b : Option Nat) : Bool :=
  match a, b with
  | some x, some y => decide (x < y)
  | some _, none => true
  | none, _ => false

/-- A die's queue of request reads (R197): by deadline, equal ones in order of arrival. -/
def dieQueue (s : State) (d : Nat) : List FlashRead :=
  sortBy (fun a b => readBefore a.deadline b.deadline)
    (s.flash.reads.filter (fun r => readAlive s r && (locOf s.flash r.obj r.ver r.gran).any (fun l => l.die == d)))

/-- A read of a granule joins the queue of its die (R197). -/
def queueRead (s : State) (client : FlashClient) (oid : Nat) (fr : Frame) (deadline : Option Nat) : State :=
  { s with flash := { s.flash with reads := s.flash.reads ++ [⟨client, oid, fr.ver, fr.gran, deadline⟩] } }

/-- Reads of the granules of a range of a version that lie on the peat tier join their dies' queues (R197). -/
def queueRange (s : State) (client : FlashClient) (oid ver off len : Nat) (deadline : Option Nat) : State :=
  match (objOf s oid).bind (fun o => (verOf o ver).map (fun v => (o, v))) with
  | none => s
  | some (o, v) =>
    let gs := if len = 0 then [] else (List.range (granules (off + len) - off / granule)).map (· + off / granule)
    (gs.filterMap (fun g => (frameOf o v g).filter (fun fr => fr.tier == .peat))).foldl (fun s fr => queueRead s client oid fr deadline) s

/-- Which failures of a read are asked for: a lost granule (R181) alone, or an uncorrectable block (R516) too. -/
inductive Bad where
  | lost
  | any

/-- Whether a read of a range of a version fails. -/
def rangeBad (m : Bad) (o : Obj) (ver off len : Nat) : Bool :=
  lostRange o ver off len || (match m with | .lost => false | .any => eccRange o ver off len)

/-- An error of a near-tier read is counted, for the node and for its stack (R516, R519, R534, R548). -/
def countEcc (s : State) (stack : Nat) (e : Ecc) : State :=
  match e with
  | .clean => s
  | .corrected => { s with
      service := { s.service with ce := satAdd s.service.ce 1, ce24 := Hours.add s.service.ce24 }
      stk := { s.stk with ce := AMap.insert s.stk.ce stack (AMap.getD s.stk.ce stack 0 + 1) } }
  | .uncorrectable => { s with
      service := { s.service with ue := satAdd s.service.ue 1, ue24 := Hours.add s.service.ue24 }
      stk := { s.stk with ue := AMap.insert s.stk.ue stack (AMap.getD s.stk.ue stack 0 + 1) } }

/-- Uncorrectable blocks that a read of a Near granule has met stay so until written whole; of a cached copy the copy is
dropped (R516). -/
def spoil (s : State) (oid ver g : Nat) (bs : List Nat) : State :=
  updFrame s oid ver g (fun fr =>
    if fr.tier == .near then { fr with ue := (fr.ue ++ bs).eraseDups } else { fr with tier := .peat })

/-! ### Addresses (R154, R155) -/

/-- Assigned ranges of a function's object space, in granules, guards included. -/
def assigned (s : State) (f except : Nat) : List (Nat × Nat) :=
  s.space.objs.flatMap (fun e =>
    if e.2.fn = f && !e.2.destroyed && e.2.kind.addressed then
      (if e.1 = except then [] else [(e.2.base / granule, e.2.span + 1)]) ++
        e.2.former.map (fun r => (r.1 / granule, r.2.1 + 1))
    else [])

/-- Whether a range of granules meets no assigned one. -/
def rangeFree (rs : List (Nat × Nat)) (b n : Nat) : Bool :=
  rs.all (fun r => decide (b + n ≤ r.1) || decide (r.1 + r.2 ≤ b))

/-- The lowest free range for n granules and a guard, as a granule number; the first 1 GiB is never assigned (R154). -/
def lowestRange (s : State) (f except n : Nat) : Nat :=
  let rs := assigned s f except
  let cands := 16384 :: rs.map (fun r => r.1 + r.2)
  (cands.filter (fun b => decide (16384 ≤ b) && rangeFree rs b (n + 1))).foldl
    (fun best b => match best with | none => some b | some a => some (min a b)) none |>.getD 16384

/-- The object and offset of an address of a function's object space, or whether it is tail or former (ignored), or
unassigned (R155). -/
inductive Place where
  | bytes (oid off : Nat)
  | quiet
  | unassigned
deriving DecidableEq, Repr

def resolve (s : State) (f addr : Nat) : Place :=
  let g := addr / granule
  match s.space.objs.find? (fun e => e.2.fn == f && !e.2.destroyed && e.2.kind.addressed &&
      decide (e.2.base / granule ≤ g) && decide (g < e.2.base / granule + e.2.span)) with
  | some (oid, o) => if addr - o.base < verSize o o.current then .bytes oid (addr - o.base) else .quiet
  | none =>
    if s.space.objs.any (fun e => e.2.fn == f && !e.2.destroyed && e.2.former.any (fun r =>
        decide (r.1 / granule ≤ g) && decide (g < r.1 / granule + r.2.1))) then .quiet
    else .unassigned

/-! ### Versions -/

/-- Frames that no live version and no build of the object still uses. -/
def liveFrame (o : Obj) (fr : Frame) : Bool :=
  o.versions.any (fun v => originOf v fr.gran == fr.ver && decide (fr.gran < granules v.size)) || decide (2 ^ 32 ≤ fr.ver)

/-- Whether a command is a load or a compaction. -/
def Cmd.isBuild (c : Cmd) : Bool := c.opcode == 0x202 || c.opcode == 0x205 || c.opcode == 0x401

/-- The object whose version a command's completion switches. -/
def Adm.switchObj (a : Adm) : Nat := if a.cmd.opcode = 0x104 then a.p 36 4 else a.p 32 4

/-- The version a compaction starts from: the newest of those admitted before it (R140). -/
def compactBase (o : Obj) (seq : Nat) : Nat :=
  match o.mutations.find? (fun m => decide (seq < m.1)) with
  | some m => m.2.1
  | none => o.tip

/-- Whether an admitted command still owes a version of an object, or has made it and not completed (R136, R139). -/
def versionOwed (s : State) (oid n : Nat) : Bool :=
  s.sched.admitted.any (fun a => a.switchObj == oid && (a.switch == some n || (match a.phase with
    | .done r => a.cmd.isBuild && r.value.toNat == n
    | _ => false)))

/-- Whether a running compaction is to be built from a version (R140). -/
def compactsFrom (s : State) (oid : Nat) (o : Obj) (n : Nat) : Bool :=
  s.sched.admitted.any (fun a => a.phase == .running && a.cmd.opcode == 0x205 && a.p 32 4 == oid && compactBase o a.seq == n)

/-- Whether an aperture read that waits reads a version (R159); whether one reads any of an object. -/
def readsVersion (s : State) (oid n : Nat) : Bool :=
  s.space.apReads.any (fun r => r.oid == oid && r.ver == n) ||
  (heldRequests s).any (fun h => h.op.reads && h.oid == oid && h.ver == n)
def readsObject (s : State) (oid : Nat) : Bool :=
  s.space.apReads.any (·.oid == oid) || (heldRequests s).any (fun h => h.op.reads && h.oid == oid)

/-- Versions kept (R40, R136, R329): those pinned, those an aperture read waits for (R159), the base of a running compaction
(R140), and of an object not destroyed the current one and later ones; of a destroyed one those that a command owes. -/
def keepVersion (s : State) (oid : Nat) (o : Obj) (v : Version) : Bool :=
  pinCount s oid v.num != 0 || readsVersion s oid v.num || compactsFrom s oid o v.num ||
  (if o.destroyed then decide (o.current < v.num) && versionOwed s oid v.num else decide (o.current ≤ v.num))

/-- Superseded versions, their frames and former ranges are freed (R40, R154); peat granules leave the map. -/
def freeVersions (s : State) (oid : Nat) : State :=
  match objOf s oid with
  | none => s
  | some o =>
    let vs := o.versions.filter (keepVersion s oid o)
    let o' := { o with versions := vs }
    let gone := o.frames.filter (fun fr => !liveFrame o' fr)
    let o' := { o' with
      frames := o.frames.filter (liveFrame o')
      former := o.former.filter (fun r => vs.any (fun v => decide (v.num ≤ r.2.2))) }
    let s := putObj s oid o'
    let s := { s with
      flash := gone.foldl (fun fl fr => unmap fl oid fr.ver fr.gran) s.flash
      space := { s.space with
        moves := s.space.moves.filter (fun m => !(m.obj == oid && gone.any (fun fr => fr.ver == m.ver && fr.gran == m.gran)))
        recent := s.space.recent.filter (fun x => !(x.1 == oid && gone.any (fun fr => fr.ver == x.2.1 && fr.gran == x.2.2)))
        streamed := s.space.streamed.filter (fun x => !(x.1 == oid && gone.any (fun fr => fr.ver == x.2.1 && fr.gran == x.2.2))) } }
    if o.destroyed && pinsOf s oid == 0 && !readsObject s oid then
      { s with
        flash := o'.frames.foldl (fun fl fr => unmap fl oid fr.ver fr.gran) s.flash
        space := { s.space with
          objs := AMap.erase s.space.objs oid
          moves := s.space.moves.filter (fun m => m.obj ≠ oid)
          recent := s.space.recent.filter (fun x => x.1 ≠ oid), streamed := s.space.streamed.filter (fun x => x.1 ≠ oid) } }
    else if gone.isEmpty then s else reviewHint s oid

/-- Every object reviewed: versions whose last pin has gone are freed. -/
def freeAll (s : State) : State := s.space.objs.foldl (fun s e => freeVersions s e.1) s

/-- A version becomes current: base and span follow its size, superseded versions are freed (R39, R40, R154); a grown object's
room is judged and its range taken here (DESIGN CHOICE, log entry 109). It takes no effect on a destroyed object (R136) or behind a later current version. -/
def switchTo (s : State) (oid ver : Nat) : State :=
  match objOf s oid with
  | none => s
  | some o =>
    match verOf o ver with
    | none => s
    | some v =>
      if o.destroyed || ver ≤ o.current then s
      else
        let n := granules v.size
        let rs := assigned s o.fn oid
        let o := { o with current := ver }
        let o := if rangeFree rs (o.base / granule) (n + 1) then { o with span := n }
          else { o with
            base := granule * lowestRange s o.fn (2 ^ 33) n
            span := n
            former := o.former ++ [(o.base, o.span, ver - 1)] }
        freeVersions (putObj s oid o) oid

/-- Granules of two images in which a written byte range lies. -/
def rangeGranules (off len : Nat) : List Nat :=
  if len = 0 then [] else (List.range (granules (off + len) - off / granule)).map (· + off / granule)

/-- Whether granule g of the image with this full-vector test holds full vectors (R310). -/
abbrev FullTest := Nat → Bool

/-- A new version built on another (R166, R167): it shares what the command did not write, and each written granule
is placed anew. No version where the number or a tier runs out. The version's number comes back with the state. -/
def makeVersion (s : State) (oid base : Nat) (bytes : Mem) (size : Nat) (written : List Nat) (full : FullTest)
    (cid : Option Nat) : Option (State × Nat) :=
  match objOf s oid with
  | none => none
  | some o =>
    match verOf o base with
    | none => none
    | some b =>
      if 0xFFFFFFFF ≤ o.next then none
      else
        let n := o.next
        let grown := (List.range (granules size)).filter (fun g => granules b.size ≤ g)
        let ws := (written ++ grown).eraseDups
        let v : Version := {
          num := n, size := size, bytes := bytes, origin := b.origin
          origins := ws.foldl (fun m g => AMap.insert m g n) b.origins }
        let s := putObj s oid { o with versions := o.versions ++ [v], next := n + 1, tip := n }
        (placeAll s oid n cid (ws.map (fun g => (g, full g)))).map (fun s => (reviewHint s oid, n))

/-- A whole new image that shares nothing (R167): its frames are held under a number of their own until it is numbered. -/
def placeBuild (s : State) (oid tag size : Nat) (full : FullTest) (cid : Option Nat) : Option State :=
  placeAll s oid tag cid ((List.range (granules size)).map (fun g => (g, full g)))

/-- The frame number of a version in building by a command. -/
def buildTag (cid : Nat) : Nat := 2 ^ 32 + cid

/-- A build takes its version number (R140): its frames and media entries are renamed. -/
def numberBuild (s : State) (oid tag : Nat) (bytes : Mem) (size : Nat) : State × Nat :=
  match objOf s oid with
  | none => (s, 0)
  | some o =>
    let n := o.next
    let o := { o with
      next := n + 1
      versions := o.versions ++ [{ num := n, size := size, bytes := bytes, origin := n }]
      frames := o.frames.map (fun fr => if fr.ver = tag then { fr with ver := n } else fr) }
    let rn (l : Loc) : Loc := if l.obj = oid && l.ver = tag then { l with ver := n } else l
    let rp (p : Program) : Program := if !p.parity && p.obj = oid && p.ver = tag then { p with ver := n } else p
    let rt (t : Nat × Nat × Nat × Nat × Nat) : Nat × Nat × Nat × Nat × Nat :=
      if t.2.1 = oid && t.2.2.1 = tag then (t.1, oid, n, t.2.2.2) else t
    let rb (b : Nat × BlockSet) : Nat × BlockSet := (b.1, { b.2 with pages := b.2.pages.map rt })
    ({ putObj s oid o with flash := { s.flash with
        map := s.flash.map.map rn
        journal := s.flash.journal.map rn
        mapFlash := s.flash.mapFlash.map rn
        journalFlash := s.flash.journalFlash.map rn
        lost := s.flash.lost.map (fun x => if x.1 = oid && x.2.1 = tag then (oid, n, x.2.2) else x)
        dies := s.flash.dies.map (fun e => (e.1, { e.2 with programs := e.2.programs.map rp, sets := e.2.sets.map rb })) } }, n)

/-- A build is given up: its frames go (R182). -/
def dropBuild (s : State) (oid tag : Nat) : State :=
  match objOf s oid with
  | none => s
  | some o =>
    let gone := o.frames.filter (fun fr => fr.ver == tag)
    let s := putObj s oid { o with frames := o.frames.filter (fun fr => fr.ver != tag) }
    { s with flash := gone.foldl (fun fl fr => unmap fl oid fr.ver fr.gran) s.flash }

/-! ### Data objects -/

/-- Codewords of a granule that a write of part of it leaves, from the first byte written in it on (R188). -/
def keptWords (at' n : Nat) : List Nat := (List.range 128).filter (fun c => !(decide (at' ≤ 512 * c) && decide (512 * (c + 1) ≤ at' + n)))

/-- A write of part of a granule on the peat tier first reads the rest of it (R188); its energy is the function's (R466). -/
def readRest (s : State) (oid : Nat) (fr : Frame) (at' n : Nat) : State :=
  match locOf s.flash oid fr.ver fr.gran with
  | none => s
  | some l =>
    let need := keptWords at' n
    charge { s with flash := senseSet s.flash l.die l.set 1 (planesOf need) } (oidFn oid)
      (readEnergy (planesOf need).length need.length) false

/-- `n` bytes of a granule of a data object are written from an offset in it, where it lies: Near, on the peat tier by a new
program of the granule whose rest is read first, or Near where the peat tier accepts none (R162, R188, R202); none where neither
tier takes it. -/
def rewrite (s : State) (oid g at' n : Nat) (cid : Option Nat) : Option State :=
  match (objOf s oid).bind (fun o => (verOf o o.current).bind (fun v => frameOf o v g)) with
  | none => some s
  | some fr =>
    let s := { dropMove s oid fr.ver g with flash := stopRelocation s.flash oid fr.ver g }
    if fr.tier == .near then some s
    else if 4096 ≤ s.flash.headroom && flashRoom s.flash then
      let s := if n < granule && fr.tier == .peat && !fr.lost then readRest s oid fr at' n else s
      some { updFrame s oid fr.ver g (fun x => { x with tier := .peat, lost := false }) with
        flash := flashStart s.flash oid fr.ver g cid }
    else if nearRoom s oid g then
      let s := dropCached s (channelOf s oid g)
      some { updFrame s oid fr.ver g (fun x => { x with tier := .near, lost := false }) with
        flash := unmap s.flash oid fr.ver g }
    else none

/-- Whether a write of bytes covers a 64-byte block of a granule of an object whole, to the object's end (R516). -/
def coversBlock (o : Obj) (off n g b : Nat) : Bool :=
  let a := granule * g + 64 * b
  decide (off ≤ a) && decide (min (a + 64) (verSize o o.current) ≤ off + n)

/-- Bytes put into the one version of a data object; a block covered whole is correctable again (R516). -/
def putBytes (s : State) (oid off : Nat) (bs : List Byte) : State :=
  touchRange (updObj s oid (fun o => { o with
    versions := o.versions.map (fun v => { v with bytes := v.bytes.write off bs })
    frames := o.frames.map (fun fr => { fr with ue := fr.ue.filter (fun b => !coversBlock o off bs.length fr.gran b) }) })) oid 0 off bs.length

/-- The next serial number of a function's objects, none after 0xFF_FFFF (R127). -/
def nextOid (s : State) (f : Nat) : Option Nat :=
  let n := (fnOf s f).objSerial + 1
  if n < 2 ^ 24 then some (f * 2 ^ 24 + n) else none

/-- Live objects of the node (R158). -/
def liveObjects (s : State) : Nat := s.space.objs.countP (fun e => !e.2.destroyed)

/-- An object is created with its first image, its granules placed and its address assigned (R127, R154, R158);
none where a serial, an object place or a tier is lacking. A program image lies Near (R178). -/
def createObj (s : State) (f : Nat) (kind : ObjKind) (hint : BitVec 8) (bytes : Mem) (size : Nat) (full : FullTest)
    (cid : Option Nat) : Option (State × Nat) :=
  match nextOid s f with
  | none => none
  | some oid =>
    if 4194304 ≤ liveObjects s then none
    else
      let n := granules size
      let num := if kind.versioned then 1 else 0
      let o : Obj := {
        fn := f, kind := kind, hint := hint
        base := if kind.addressed then granule * lowestRange s f (2 ^ 33) n else 0
        span := if kind.addressed then n else 0
        versions := [{ num := num, size := size, bytes := bytes, origin := num }]
        current := num, tip := num, next := num + 1 }
      let s := putObj (updFn s f (fun x => { x with objSerial := oidSerial oid })) oid o
      let grans := match kind with | .group _ _ => [] | _ => (List.range n).map (fun g => (g, full g))
      ((placeAll s oid num cid grans).filter (fun s => kind != .program ||
        (objOf s oid).any (fun o => o.frames.all (·.tier == .near)))).map (fun s => (s, oid))

/-- Everything of a function's objects goes, whoever pins them (R94, R178). -/
def eraseObjects (s : State) (f : Nat) : State :=
  let mine := s.space.objs.filter (fun e => e.2.fn == f)
  let of (oid : Nat) : Bool := mine.any (·.1 == oid)
  { s with
    flash := mine.foldl (fun fl e => e.2.frames.foldl (fun fl fr => unmap fl e.1 fr.ver fr.gran) fl) s.flash
    space := { s.space with
      objs := s.space.objs.filter (fun e => e.2.fn != f)
      moves := s.space.moves.filter (fun m => !of m.obj)
      recent := s.space.recent.filter (fun x => !of x.1), streamed := s.space.streamed.filter (fun x => !of x.1) } }

/-- OBJ_DESTROY of an object (R136): named by no later command, grants ended, freed when its pins have gone. -/
def destroyObj (s : State) (oid : Nat) : State :=
  freeVersions (updObj s oid (fun o => { o with destroyed := true, grants := [], former := [] })) oid

end Sys2Proof.Machine
end

