-- ==== Sys2Proof/Machine/Operands.lean ====
section
/-! DEFINITION. The operands of the commands: the opcode table with its feature bits, marks, Obj column and parameter
layouts (R124-R152), the checks of R106 and the opcodes' own range checks (step 2 of R118), fixed result sizes,
zero-field outcomes (R119), admission costs (R439), and the objects a command names (R169). -/

namespace Sys2Proof.Machine
open Sys2Proof

/-- Bits a function offers (R123). -/
def featOffer (kindling : Bool) (f : Nat) : BitVec 128 :=
  if f = 0 then (if kindling then 0x10000000#128 else 0xFFFFFFFF#128) else 0xA07FFFFF#128

/-- A row of the opcode tables: number, features of which one is needed, marks P and K, Obj column, the named byte
ranges (offset, length), the bytes of which only some bits are named (offset, mask), and the layout's end (R124-R126). -/
structure OpRow where
  op : Nat
  needs : List Nat
  pf : Bool
  kindling : Bool
  obj : Bool
  named : List (Nat × Nat)
  masks : List (Nat × Nat) := []
  last : Nat

/-- The opcode tables of R132, R133, R138, R145. -/
def opRowsA : List OpRow := [
  ⟨0x000, [], false, true, false, [], [], 32⟩,
  ⟨0x001, [], false, true, false, [], [], 32⟩,
  ⟨0x002, [], true, false, true, [(32, 1), (64, 6), (72, 24)], [(67, 1)], 128⟩,
  ⟨0x003, [], true, false, false, [(32, 1)], [], 33⟩,
  ⟨0x100, [], false, false, true, [(32, 2), (40, 8)], [], 48⟩,
  ⟨0x101, [], false, false, true, [(32, 4)], [], 36⟩,
  ⟨0x102, [], false, false, true, [(32, 5), (40, 24)], [(36, 1)], 64⟩,
  ⟨0x103, [], false, false, false, [(32, 4), (40, 16)], [], 56⟩,
  ⟨0x104, [], false, false, true, [(32, 32)], [], 64⟩,
  ⟨0x105, [20], false, false, true, [(32, 5)], [], 37⟩,
  ⟨0x106, [], false, false, false, [(32, 4)], [], 36⟩,
  ⟨0x107, [], false, false, true, [(32, 5)], [], 37⟩,
  ⟨0x108, [], false, false, true, [(32, 5)], [], 37⟩]

def opRowsB : List OpRow := [
  ⟨0x200, [0], false, false, true, [(32, 9)], [], 41⟩,
  ⟨0x201, [1], false, false, true, [(32, 6), (40, 1)], [], 41⟩,
  ⟨0x202, [0, 1], false, false, true, [(32, 6), (40, 20)], [(37, 3)], 60⟩,
  ⟨0x203, [0, 1], false, false, true, [(32, 20)], [], 52⟩,
  ⟨0x204, [0, 1], false, false, true, [(32, 20)], [], 52⟩,
  ⟨0x205, [0, 1], false, false, true, [(32, 5)], [(36, 1)], 37⟩,
  ⟨0x206, [0, 1], false, false, false, [(32, 21), (54, 19), (76, 16)], [(48, 7), (49, 0), (50, 0), (51, 0)], 96⟩,
  ⟨0x207, [0, 1], false, false, false, [(32, 21), (54, 19), (76, 16), (96, 8)], [(48, 7), (49, 0), (50, 0), (51, 0)], 104⟩,
  ⟨0x208, [2], false, false, false, [(32, 11), (44, 16), (64, 4), (72, 12)], [], 84⟩,
  ⟨0x209, [0, 1], false, false, false, [(32, 4)], [], 36⟩,
  ⟨0x300, [], false, false, false, [(32, 6), (40, 16)], [(37, 1)], 56⟩,
  ⟨0x301, [5], false, false, false, [(32, 4), (40, 16)], [], 56⟩,
  ⟨0x302, [], false, true, false, [(32, 4), (40, 12)], [], 52⟩,
  ⟨0x400, [9], false, false, true, [(32, 21), (56, 4)], [], 60⟩,
  ⟨0x401, [9], false, false, true, [(32, 6), (40, 20)], [(37, 3)], 60⟩,
  ⟨0x402, [9], false, false, false, [(32, 20), (56, 8)], [], 64⟩,
  ⟨0x403, [9], false, false, false, [(32, 28)], [], 60⟩,
  ⟨0x404, [11], false, false, true, [(32, 17)], [], 49⟩,
  ⟨0x405, [12], false, false, true, [(32, 13)], [], 45⟩]

/-- The opcode tables of R146, R147, R151, R152. -/
def opRowsC : List OpRow := [
  ⟨0x500, [14], false, false, true, [(32, 13), (48, 4)], [], 52⟩,
  ⟨0x501, [14], false, false, true, [(32, 12)], [], 44⟩,
  ⟨0x502, [14], false, false, true, [(32, 4)], [], 36⟩,
  ⟨0x503, [14], false, false, true, [(32, 4)], [], 36⟩,
  ⟨0x504, [14], false, false, true, [(32, 2), (36, 8)], [], 44⟩,
  ⟨0x505, [14], false, false, true, [(32, 2)], [], 36⟩,
  ⟨0x506, [14], false, false, false, [(32, 2)], [], 36⟩,
  ⟨0x507, [14], false, false, true, [(32, 8)], [], 40⟩,
  ⟨0x508, [14], false, false, true, [(32, 2)], [], 36⟩,
  ⟨0x600, [17], false, false, true, [(32, 4)], [], 64⟩,
  ⟨0x601, [17], false, false, true, [(32, 4)], [], 36⟩,
  ⟨0x602, [17], false, false, false, [(32, 5), (38, 42)], [], 80⟩,
  ⟨0x603, [16], false, false, false, [(32, 2), (36, 12)], [], 48⟩,
  ⟨0x604, [27], true, false, true, [(32, 64)], [], 96⟩,
  ⟨0x605, [27], true, false, true, [(32, 5), (38, 6)], [], 44⟩,
  ⟨0x606, [], true, true, false, [], [], 32⟩]

def opRowsD : List OpRow := [
  ⟨0x700, [24], true, false, true, [(32, 4)], [], 36⟩,
  ⟨0x701, [24], true, false, true, [], [], 32⟩,
  ⟨0x702, [24], true, false, true, [], [], 32⟩,
  ⟨0x703, [25], true, false, true, [(32, 2), (64, 32)], [(33, 1)], 96⟩,
  ⟨0x704, [22], false, false, false, [], [], 32⟩,
  ⟨0x705, [], true, true, false, [], [], 32⟩,
  ⟨0x706, [23], true, false, true, [], [], 32⟩,
  ⟨0x707, [28], true, true, false, [(32, 4)], [(34, 0x0F), (35, 0)], 36⟩,
  ⟨0x708, [28], true, true, true, [], [], 32⟩,
  ⟨0x800, [], true, true, true, [(32, 16)], [], 48⟩,
  ⟨0x801, [], true, true, true, [(32, 4)], [], 36⟩,
  ⟨0x802, [31], false, false, true, [(32, 3), (40, 40)], [], 80⟩,
  ⟨0x803, [26], true, false, true, [(32, 2)], [], 34⟩,
  ⟨0x804, [], true, false, false, [(32, 2)], [(33, 1)], 34⟩]

/-- The opcode table. -/
def opRows : List OpRow := opRowsA ++ opRowsB ++ opRowsC ++ opRowsD

/-- The row of an opcode. -/
def opRow (op : Nat) : Option OpRow := opRows.find? (·.op == op)

/-- Step 1 of R118: the opcode is assigned, its feature active, and its marks allow the issuer (R125). -/
def opcodeOk (kindling : Bool) (f : Nat) (feats : BitVec 128) (op : Nat) : Bool :=
  match opRow op with
  | none => false
  | some r => !(r.pf && f != 0) && (!kindling || r.kindling) &&
      (r.needs.isEmpty || r.needs.any (fun b => feats.getLsbD b))

/-- The end of a packet's variable area that the packet itself fixes (R124, R147). -/
def varEnd (c : Cmd) : Option Nat := if c.opcode = 0x600 then some (64 + 2 * c.p 32 2) else none

/-- The least LENGTH of a layout that ends before byte E (R124). -/
def minLength (last : Nat) : Nat := max 64 (roundUp (last + 16) 32)

/-- Whether a byte of the parameter area is one a layout names. -/
def namedByte (r : OpRow) (b : Nat) : Bool := r.named.any (fun e => decide (e.1 ≤ b ∧ b < e.1 + e.2))

/-- Whether a byte is one whose content is not checked here: the inline query of SEARCH (R141), the members of GROUP_CREATE. -/
def freeByte (c : Cmd) (b : Nat) : Bool :=
  (c.opcode == 0x206 && decide (96 ≤ b) && c.p 76 4 == 0) || (varEnd c).any (fun e => decide (64 ≤ b ∧ b < e))

/-- The reserved fields and lengths of R106. -/
def layoutOk (c : Cmd) : Bool :=
  match opRow c.opcode with
  | none => false
  | some r =>
    let t := c.length - 16
    c.flags < 8 && zeroIn c.packet 6 8 && zeroIn c.packet 28 32 && zeroIn c.packet (t + 2) (t + 12) &&
    minLength r.last ≤ c.length && ((varEnd c).all (fun e => decide (e ≤ t))) && c.resultAddr % 8 == 0 &&
    (List.range (t - 32)).all (fun i =>
      let b := i + 32
      c.p b 1 == 0 || freeByte c b ||
      (namedByte r b && r.masks.all (fun m => m.1 != b || c.p b 1 &&& m.2 == c.p b 1)))

/-- The hint codes a function may name (R134). -/
def hintOk (feats : BitVec 128) (h : Nat) : Bool :=
  h == 0 || (feats.getLsbD 20 && h ≤ 4 && (h != 3 || feats.getLsbD 21))

/-- The k a function may name (R141, R144, R348). -/
def kOk (feats : BitVec 128) (k : Nat) : Bool := k ≤ 65536 || (k ≤ 16777216 && feats.getLsbD 6)

/-- Dimensions an index may have, 0 left to the zero-field outcome (R119, R315). -/
def dimOk (d : Nat) : Bool := d ≤ 4096 && d % 32 == 0

/-- The settings record's checks on the record alone (R447). -/
def settingsOk (c : Cmd) : Bool :=
  c.p 64 2 != 0 && c.p 66 1 ≤ 63 && c.p 68 2 ≤ 256 &&
  (!bit (c.p 67 1) 0 || (c.p 66 1 != 0 && c.p 92 4 < 2 ^ 31 && (c.p 88 4 == 0 || c.p 88 4 ≤ c.p 92 4)))

/-- The checks of a load's source (R138, R145): SOURCE, the push bit, the Charcoal bit. -/
def sourceOk (c : Cmd) (feats : BitVec 128) : Bool :=
  c.p 36 1 ≤ 2 && (c.p 36 1 != 2 || feats.getLsbD 18) && (!bit (c.p 37 1) 1 || feats.getLsbD 19)

/-- The range checks of SEARCH and SEARCH_BATCH that the packet alone decides (R141, R315). -/
def searchOk (c : Cmd) (feats : BitVec 128) (batch : Bool) : Bool :=
  let k := c.p 40 4
  let np := c.p 44 2
  let capp := c.p 46 2
  let fl := c.p 48 4
  kOk feats k && (capp == 0 || np ≤ capp) && (!bit fl 0 || feats.getLsbD 3) &&
  (bit fl 2 || (feats.getLsbD 4 && k ≤ c.p 88 4 && c.p 88 4 ≤ 1048576)) &&
  c.p 52 1 ≤ 4 && (c.p 52 1 == 0 || feats.getLsbD 2) && c.p 72 1 ≤ 1 &&
  (if batch then c.p 76 4 != 0 && c.p 96 4 ≤ 4096 else !(c.p 76 4 == 0 && c.p 72 1 == 1))

/-- Numbers of a list without repeats. -/
def distinct : List Nat → Bool
  | [] => true
  | x :: xs => !xs.contains x && distinct xs

/-- Member numbers of GROUP_CREATE (R147). -/
def memberList (c : Cmd) : List Nat := elems 2 (c.p 32 2) (c.packet.drop 64)

/-- Composition message fields out of range or reserved bytes not zero (R397). -/
def composeOk (m : List Byte) : Bool :=
  zeroIn m 1 4 &&
  (match field m 0 1 with
   | 1 => field m 8 2 ≤ 4095 && 10 ≤ field m 12 4 && field m 12 4 ≤ 10000 && zeroIn m 16 64
   | 2 => 1 ≤ field m 10 2 && field m 10 2 ≤ 4096 && field m 8 2 + field m 10 2 ≤ 4096 && field m 12 2 < 4096 && zeroIn m 14 64
   | 3 => zeroIn m 9 12 && zeroIn m 16 64
   | 4 => zeroIn m 9 12 && zeroIn m 22 64
   | 5 => field m 9 1 ≤ 1 && (field m 9 1 == 0 || field m 8 1 == 255) && zeroIn m 10 64
   | 6 => field m 9 1 ≤ 1 && (field m 9 1 == 0 || field m 8 1 == 255) && zeroIn m 10 64
   | _ => false)

/-- The opcode's own range checks on the packet alone (step 2 of R118); zero fields with a row in R119 pass here. -/
def ownOk (c : Cmd) (feats : BitVec 128) : Bool :=
  match c.opcode with
  | 0x002 => settingsOk c
  | 0x100 => (c.p 32 1 == 1 || (c.p 32 1 == 2 && feats.getLsbD 2)) && hintOk feats (c.p 33 1) && c.p 40 8 ≤ 2 ^ 46
  | 0x102 => !bit (c.p 36 1) 0 || feats.getLsbD 19
  | 0x105 => hintOk feats (c.p 36 1)
  | 0x107 | 0x108 => c.p 36 1 != c.fn && !(c.p 36 1 == 0 && c.fn != 0)
  | 0x200 => dimOk (c.p 32 2) && c.p 34 1 ≤ 1 && c.p 35 1 == 0 && c.p 36 4 ≤ 16777216 && hintOk feats (c.p 40 1)
  | 0x201 => dimOk (c.p 32 2) && c.p 34 1 ≤ 1 && c.p 35 1 == 0 && 8 ≤ c.p 36 2 && c.p 36 2 ≤ 128 && hintOk feats (c.p 40 1)
  | 0x202 | 0x401 => sourceOk c feats
  | 0x203 | 0x204 => c.p 48 4 ≤ 65536
  | 0x206 => searchOk c feats false
  | 0x207 => searchOk c feats true
  | 0x208 => c.p 42 1 ≤ 4
  | 0x300 => c.p 36 1 ≤ 1 && kOk feats (c.p 52 4)
  | 0x301 => kOk feats (c.p 52 4)
  | 0x400 =>
    let rows := c.p 32 8
    let cols := c.p 40 4
    let first := c.p 44 4
    let n := c.p 48 4
    rows != 0 && rows < 2 ^ 40 && cols % 32 == 0 && cols ≤ 524288 && first % 32 == 0 && n % 32 == 0 && n ≤ 4096 &&
    c.p 52 1 ≤ 3 && first + n ≤ cols && 64 + rows * rowBytes (c.p 52 1) n ≤ 2 ^ 46 &&
    (c.p 56 4 != 0 || (first == 0 && n == cols))
  | 0x403 => kOk feats (c.p 52 4)
  | 0x404 => c.p 48 1 ≤ 1
  | 0x405 => 1 ≤ c.p 44 1 && c.p 44 1 ≤ 20 && c.p 40 4 ≤ 1048576
  | 0x500 => c.p 44 1 ≤ 1
  | 0x600 => c.p 32 2 ≤ 128 && (c.p 32 2 == 0 || (c.p 34 2 < c.p 32 2 && distinct (memberList c)))
  | 0x602 => c.p 36 1 ≤ 4 && (c.p 36 1 != 0 || c.p 64 8 % 4 == 0) && (c.p 36 1 != 2 || kOk feats (c.p 72 4))
  | 0x605 => c.p 36 1 ≤ 2
  | 0x700 => 400 ≤ c.p 32 4 && c.p 32 4 ≤ 2400
  | 0x703 => c.p 32 1 ≤ 3
  | 0x800 => c.p 44 4 + c.p 40 4 ≤ 33554432
  | 0x802 => c.p 32 2 != 0 && c.p 34 1 ≤ 1
  | 0x803 => c.p 33 1 ≤ 1
  | _ => true

/-- The result size that the parameters fix (R106). That of GATHER rests on its table and is tested with it. -/
def resultSize (c : Cmd) : Nat :=
  match c.opcode with
  | 0x001 | 0x003 | 0x106 | 0x705 | 0x707 => 64
  | 0x103 => c.p 48 8
  | 0x206 => 24 * c.p 40 4
  | 0x207 => c.p 96 4 * (16 + 24 * c.p 40 4)
  | 0x208 => roundUp (ceilDiv (c.p 80 4) 8) 8
  | 0x209 => 32
  | 0x300 => 24 * c.p 52 4
  | 0x301 => 16 * c.p 52 4
  | 0x302 => 8
  | 0x403 => 24 * c.p 52 4
  | 0x606 => 192
  | 0x704 => 16
  | 0x804 => 8
  | _ => 0

/-- The result room of R106 and R119. -/
def roomOk (c : Cmd) : Bool :=
  resultSize c == 0 || (resultSize c ≤ c.resultLen && c.resultAddr != 0)

/-- Steps 1 and 2 of R118. -/
def earlyOutcome (kindling : Bool) (feats : BitVec 128) (c : Cmd) : Option Byte :=
  if !opcodeOk kindling c.fn feats c.opcode then some stInvalidOpcode
  else if !(layoutOk c && ownOk c feats && roomOk c) then some stInvalidParam
  else none

/-- Steps 1 and 2 for a command that the fabric carried: its result goes to the issuer (R149). -/
def earlyCarried (kindling : Bool) (feats : BitVec 128) (c : Cmd) : Option Byte :=
  if !opcodeOk kindling c.fn feats c.opcode then some stInvalidOpcode
  else if !(layoutOk c && ownOk c feats && resultSize c ≤ c.resultLen) then some stInvalidParam
  else none

/-- A block of SEARCH_BATCH without entries (R143). -/
def emptyBlock (st : Byte) (k : Nat) : List Byte := st :: List.replicate (15 + 24 * k) 0#8

/-- Whether a parameter names a readable list index of the function (R119: nprobe). -/
def isListIndex (s : State) (f oid : Nat) : Bool :=
  match liveObj s oid with
  | some o => mayRead o f && (match o.kind with | .listIndex _ _ _ => true | _ => false)
  | none => false

/-- The zero-field outcomes (step 4 of R118, R119). -/
def zeroOutcome (s : State) (c : Cmd) : Option Result :=
  let ok : Option Result := some {}
  let bad : Option Result := some (.bare stInvalidParam)
  match c.opcode with
  | 0x100 => if c.p 40 8 = 0 then bad else none
  | 0x102 => if c.p 56 8 = 0 then ok else none
  | 0x103 => if c.p 48 8 = 0 then ok else none
  | 0x104 => if c.p 56 8 = 0 then ok else none
  | 0x200 => if c.p 32 2 = 0 || c.p 36 4 = 0 then bad else none
  | 0x201 => if c.p 32 2 = 0 then bad else none
  | 0x202 | 0x401 => if c.p 48 8 = 0 then ok else none
  | 0x206 =>
    if c.p 40 4 = 0 then ok
    else if c.p 44 2 = 0 && isListIndex s c.fn (c.p 32 4) then some { status := stShort } else none
  | 0x207 =>
    let b := c.p 96 4
    if b = 0 then ok
    else if c.p 40 4 = 0 then
      some { count := BitVec.ofNat 32 b, data := (List.replicate b (emptyBlock stOk 0)).flatten }
    else if c.p 44 2 = 0 && isListIndex s c.fn (c.p 32 4) then
      some { count := BitVec.ofNat 32 b, data := (List.replicate b (emptyBlock stShort (c.p 40 4))).flatten }
    else none
  | 0x208 => if c.p 80 4 = 0 then ok else none
  | 0x300 | 0x301 => if c.p 52 4 = 0 then ok else if c.p 48 4 = 0 then some { status := stShort } else none
  | 0x302 => if c.p 48 4 = 0 then some { status := stShort } else none
  | 0x400 => if c.p 48 4 = 0 then bad else none
  | 0x402 => if c.p 44 4 = 0 then ok else none
  | 0x403 => if c.p 52 4 = 0 || c.p 48 4 = 0 then ok else none
  | 0x404 => if c.p 40 4 = 0 then ok else none
  | 0x500 => if c.p 40 4 = 0 then bad else none
  | 0x507 => if c.p 36 4 = 0 then ok else none
  | 0x600 => if c.p 32 2 = 0 then bad else none
  | 0x800 => if c.p 40 4 = 0 then ok else none
  | _ => none

/-- Admission cost (R439). -/
def cost (c : Cmd) : Nat :=
  match c.opcode with
  | 0x207 => max 1 (c.p 96 4)
  | 0x403 => max 1 (ceilDiv (c.p 48 4) 256)
  | _ => 1

/-- Whether the command changes objects (R126); a carried packet's own column governs FABRIC_REQUEST. -/
def objChanging (c : Cmd) (carried : List Byte) : Bool :=
  if c.opcode = 0x603 then (opRow (field carried 0 2)).any (·.obj) else (opRow c.opcode).any (·.obj)

/-- The objects a command names, each with the version it asks for, 0 for the current one (R128, R169). -/
def namedObjects (c : Cmd) : List (Nat × Nat) :=
  let cur (o : Nat) : Nat × Nat := (c.p o 4, 0)
  let filters : List (Nat × Nat) := (List.range (min 4 (c.p 52 1))).map (fun i => (c.p (56 + 4 * i) 4, 0))
  match c.opcode with
  | 0x101 | 0x102 | 0x103 | 0x105 | 0x106 | 0x107 | 0x108 | 0x205 | 0x209 | 0x601 => [cur 32]
  | 0x104 | 0x203 | 0x204 => [cur 32, cur 36]
  | 0x202 | 0x401 => cur 32 :: (if c.p 36 1 = 1 then [cur 40] else [])
  | 0x206 | 0x207 => (c.p 32 4, c.p 36 4) :: filters ++ (if c.p 76 4 = 0 then [] else [cur 76])
  | 0x208 => (c.p 32 4, c.p 36 4) :: (List.range (min 4 (c.p 42 1))).map (fun i => (c.p (44 + 4 * i) 4, 0)) ++ [cur 64]
  | 0x300 | 0x301 | 0x302 => [cur 32]
  | 0x400 => if c.p 56 4 = 0 then [] else [cur 56]
  | 0x402 => (c.p 32 4, c.p 36 4) :: cur 40 :: (if c.p 48 4 = 0 then [] else [cur 48])
  | 0x403 => [cur 32, cur 36] ++ (if c.p 40 4 = 0 then [] else [cur 40]) ++ [cur 44] ++ (if c.p 56 4 = 0 then [] else [cur 56])
  | 0x404 | 0x405 => [cur 32, cur 36]
  | 0x500 => if c.p 44 1 = 1 then [cur 48] else []
  | 0x501 => cur 32 :: (if c.p 40 4 = 0 then [] else [cur 40])
  | 0x507 => [cur 32]
  | 0x602 => [cur 32, cur 40] ++ (if c.p 44 4 = 0 then [] else [cur 44])
  | 0x603 => [cur 36]
  | _ => []

/-- Whether a command's work has ended. -/
def Adm.isDone (a : Adm) : Bool :=
  match a.phase with
  | .done _ => true
  | _ => false

/-- The ranges of objects that a command at work reads or writes, but for the rows of tables: the bytes of OBJ_WRITE, OBJ_READ
and OBJ_COPY, for other commands the whole objects that they name; a command that reads no bytes, or whose sequence was copied at admission, has none. -/
def workRanges (s : State) (a : Adm) : List (Nat × Nat × Nat) :=
  match a.cmd.opcode with
  | 0x102 => [(a.p 32 4, a.p 40 8, a.p 56 8)]
  | 0x103 => [(a.p 32 4, a.p 40 8, a.p 48 8)]
  | 0x104 => [(a.p 32 4, a.p 40 8, a.p 56 8), (a.p 36 4, a.p 48 8, a.p 56 8)]
  | 0x101 | 0x105 | 0x106 | 0x107 | 0x108 | 0x209 | 0x507 => []
  | op =>
    let rows := if op = 0x402 then [a.p 32 4] else if op = 0x403 then [a.p 36 4] else []
    ((namedObjects a.cmd).filter (fun e => !rows.contains e.1)).map (fun e =>
      (e.1, 0, (objOf s e.1).elim 0 (fun o => verSize o (pinnedVer a e.1))))

/-- Channels of the n copies of a table's row: that of the granule of byte `off`, then the same position in the next stacks of the
function's set, modulo 20 (R364). -/
def copyChannels (s : State) (oid off n : Nat) : List Nat :=
  let c := channelOf s oid (off / granule)
  let stks := (channelSet s (oidFn oid)).map (· / 32)
  (((List.range 20).map (fun j => 32 * ((c / 32 + j) % 20) + c % 32)).filter (fun x => stks.contains (x / 32))).take n

/-- Whether every copy of a row of a pinned table version lies on a channel that holds ordinary requests (R210, R365). -/
def rowHeld (s : State) (a : Adm) (oid r : Nat) : Bool :=
  match objOf s oid with
  | some o => match o.kind with
    | .table fmt _ _ _ cols _ =>
      let n := rowBytes fmt cols
      let off := 64 + n * r
      rangeHeld s oid (pinnedVer a oid) off n &&
      (o.hotRows.find? (fun h => h.1 == r)).all (fun h => (copyChannels s oid off h.2).all (chanHolds s))
    | _ => false
  | none => false

/-- The table rows that GATHER and RANK read: the table, and the row numbers (R363). -/
def tableRows (s : State) (a : Adm) : Nat × List Nat :=
  let items (oid w n : Nat) : List Nat :=
    (objOf s oid).elim [] (fun o => (List.range n).map (fun i => (verBytes o (pinnedVer a oid)).nat (w * i) 8))
  if a.cmd.opcode = 0x402 then (a.p 32 4, items (a.p 40 4) 8 (a.p 44 4))
  else if a.cmd.opcode = 0x403 then (a.p 36 4, items (a.p 44 4) 24 (a.p 48 4))
  else (0, [])

/-- Whether a command's work waits, as ordinary requests of its own are held on a channel (R210, R211). -/
def cmdHeld (s : State) (a : Adm) : Bool :=
  anyHolds s &&
  ((workRanges s a).any (fun r => rangeHeld s r.1 (pinnedVer a r.1) r.2.1 r.2.2) ||
   (let rows := tableRows s a
    rows.2.any (rowHeld s a rows.1)))

/-- The admitted command of this number whose work has yet to run and whose packet carries this opcode, unless a channel holds
the requests of its work. -/
def running (s : State) (cid op : Nat) : Option Adm :=
  (findAdm s cid).filter (fun a => a.phase == .running && a.cmd.opcode == op && !cmdHeld s a)

/-- The row of an opcode: its work on the admitted command, or nothing where no such command is at work. -/
def withCmd (s : State) (cid op : Nat) (k : Adm → State) : Out :=
  match running s cid op with
  | some a => .next (meterCmd s (k a) cid a.cmd.fn)
  | none => .next s

/-- The objects of the function of which the command would make a version (R166, R168). -/
def makesVersionOf (s : State) (c : Cmd) : List Nat :=
  let bitmap (oid : Nat) : List Nat :=
    match liveObj s oid with
    | some o => if o.fn = c.fn && o.kind == .bitmap then [oid] else []
    | none => []
  match c.opcode with
  | 0x102 => bitmap (c.p 32 4)
  | 0x104 => bitmap (c.p 36 4)
  | 0x202 | 0x203 | 0x204 | 0x205 | 0x401 | 0x404 => if oidFn (c.p 32 4) = c.fn then [c.p 32 4] else []
  | _ => []

/-- When a window with these members closes (R248). -/
def windowClose (s : State) (w : Window) (members : List Nat) : Nat :=
  let dues := members.filterMap (fun c => (findAdm s c).bind (·.cmd.deadline))
  dues.foldl (fun t d => min t (max w.opened (d - 100 * w.reserveUs))) (w.opened + 100 * w.windowUs)

/-- Members leave every pick window, whose close time is computed again over those that remain (R252), and every pick on a loom,
which goes on for its other members with its columns unchanged (R250); scans queued for them are given up. -/
def leaveWindows (s : State) (gone : List Nat) : State :=
  let here (m : Nat × Bool) : Nat × Bool := (m.1, m.2 && !gone.contains m.1)
  { s with
    looms := { s.looms with
      windows := s.looms.windows.map (fun w =>
        if w.members.any gone.contains then
          let ms := w.members.filter (fun c => !gone.contains c)
          { w with members := ms, closeAt := windowClose s w ms }
        else w)
      looms := s.looms.looms.map (fun e => (e.1, { e.2 with dq := e.2.dq.map (fun d => { d with pick := d.pick.map (·.map here) }) })) }
    stk := { s.stk with chans := s.stk.chans.map (fun e => (e.1, { e.2 with
      queue := e.2.queue.filter (fun g => !(g.scan && gone.any (fun c => g.owner == .inl c))) })) } }

/-- The pins a command takes at admission: for every object it names and may read, the version it asks for or the
current one, where that version is live (R128, R169). -/
def pinsFor (s : State) (c : Cmd) : List (Nat × Nat) :=
  ((namedObjects c).filterMap (fun e =>
    match liveObj s e.1 with
    | some o =>
      if mayRead o c.fn then
        (if e.2 = 0 then some (e.1, o.current)
         else if o.kind.versioned && (verOf o e.2).isSome then some (e.1, e.2) else none)
      else none
    | none => none)).eraseDups

end Sys2Proof.Machine
end

