-- ==== Sys2Proof/Machine/Reset.lean ====
section
/-! DEFINITION. Device resets and the loss of the main rails (R63-R66, R477-R479, R484, R487, R491), the strap (R57,
R479), hot reset and link down (R93), and the release of what a function held (R94). -/

namespace Sys2Proof.Machine
open Sys2Proof

/-! ### The strap -/

/-- The decoded strap (R479): code, short, open, reserved. -/
def strapDecode (raw : Nat) : Nat × Bool × Bool × Bool :=
  if raw ≤ 42 then (0, true, false, false)
  else if 981 ≤ raw then (0, false, true, false)
  else
    let tops := [113, 171, 227, 284, 340, 397, 453, 511, 569, 626, 682, 739, 796, 852, 910]
    let code := (tops.filter (fun t => decide (t < raw))).length
    (code, false, false, decide (12 ≤ code))

/-- The strap held until the next device reset (R57). -/
def measureStrap (b : Boot) (conv : List Nat) : Boot :=
  let raw := median conv
  let (code, sh, op, rs) := strapDecode raw
  { b with
    strapRaw := BitVec.ofNat 10 raw, strapCode := BitVec.ofNat 4 code
    strapShort := sh, strapOpen := op, strapRsvd := rs, strapOwed := false }

/-- A strap that is still to be measured for its reset is measured (R57). -/
def measureOwed (b : Boot) (conv : List Nat) : Boot := if b.strapOwed then measureStrap b conv else b

/-- Codes 8 and short force Kindling; 5 restores no object; 6 and 7 fix the slot; 9 clears the count; 3 and 4 disable
the fabric; 10 and 11 limit its ports to two lanes; 1, 4, 11 and 2 limit the PCIe rate (R479). -/
def strapKindling (b : Boot) : Bool := b.strapShort || b.strapCode == 8
def strapNoFabric (b : Boot) : Bool := b.strapCode == 3 || b.strapCode == 4
def strapTwoLanes (b : Boot) : Bool := b.strapCode == 10 || b.strapCode == 11
def strapRate (b : Boot) : Nat :=
  if b.strapCode == 2 then 5 else if b.strapCode == 1 || b.strapCode == 4 || b.strapCode == 11 then 6 else 7

/-! ### What survives -/

/-- Whether the current version of an object lies wholly on the peat tier as journaled (R484). -/
def persists (s : State) (oid : Nat) (o : Obj) : Bool :=
  !o.destroyed && (match o.kind with | .program => false | .group _ _ => false | _ => true) &&
  (match verOf o o.current with
   | none => false
   | some v => (List.range (granules v.size)).all (fun g =>
      match frameOf o v g with
      | none => false
      | some fr => fr.tier != .near && (locOf s.flash oid fr.ver fr.gran).isSome))

/-- An object as it is restored: its current version alone, every granule in the Peat state (R484). -/
def restored (o : Obj) : Obj :=
  let vs := o.versions.filter (fun v => v.num == o.current)
  let o' := { o with versions := vs }
  { o' with
    tip := o.current, building := [], mutations := [], former := [], hotRows := []
    frames := (o.frames.filter (liveFrame o')).map (fun fr => { fr with tier := .peat }) }

/-- The object directory that the next start reads (R484): of the objects that persist, once stage 8 has run. -/
def directoryNow (s : State) : AMap Obj :=
  if s.boot.serviceReady || s.boot.stages.contains 8 then
    (s.space.objs.filter (fun e => persists s e.1 e.2)).map (fun e => (e.1, restored e.2))
  else s.boot.directory

/-- The draught controller's state after a device reset: settings, partitions and tables at their reset values, ageing
figures kept (R465, R474, R491). -/
def draughtReset (d : Draught) : Draught :=
  { ({} : Draught) with
    hours := d.hours, ageMin := d.ageMin, ageFloorMv := d.ageFloorMv, ageWarn := d.ageWarn
    agePlanned := d.agePlanned, planHours := d.planHours }

/-- Service state after a device reset other than power-on: the snapshot store and its registers kept (R523), the
counters of the last 24 hours kept by the always-on domain, the rest at reset values. -/
def serviceReset (v : Service) : Service :=
  { ({} : Service) with
    ce24 := v.ce24, ue24 := v.ue24, soft24 := v.soft24, retrains24 := v.retrains24, replays24 := v.replays24
    snapSeq := v.snapSeq, missed := v.missed, snapSource := v.snapSource, valid := v.valid, frozen := v.frozen
    snapTime := v.snapTime, latched := v.latched, store := v.store }

/-- Boot state that the boot store and flash hold (R487, R491), with the strap. -/
def bootKept (s : State) : Boot :=
  { ({} : Boot) with
    cause := s.boot.cause
    failCount := s.boot.failCount, failStage := s.boot.failStage, trialFailed := s.boot.trialFailed
    trial := s.boot.trial, lastGood := s.boot.lastGood
    strapRaw := s.boot.strapRaw, strapCode := s.boot.strapCode, strapShort := s.boot.strapShort
    strapOpen := s.boot.strapOpen, strapRsvd := s.boot.strapRsvd
    slotA := s.boot.slotA, slotB := s.boot.slotB, slotALen := s.boot.slotALen, slotBLen := s.boot.slotBLen
    dormantMark := s.boot.dormantMark, dormantImage := s.boot.dormantImage, directory := directoryNow s }

/-- 90 C and 115 C in units of 1/16 C (R70). -/
def coolX16 : Int := 1440
def tripX16 : Int := 1840

/-- The board's times after the node time counter has been cleared at count `t`. -/
def rebase (b : Board) (t : Nat) : Board :=
  { b with
    openings := b.openings.map (· - t), openedAt := b.openedAt - t, inletAt := b.inletAt - t, goodAt := b.goodAt - t }

/-- Everything a device reset or the loss of the main rails ends (R478, R491): commands, instances, knots, groups, near
tier, host-side state, keys, settings. What the boot store, the flash media and the always-on pins hold stays. -/
def lose (s : State) : State :=
  { s with
    link := { refclk := s.link.refclk, downs24 := s.link.downs24 }
    boot := bootKept s
    glaesh := { minSvn := s.glaesh.minSvn }
    draught := draughtReset s.draught
    service := serviceReset s.service
    fns := [], sched := {}, space := {}
    flash := mediaOnly s.flash
    stk := {}, looms := {}, reeds := {}, prog := {}, fabric := {} }

/-- A device reset begins (R477, R478): node time 0, its cause recorded, the strap to be measured before its release
(R57), the pins as in a reset (R51). Times of the board stand on the cleared counter. -/
def deviceReset (s : State) (cause : Nat) : State :=
  let t := now s
  let s := lose s
  { s with
    time := 0
    board := { rebase s.board t with resetting := true, alertN := true }
    boot := { s.boot with cause := BitVec.ofNat 4 cause, strapOwed := true } }

/-- The main rails go off: PWR_GOOD low, and everything they fed is lost (R53, R64); a restart is the effect of a pin
reset, cause 3 unless another is set (R66, R477). -/
def railsOff (s : State) : State :=
  let s := lose s
  { s with board := { s.board with
    rails := 0, pwrGood := false, railsWanted := false, holdUp := false
    restart := if s.board.rails = 0 then s.board.restart else 3 } }

/-- The main rails begin their sequence (R63), PWR_GOOD low: the switch charges the bank and the first rail is enabled. -/
def railsOn (s : State) : State :=
  { s with board := { s.board with rails := 1, pwrGood := false, railsWanted := true, coolWait := false, holdUp := false } }

/-- Whether the main rails may start now (R60, R63, R64, R66, R70, R472): `VAON` up, `VIN` there with the switch closed,
no latch, POWER_CYCLE's second or hold-up sequence holding them, not hot since a power-on reset, neither Dormant nor safe to
remove. -/
def mayStartRails (s : State) : Bool :=
  let b := s.board
  b.powered && b.rails == 0 && b.band != .absent && b.switchClosed && !b.tripLatch && !b.railLatch && !b.cyclePending &&
    !b.holdUp && !(b.coolWait && decide (coolX16 ≤ b.hotX16)) &&
    s.service.mode != .dormant && s.service.mode != .safe

/-- The main rails start (R63): a restart begins the device reset it owes (R66, R477). -/
def startRails (s : State) : State :=
  let s := if s.board.restart = 0 then s else deviceReset s s.board.restart
  railsOn { s with
    board := { s.board with restart := 0, restored := false }, service := { s.service with mode := .service, panel := 0 } }

/-- The main rails start where nothing holds them. -/
def startIfReady (s : State) : State := if mayStartRails s then startRails s else s

/-- The same as a restart whose row measures the strap (R57). -/
def restartIfReady (s : State) (conv : List Nat) : State :=
  if mayStartRails s then (let t := startRails s; { t with boot := measureOwed t.boot conv }) else s

/-- The always-on domain with neither input (R53, R61): PWR_GOOD is pulled low, every other output is released, and the
latches, STATUS and the pins' configuration are lost, as is everything its blocks held. -/
def powerLost (s : State) : State :=
  let s := lose s
  { s with
    service := {}
    board := { ({} : Board) with
      powered := false, stby := false, perstLow := s.board.perstLow, hotX16 := s.board.hotX16
      plateX16 := s.board.plateX16 } }

/-- The channels during hold-up (R65): all in self-refresh but those that hold what the media work needs. -/
def shedChannels : AMap Chan :=
  (List.range 640).map (fun c => (c, if Config.holdsMedia c then {} else { state := .selfRefresh }))

/-- Hold-up (R65): PWR_GOOD low, programs and parity completed and the journal written to flash, all else lost, the
channels in self-refresh; the rails that feed flash, stacks and interface logic stay up until it ends. -/
def beginHoldUp (s : State) : State :=
  let s := setStatus { s with flash := holdUp s.flash } sbVinLoss
  let s := lose s
  { s with
    stk := { chans := shedChannels }
    board := { s.board with pwrGood := false, railsWanted := false, rails := 7, holdUp := true, restart := 3 } }

/-- Input loss, or an opening of the switch (R60, R65): hold-up once PWR_GOOD has been released; during the power-up
sequence the rails go off at once, which counts as the end of a hold-up; without `VSTBY` the always-on domain then has
no input left. -/
def inputLost (s : State) : State :=
  if s.board.pwrGood then beginHoldUp s
  else if s.board.holdUp then s
  else
    let s := if s.board.rails = 0 then s else railsOff (setStatus s sbVinLoss)
    if s.board.stby then s else powerLost s

/-! ### Host-side resets -/

/-- Host-side state of a function at its reset values (step 2 of R93), with the event recorded. Objects, fabric work,
settings, rights, keys and counters stay (step 5 of R93). Events held for the ring and their lost count go with it
(DESIGN CHOICE, log entry 105). -/
def hostSideReset (x : FnState) (ev : LastReset) : FnState :=
  { x with
    cfg := {}, d3hot := false, msixEnable := false, msixMask := false, msix := [], pba := 0, apBase := [], apEn := 0
    maxDelay := 0, maxCount := 0, unannounced := 0, announceBy := 0
    ringBase := 0, ringLog2 := 0, ringEn := false, ringHead := 0, ringTail := 0, cwDiscard := 0, inflight := 0
    featAccept := 0, featActive := 0, locked := false, rejected := false
    handshake := false, doeError := false, doe := none, session := false, lastSigned := none
    lastReset := ev, window := [], hostQ := [], waiting := [], events := [], eventsLost := 0 }

/-- Whether an admitted command is a host command of a function in the set. -/
def hostCmdOf (fs : Nat → Bool) (a : Adm) : Bool :=
  fs a.cmd.fn && a.cmd.origin.isHost

/-- Host commands of the functions after step 4 of R93: the admitted ones that change no object are abandoned and
their pins released; the others run to completion without a record. -/
def abandonHost (s : State) (fs : Nat → Bool) : State :=
  let keep (a : Adm) : Bool := !(hostCmdOf fs a) || objChanging a.cmd a.carried
  let gone := (s.sched.admitted.filter (fun a => !keep a)).map (·.cmd.cid)
  let s := leaveWindows s gone
  freeAll { s with
    sched := { s.sched with admitted := (s.sched.admitted.filter keep).map (fun a =>
      if hostCmdOf fs a then { a with cmd := { a.cmd with origin := .silent } } else a) }
    fabric := { s.fabric with colls := s.fabric.colls.filter (fun c => c.cid.all (fun n => !gone.contains n)) } }

/-- Host-side reset of a set of functions by an event (R82, R93). -/
def hostReset (s : State) (fs : Nat → Bool) (ev : LastReset) : State :=
  abandonHost (mapFns s (fun f x => if fs f then hostSideReset x ev else x)) fs

/-- Function 0's configuration that belongs to the whole link at its reset values: SR-IOV, ARI and ASPM control. -/
def clearLinkCfg (l : Link) : Link :=
  { l with vfEnable := false, numVfs := 0, ari := false, aspmL1 := false, vfBar0 := 0, vfBar2 := 0 }

/-- Hot reset and link down (R93): every function, with VF Enable and NumVFs cleared. Aperture reads that wait stay and are
answered later (DESIGN CHOICE, log entry 106). -/
def hotResetAll (s : State) (ev : LastReset) : State :=
  let s := hostReset s (fun _ => true) ev
  let s := mapFns s (fun _ x => { x with present := false })
  { s with link := clearLinkCfg s.link }

end Sys2Proof.Machine
end

