-- ==== Sys2Proof/Machine/CfgSpace.lean ====
section
/-! DEFINITION. The configuration space (R77, R78, R80, R81, R84, R86, R89-R91, R97, R98, R540), virtual functions and power
states. -/

namespace Sys2Proof.Machine
open Sys2Proof

/-- Virtual functions disappear with the effect of a hot reset on each (R82, R95). -/
def vfOff (s : State) : State :=
  if s.link.vfEnable then
    let s := hostReset s (fun f => f != 0 && (fnOf s f).present) lrVfCleared
    let s := mapFns s (fun f x => if f = 0 then x else { x with present := false })
    { s with link := { s.link with vfEnable := false } }
  else s

/-- Virtual functions 1 to NumVFs appear, ready once the node is in service (R81, R483); not in Kindling (R489). -/
def vfOn (s : State) : State :=
  if s.link.vfEnable || s.boot.kindling || (!s.link.ari && 7 < s.link.numVfs) then s
  else
    let s := mapFns s (fun f x => if 1 ≤ f && f ≤ s.link.numVfs then { x with present := true, ready := s.boot.serviceReady } else x)
    { s with link := { s.link with vfEnable := true } }

/-- D0 or D3hot; other states are ignored (R97). Pending interrupts leave at the return to D0. -/
def setPower (s : State) (f v : Nat) : State :=
  if v = 3 then updFn s f (fun x => { x with d3hot := true })
  else if v = 0 then flushPba (updFn s f (fun x => { x with d3hot := false })) f
  else s

/-! ### Configuration fields -/

/-- Whether a capability is present on a function (R78). -/
def capPresent (f : Nat) (c : PcieCap) : Bool :=
  match c with
  | .pciExpress => true
  | .powerManagement => true
  | .msix => true
  | .aer => true
  | .ari => true
  | .doe => true
  | .sriov => f == 0
  | .acs => f == 0
  | .dsn => f == 0
  | .dataLinkFeature => f == 0
  | .physical16 => f == 0
  | .physical32 => f == 0
  | .physical64 => f == 0
  | .physical128 => f == 0
  | .laneMargining => f == 0
  | _ => false

/-- A 64-bit base address register: its address bits above its size, and its type bits. -/
def barValue (addr : BitVec 64) (prefetch : Bool) : Nat := addr.toNat + (if prefetch then 0xC else 4)

/-- What a write leaves of a base address: the bits above the size. -/
def barKeep (v size : Nat) : BitVec 64 := BitVec.ofNat 64 (v / size * size)

/-- Size of BAR 2 (R86), and of BAR 0 and VF BAR 0 (R80, R84). -/
def bar2Size : Nat := 0x1000000
def vfBar2Size : Nat := 0x10000
def bar0Size : Nat := 0x200000000

/-- A configuration field as it reads (R77, R78, R80, R84, R86, R90, R91, R98, R540); fields of function 0's capabilities read
0 elsewhere, and the base addresses of virtual functions are those of the SR-IOV capability. -/
def cfgRead (s : State) (f : Nat) (fld : CfgField) : Nat :=
  let x := fnOf s f
  let pf (n : Nat) : Nat := if f = 0 then n else 0
  match fld with
  | .capability c => b2n (capPresent f c)
  | .vendorId => 0x1E7A
  | .deviceId => if f = 0 then 0x5200 else 0x5201
  | .revisionId => 1
  | .classCode => 0x120000
  | .subsysVendorId => 0x1E7A
  | .subsysId => 0x20
  | .interruptPin => 0
  | .bar n => if n = 0 then pf (barValue x.cfg.bar0 true) else if n = 2 then pf (barValue x.cfg.bar2 false) else 0
  | .dsn => pf Config.serial.toNat
  | .flrCapable => 1
  | .extendedTags => 1
  | .tags14 => 1
  | .timeoutRanges => 0xF
  | .timeoutDisableSupported => 1
  | .payloadSupported => 2
  | .payloadSize => x.cfg.payload.toNat
  | .readRequestSize => x.cfg.readRequest.toNat
  | .relaxedOrdering => b2n x.cfg.relaxed
  | .tags14Enable => b2n x.cfg.tags14
  | .timeoutValue => x.cfg.timeoutValue.toNat
  | .timeoutDisable => b2n x.cfg.timeoutDisable
  | .errorReporting => x.cfg.reporting.toNat
  | .aspmSupport => 2
  | .l1ExitLatency => 3
  | .aspmL1 => b2n s.link.aspmL1
  | .powerState => if x.d3hot then 3 else 0
  | .noSoftReset => 1
  | .d1Support => 0
  | .d2Support => 0
  | .msixTableSize => 7
  | .msixTableBar => 2
  | .msixTableOffset => 0x2000
  | .msixPbaBar => 2
  | .msixPbaOffset => 0x3000
  | .msixEnable => b2n x.msixEnable
  | .msixFunctionMask => b2n x.msixMask
  | .aerUncorrectableStatus => x.cfg.uncStatus.toNat
  | .aerUncorrectableMask => x.cfg.uncMask.toNat
  | .aerUncorrectableSeverity => x.cfg.uncSeverity.toNat
  | .aerCorrectableStatus => x.cfg.corStatus.toNat
  | .aerCorrectableMask => x.cfg.corMask.toNat
  | .nextFunction => 0
  | .acsCapability => pf 0x7F
  | .acsControl => pf x.cfg.acs.toNat
  | .scaledFlowControl => pf 1
  | .doeStatus => 4 * b2n x.doeError + 0x80000000 * b2n x.doe.isSome
  | .doeData => leNat (x.doe.getD [])
  | .ariCapable => pf (b2n s.link.ari)
  | .numVfs => pf s.link.numVfs
  | .totalVfs => pf 255
  | .initialVfs => pf 255
  | .firstVfOffset => pf 1
  | .vfStride => pf 1
  | .vfDeviceId => pf 0x5201
  | .supportedPageSizes => pf 0x11
  | .vfEnable => pf (b2n s.link.vfEnable)
  | .vfBar n => if n = 0 then pf (barValue s.link.vfBar0 true) else if n = 2 then pf (barValue s.link.vfBar2 false) else 0
  | .vfMigration => 0
  | .functionDependencyLink => 0

/-- A function's configuration registers changed. -/
def updCfg (s : State) (f : Nat) (g : CfgRegs → CfgRegs) : State := updFn s f (fun x => { x with cfg := g x.cfg })

/-- A write of a configuration field (R78, R80-R82, R84, R86, R89, R91, R97, R98); read-only fields ignore it. A payload size
above 512 bytes and a read request above 4,096 bytes are not taken (R77). -/
def cfgWrite (s : State) (f v : Nat) (fld : CfgField) : State :=
  let on := v % 2 == 1
  match fld with
  | .bar n =>
    if f ≠ 0 then s
    else if n = 0 then updCfg s f (fun c => { c with bar0 := barKeep v bar0Size })
    else if n = 2 then updCfg s f (fun c => { c with bar2 := barKeep v bar2Size })
    else s
  | .payloadSize => if v ≤ 2 then updCfg s f (fun c => { c with payload := BitVec.ofNat 3 v }) else s
  | .readRequestSize => if v ≤ 5 then updCfg s f (fun c => { c with readRequest := BitVec.ofNat 3 v }) else s
  | .relaxedOrdering => updCfg s f (fun c => { c with relaxed := on })
  | .tags14Enable => updCfg s f (fun c => { c with tags14 := on })
  | .timeoutValue => updCfg s f (fun c => { c with timeoutValue := BitVec.ofNat 4 v })
  | .timeoutDisable => updCfg s f (fun c => { c with timeoutDisable := on })
  | .errorReporting => updCfg s f (fun c => { c with reporting := BitVec.ofNat 4 v })
  | .aspmL1 => { s with link := { s.link with aspmL1 := on } }
  | .powerState => setPower s f (v % 4)
  | .msixEnable => flushPba (updFn s f (fun x => { x with msixEnable := on })) f
  | .msixFunctionMask => flushPba (updFn s f (fun x => { x with msixMask := on })) f
  | .aerUncorrectableStatus => updCfg s f (fun c => { c with uncStatus := c.uncStatus &&& ~~~BitVec.ofNat 32 v })
  | .aerUncorrectableMask => updCfg s f (fun c => { c with uncMask := BitVec.ofNat 32 v })
  | .aerUncorrectableSeverity => updCfg s f (fun c => { c with uncSeverity := BitVec.ofNat 32 v })
  | .aerCorrectableStatus => updCfg s f (fun c => { c with corStatus := c.corStatus &&& ~~~BitVec.ofNat 32 v })
  | .aerCorrectableMask => updCfg s f (fun c => { c with corMask := BitVec.ofNat 32 v })
  | .acsControl => if f = 0 then updCfg s f (fun c => { c with acs := BitVec.ofNat 7 v }) else s
  | .ariCapable => if f = 0 then { s with link := { s.link with ari := on } } else s
  | .numVfs => if f = 0 && v ≤ 255 && !s.link.vfEnable then { s with link := { s.link with numVfs := v } } else s
  | .vfEnable => if f = 0 then (if on then vfOn s else vfOff s) else s
  | .vfBar n =>
    if f ≠ 0 then s
    else if n = 0 then { s with link := { s.link with vfBar0 := barKeep v bar0Size } }
    else if n = 2 then { s with link := { s.link with vfBar2 := barKeep v vfBar2Size } }
    else s
  | _ => s

end Sys2Proof.Machine
end

