-- ==== Sys2Proof/Machine/Eligible.lean ====
section
/-! DEFINITION. Eligibility and candidates of the admission scheduler (R436, R437, R441, R443). -/

namespace Sys2Proof.Machine
open Sys2Proof

/-- The sum of the reserves of every function but one. -/
def reservesBut (s : State) (f : Nat) : Nat :=
  (s.fns.filter (fun e => e.1 != f)).foldl (fun n e => n + e.2.poolReserve) 0

/-- A shaper slot (R443). -/
def slotShaper (s : State) (k : Nat) : Shaper := AMap.getD s.sched.shapers k {}

/-- Entries of the pool held beyond a function's reserve (R446, R551). -/
def beyondReserves (s : State) : Nat :=
  (List.range 256).foldl (fun n f =>
    n + (s.sched.admitted.countP (fun a => a.cmd.fn == f) - (fnOf s f).poolReserve)) 0

/-- Commands a function holds in the pool (R107). -/
def heldBy (s : State) (f : Nat) : Nat := s.sched.admitted.countP (fun a => a.cmd.fn == f)

/-- Whether the pool has room for a function (R107, R441): 4,096 commands in all, whatever the reserves have come to be. -/
def poolRoom (s : State) (f : Nat) : Bool :=
  let r := (fnOf s f).poolReserve
  let shared := 4096 - (reservesBut s f + r)
  decide (s.sched.admitted.length < 4096) && (decide (heldBy s f < r) || decide (beyondReserves s < shared))

/-- Whether a function's shaper slot is in debt (R443). -/
def inDebt (s : State) (f : Nat) : Bool :=
  let k := (fnOf s f).shaper.toNat
  k != 0 && (slotShaper s k).rate != 0 && decide ((slotShaper s k).tokens ≤ 0)

/-- Versions of an object that admitted commands are still to make. -/
def versionsDue (s : State) (oid : Nat) : Nat :=
  s.sched.admitted.countP (fun a => a.phase == .running && (makesVersionOf s a.cmd).contains oid)

/-- Whether every object the command would make a version of has fewer than 64 live versions, those still to be made by
admitted commands among them (R168). -/
def versionRoom (s : State) (c : Cmd) : Bool :=
  (makesVersionOf s c).all (fun oid => match objOf s oid with
    | some o => decide (o.versions.length + versionsDue s oid < 64)
    | none => true)

/-- Whether the node admits a function's commands at all: in service once service-ready, in Kindling, and function 0
alone while a removal drains (R471, R482, R488, R525). -/
def admitsNow (s : State) (f : Nat) : Bool :=
  (s.boot.serviceReady || s.boot.kindling) &&
  (match s.service.mode with
   | .service => true
   | .removal => f == 0
   | _ => false)

/-- Whether a command would change the domain of a MIGRATE that has been admitted and has not cut over (R409 step 3). -/
def migrating (s : State) (c : Cmd) : Bool :=
  s.sched.admitted.any (fun a => a.cmd.opcode == 0x605 && (a.phase == .running || a.phase == .waitMigrate) && c.opcode != 0x605 &&
    (if a.p 36 1 = 2 then c.fn == oidFn (a.p 32 4) && (opRow c.opcode).any (·.obj) && decide (0x100 ≤ c.opcode ∧ c.opcode < 0x500)
     else (makesVersionOf s c).contains (a.p 32 4) || (c.opcode == 0x101 && c.p 32 4 == a.p 32 4)))

/-- Whether FENCE lets the head of H_f be admitted (R109). -/
def fenceOk (s : State) (f : Nat) (c : Cmd) : Bool := !fenceHeld s f c.cid && !(c.fence && hostBusy s f c.cid)

/-- Whether a queue head is eligible (R436). -/
def eligible (s : State) (f : Nat) (c : Cmd) (host : Bool) : Bool :=
  admitsNow s f && (if host then fenceOk s f c else !(fnOf s f).drained) && versionRoom s c && !migrating s c &&
  poolRoom s f && !inDebt s f

/-- A function's candidate (R437): the eligible head that arrived first, the host's at the same count. -/
def candidate (s : State) (f : Nat) : Option (Cmd × Bool) :=
  let h := (fnOf s f).hostQ.head?.filter (fun c => eligible s f c true)
  let x := (fnOf s f).fabQ.head?.filter (fun c => eligible s f c false)
  match h, x with
  | some a, some b => if a.commit ≤ b.commit then some (a, true) else some (b, false)
  | some a, none => some (a, true)
  | none, some b => some (b, false)
  | none, none => none

end Sys2Proof.Machine
end

