-- ==== Sys2Proof/Machine/Charcoal.lean ====
section
/-! DEFINITION. The Charcoal stream format (R417-R426): frames, canonical codes, the expander and the compressor. -/

namespace Sys2Proof.Machine
open Sys2Proof

/-- A block and a chunk of the expanded bytes (R417). -/
def blockLen : Nat := 65536
def chunkLen : Nat := 256

/-- A frame of a stream (R417): its header fields and body. -/
structure CFrame where
  ftype : Nat
  last : Bool
  tcount : Nat
  xlen : Nat
  xoff : Nat
  body : List Byte
deriving DecidableEq, Repr

/-- The header checks of R423 that a frame's own header decides; the frame and the bytes behind it. -/
def parseFrame (bs : List Byte) : Option (CFrame × List Byte) :=
  let ft := field bs 0 1
  let tc := field bs 2 1
  let bl := field bs 4 4
  let xl := field bs 8 4
  let xo := field bs 16 8
  let ok := 24 ≤ bs.length && ft ≤ 2 && field bs 1 1 ≤ 1 && field bs 3 1 == 0 && field bs 12 4 == 0 &&
    (if ft = 2 then 1 ≤ tc && tc ≤ 4 && bl == 128 * tc && xo % blockLen == 0 else tc == 0) &&
    (ft != 0 || bl == xl) && (ft != 1 || xo % chunkLen == 0) &&
    xl ≤ blockLen && (ft == 2 || (xl != 0 && xo % blockLen + xl ≤ blockLen)) && 24 + bl ≤ bs.length
  let f : CFrame := ⟨ft, field bs 1 1 == 1, tc, xl, xo, (bs.drop 24).take bl⟩
  if ok then some (f, bs.drop (24 + bl)) else none

/-- The frames of a host stream in the order of R421: contiguous from 0, a coded frame after its block's tables, the
last one alone marked LAST and ending the stream. -/
def parseStream : Nat → List Byte → Nat → Option Nat → Option (List CFrame)
  | 0, _, _, _ => none
  | fuel + 1, bs, pos, tbl =>
    match parseFrame bs with
    | none => none
    | some (f, rest) =>
      if f.xoff ≠ pos || (f.ftype == 1 && tbl != some (pos / blockLen)) then none
      else if f.last then (if rest.isEmpty && f.ftype != 2 then some [f] else none)
      else
        let pos' := if f.ftype = 2 then pos else pos + f.xlen
        let tbl' := if f.ftype = 2 then some (pos / blockLen) else tbl
        (parseStream fuel rest pos' tbl').map (f :: ·)

/-- Code lengths of a 128-byte table (R418); 13 to 15 are treated as 0 (R419). -/
def tableLens (t : List Byte) : List Nat :=
  (t.flatMap (fun b => [b.toNat % 16, b.toNat / 16])).map (fun l => if 12 < l then 0 else l)

/-- The symbols of a code in ascending (length, symbol) order. -/
def codeOrder (lens : List Nat) : List (Nat × Nat) :=
  (List.range 12).flatMap (fun l => (lens.zipIdx.filter (fun e => e.1 == l + 1)).map (fun e => (l + 1, e.2)))

/-- Canonical codes (R419): (length, code, symbol); a code that needs more bits than its length ends the list. -/
def assignCodes : List (Nat × Nat) → Nat → Nat → List (Nat × Nat × Nat)
  | [], _, _ => []
  | (l, s) :: r, code, len =>
    let c := code * 2 ^ (l - len)
    if 2 ^ l ≤ c then [] else (l, c, s) :: assignCodes r (c + 1) l

def canonical (lens : List Nat) : List (Nat × Nat × Nat) := assignCodes (codeOrder lens) 0 1

/-- Bits of bytes, bit 0 of byte 0 first (R420). -/
def bitsOf (bs : List Byte) : List Bool := bs.flatMap (fun b => (List.range 8).map (fun i => b.getLsbD i))

/-- Value of the next n bits, the first the most significant; bits beyond the end read 0 (R420, R424). -/
def windowOf (n : Nat) (bits : List Bool) : Nat :=
  (List.range n).foldl (fun v i => 2 * v + b2n (bits.getD i false)) 0

/-- The symbol and length that a window begins with; 0x00 and 12 bits where it begins with no code (R424). -/
def nextSym (codes : List (Nat × Nat × Nat)) (bits : List Bool) : Nat × Nat :=
  let w := windowOf 12 bits
  match codes.find? (fun c => w / 2 ^ (12 - c.1) == c.2.1) with
  | some (l, _, s) => (s, l)
  | none => (0, 12)

/-- Exactly n expanded bytes, byte i of the frame under its chunk's table (R418, R424). -/
def decodeSyms (tables : List (List (Nat × Nat × Nat))) (sels : List Nat) : Nat → Nat → List Bool → List Byte
  | 0, _, _ => []
  | n + 1, i, bits =>
    let t := tables.getD (sels.getD (i / chunkLen) 0) []
    let (s, l) := nextSym t bits
    BitVec.ofNat 8 s :: decodeSyms tables sels n (i + 1) (bits.drop l)

/-- The expanded bytes of a raw or coded frame under its block's tables. -/
def CFrame.expand (f : CFrame) (tables : List (List (Nat × Nat × Nat))) : List Byte :=
  if f.ftype = 0 then f.body
  else
    let nc := ceilDiv f.xlen chunkLen
    let sb := ceilDiv nc 4
    let sels := (List.range nc).map (fun j => field f.body (j / 4) 1 / 4 ^ (j % 4) % 4)
    decodeSyms tables sels f.xlen 0 (bitsOf (f.body.drop sb))

/-- The tables a tables frame carries. -/
def CFrame.tables (f : CFrame) : List (List (Nat × Nat × Nat)) :=
  (List.range f.tcount).map (fun t => canonical (tableLens (slice f.body (128 * t) 128)))

/-- Expansion of the frames of a stream in order. -/
def expandAll : List CFrame → List (List (Nat × Nat × Nat)) → List Byte
  | [], _ => []
  | f :: fs, ts => if f.ftype = 2 then expandAll fs f.tables else f.expand ts ++ expandAll fs ts

/-- A host stream expanded; none on a header failure (R421, R423). -/
def charcoalExpand (bs : List Byte) : Option (List Byte) :=
  (parseStream (bs.length / 24 + 1) bs 0 none).map (fun fs => expandAll fs [])

/-! ### The compressor (R425, R426) -/

/-- Insertion by weight, behind equal weights. -/
def insertW (x : Nat × List Nat) : List (Nat × List Nat) → List (Nat × List Nat)
  | [] => [x]
  | y :: ys => if x.1 < y.1 then x :: y :: ys else y :: insertW x ys

/-- Pairs packaged. -/
def packages : List (Nat × List Nat) → List (Nat × List Nat)
  | a :: b :: r => (a.1 + b.1, a.2 ++ b.2) :: packages r
  | _ => []

/-- The coins of a level: the symbols by weight then value, the packages of the level below behind equal weights. -/
def level (items : List (Nat × List Nat)) : Nat → List (Nat × List Nat)
  | 0 => items
  | k + 1 => (packages (level items k)).foldl (fun xs p => insertW p xs) items

/-- Lengths of the length-limited code of least total length for a run of bytes, by package-merge (R425). -/
def buildLens (bs : List Byte) : List Nat :=
  let hist := (List.range 256).map (fun s => bs.countP (fun b => b.toNat == s))
  let items := (hist.zipIdx.filter (fun e => e.1 != 0)).foldl (fun xs e => insertW (e.1, [e.2]) xs) []
  match items with
  | [(_, [s])] => (List.range 256).map (fun x => b2n (x == s))
  | _ =>
    let used := ((level items 11).take (2 * items.length - 2)).flatMap (·.2)
    (List.range 256).map (fun s => used.countP (· == s))

/-- The 128 bytes of a table. -/
def packLens (lens : List Nat) : List Byte :=
  (List.range 128).map (fun i => BitVec.ofNat 8 (lens.getD (2 * i) 0 + 16 * lens.getD (2 * i + 1) 0))

/-- Bits of a code, most significant first. -/
def codeBits (l c : Nat) : List Bool := (List.range l).map (fun i => bit c (l - 1 - i))

/-- Bits of a chunk under a table. -/
def encodeChunk (codes : List (Nat × Nat × Nat)) (bs : List Byte) : List Bool :=
  bs.flatMap (fun b => match codes.find? (fun c => c.2.2 == b.toNat) with
    | some (l, c, _) => codeBits l c
    | none => [])

/-- Bits packed into bytes, padded with zero bits (R418). -/
def packBits : Nat → List Bool → List Byte
  | 0, _ => []
  | n + 1, bits => if bits.isEmpty then [] else
      BitVec.ofNat 8 ((bits.take 8).zipIdx.foldl (fun v e => v + b2n e.1 * 2 ^ e.2) 0) :: packBits n (bits.drop 8)

/-- A frame's bytes. -/
def frameBytes (ft : Nat) (last : Bool) (tc xlen xoff : Nat) (body : List Byte) : List Byte :=
  lay 24 [(0, 1, ft), (1, 1, b2n last), (2, 1, tc), (4, 4, body.length), (8, 4, xlen), (16, 8, xoff)] ++ body

/-- A coded frame of chunks (bytes, table, bits) from an expanded offset. -/
def codedFrame (last : Bool) (xoff : Nat) (cs : List (List Byte × Nat × List Bool)) : List Byte :=
  let sels := (List.range (ceilDiv cs.length 4)).map (fun j =>
    BitVec.ofNat 8 ((List.range 4).foldl (fun v i => v + ((cs[4 * j + i]?).elim 0 (·.2.1)) * 4 ^ i) 0))
  let bits := cs.flatMap (·.2.2)
  frameBytes 1 last 0 (cs.foldl (fun n c => n + c.1.length) 0) xoff (sels ++ packBits (bits.length / 8 + 1) bits)

/-- Size of a coded frame of some chunks. -/
def codedSize (cs : List (List Byte × Nat × List Bool)) : Nat :=
  24 + ceilDiv cs.length 4 + ceilDiv (cs.foldl (fun n c => n + c.2.2.length) 0) 8

/-- Chunks cut into frames of at most 4,096 bytes, as many whole chunks as fit (R425). -/
def cutFrames : List (List Byte × Nat × List Bool) → List (List Byte × Nat × List Bool) →
    List (List (List Byte × Nat × List Bool))
  | [], cur => if cur.isEmpty then [] else [cur]
  | c :: cs, cur =>
    if cur.isEmpty || codedSize (cur ++ [c]) ≤ 4096 then cutFrames cs (cur ++ [c])
    else cur :: cutFrames cs [c]

/-- A list cut into pieces of n bytes. -/
def pieces (n : Nat) : Nat → List Byte → List (List Byte)
  | 0, _ => []
  | k + 1, bs => if bs.isEmpty then [] else bs.take n :: pieces n k (bs.drop n)

/-- The frames of a block coded with one table a quarter, with their expanded offsets (R425). -/
def codeBlock (bs : List Byte) (xoff : Nat) (lastBlock : Bool) : List (Nat × List Byte) :=
  let quarters := pieces 16384 4 bs
  let lens := quarters.map buildLens
  let chunks := ((quarters.zip lens).zipIdx).flatMap (fun e =>
    let codes := canonical e.1.2
    (pieces chunkLen 64 e.1.1).map (fun c => (c, e.2, encodeChunk codes c)))
  let groups := cutFrames chunks []
  let offs := groups.foldl (fun (acc : List Nat × Nat) g => (acc.1 ++ [acc.2], acc.2 + g.foldl (fun n c => n + c.1.length) 0)) ([], xoff)
  (xoff, frameBytes 2 false lens.length bs.length xoff (lens.flatMap packLens)) ::
    (groups.zip offs.1).zipIdx.map (fun e => (e.1.2, codedFrame (lastBlock && e.2 + 1 == groups.length) e.1.2 e.1.1))

/-- A block as it is sent on the fabric: whether coded, and the payloads with their offsets (R422, R426). -/
def sendBlock (bs : List Byte) (xoff : Nat) (lastBlock : Bool) : Bool × List (Nat × List Byte) :=
  let fs := codeBlock bs xoff lastBlock
  if fs.foldl (fun n f => n + f.2.length) 0 ≤ bs.length + bs.length / 64 then (true, fs)
  else (false, (pieces 4096 16 bs).zipIdx.map (fun e => (xoff + 4096 * e.2, e.1)))

/-- A message as payloads (offset, compressed, bytes) and the blocks sent coded and raw (R425, R426, R434). -/
def sendMessage (bs : List Byte) : List (Nat × Bool × List Byte) × Nat × Nat :=
  let blocks := (pieces blockLen (bs.length / blockLen + 1) bs).zipIdx
  let sent := blocks.map (fun e => sendBlock e.1 (blockLen * e.2) (e.2 + 1 == blocks.length))
  (sent.flatMap (fun b => b.2.map (fun f => (f.1, b.1, f.2))), sent.countP (·.1), sent.countP (fun b => !b.1))

end Sys2Proof.Machine
end

