-- ==== Sys2Proof/Machine/FabricOps.lean ====
section
/-! DEFINITION. Ports, routes, packets and their retention (R387-R400, R415, R422, R425-R430), and the fabric's work
for admitted commands: the Reply of a carried command (R149, R403). -/

namespace Sys2Proof.Machine
open Sys2Proof

/-- Code of a port state (R388). -/
def PortState.code : PortState → Nat
  | .idle => 0 | .detect => 1 | .equalise => 2 | .align => 3 | .active => 4 | .retrain => 5 | .down => 6

/-- A port's record. -/
def portOf (s : State) (p : Nat) : Port := AMap.getD s.fabric.ports p {}

/-- The port status entry of R415. -/
def portEntry (x : Port) : List Byte :=
  lay 16 [(0, 1, x.state.code), (1, 1, x.width), (2, 2, x.peer.toNat), (4, 4, x.corrected.toNat),
    (8, 2, x.replays.toNat), (10, 2, x.retrains.toNat), (12, 2, x.crcDrops.toNat), (14, 2, x.tagDrops.toNat)]

/-- A port changed. -/
def updPort (s : State) (p : Nat) (g : Port → Port) : State :=
  { s with fabric := { s.fabric with ports := AMap.insert s.fabric.ports p (g (portOf s p)) } }

/-- Active ports of a destination's route mask (R389, R399). -/
def routePorts (s : State) (dst : Nat) : List Nat :=
  (List.range 12).filter (fun p => (AMap.getD s.fabric.routes dst 0).getLsbD p && (portOf s p).state == .active)

/-- The port a packet takes, by the hash of (DST_NODE, FN, CTX) over the mask's Active ports (R399). -/
def routePort (s : State) (dst f ctx : Nat) : Option Nat :=
  let ps := routePorts s dst
  ps[Config.routeHash dst f ctx % ps.length]?

/-- Whether the key that encrypts a kind of packet is held (R429). -/
def hasSendKey (s : State) (kind f : Nat) : Bool :=
  if kind ≤ 5 then (fnOf s f).txKey.isSome
  else if kind = 8 then s.glaesh.compKey.isSome else s.glaesh.nodeKey.isSome

/-- KEY_ID of a packet: its function's transmit key, 0 under the node's keys (R429). -/
def sendKeyId (s : State) (kind f : Nat) : Nat := if kind ≤ 5 then (fnOf s f).txKey.elim 0 (·.1) else 0

/-- Whether a packet of the kind can go to the destination now (R396, R397, R399, R429). -/
def reachable (s : State) (kind dst f ctx : Nat) : Bool :=
  (s.fabric.node != 0xFFFF || kind == 8) && !s.fabric.unreachable.contains dst && (routePort s dst f ctx).isSome &&
  hasSendKey s kind f

/-- Data flits a packet takes: header, payload, tag and CRC (R390, R393). -/
def flitsFor (len : Nat) : Nat := ceilDiv (52 + len) 236

/-- The replay buffer of 2,048 data flits takes n flits from a sequence number (R391). -/
def holdFlits (x : Port) (n : Nat) : List (BitVec 16) :=
  let h := x.held ++ (List.range n).map (fun i => x.txFseq + BitVec.ofNat 16 i)
  h.drop (h.length - 2048)

/-! ### The order in which packets leave a port (R392, R395, R449) -/

/-- The packet's kind (R393). -/
def Retained.kind (r : Retained) : Nat :=
  match r.em with
  | .packet kind _ _ _ _ _ _ _ _ _ _ _ => kind
  | _ => 0

/-- The packet's cost: its bytes with header, tag and CRC in 64-byte units, rounded up (R393, R449). -/
def Retained.units (r : Retained) : Nat :=
  match r.em with
  | .packet _ _ _ _ _ _ _ _ _ _ _ data => ceilDiv (52 + data.length) 64
  | _ => 1

/-- Node traffic: Ack, Moved, Composition and Report packets, and retransmissions (R449). -/
def Retained.forNode (r : Retained) : Bool := r.again || decide (6 ≤ r.kind)

/-- The packets that wait to go out on a port, oldest first. -/
def outQueue (s : State) (p : Nat) : List Retained :=
  s.fabric.retained.filter (fun r => r.port == p && (r.sends == 0 || r.again))

/-- A function's tags on a port: start and finish (R439, R449). -/
def egressTags (x : Port) (f : Nat) : BitVec 64 × BitVec 64 := AMap.getD x.egress f (0, 0)

/-- Whether a waiting packet goes ahead of another: the lower start tag, the lower function where they are equal (R439). -/
def goesAhead (x : Port) (a b : Retained) : Bool :=
  tagLt (egressTags x a.fn).1 (egressTags x b.fn).1 ||
  ((egressTags x a.fn).1 == (egressTags x b.fn).1 && decide (a.fn < b.fn))

/-- The packet that leaves next: node traffic first, then the function with the lowest start tag; a function's own packets in their
order (R449). -/
def nextOut (x : Port) (rs : List Retained) : Option Retained :=
  (rs.find? (·.forNode)).orElse (fun _ => rs.foldl (fun best r =>
    match best with
    | none => some r
    | some b => if goesAhead x r b then some r else best) none)

/-- A function comes to have a packet waiting on a port: S = max(V, F) (R440, R449). -/
def wakeEgress (s : State) (p : Nat) (r : Retained) : State :=
  if r.forNode || (outQueue s p).any (fun q => !q.forNode && q.fn == r.fn) then s
  else updPort s p (fun x =>
    let f := (egressTags x r.fn).2
    let v := if tagLt x.egressV f then f else x.egressV
    { x with egress := AMap.insert x.egress r.fn (v, f) })

/-- A function's packet leaves: V = S, F = S + c D, S = F (R439, R449). Node traffic has no tags. -/
def chargeEgress (s : State) (p : Nat) (r : Retained) : State :=
  if r.forNode then s
  else
    let d := increment (fnOf s r.fn)
    updPort s p (fun x =>
      let v := (egressTags x r.fn).1
      let f := v + BitVec.ofNat 64 (r.units * d)
      { x with egressV := v, egress := AMap.insert x.egress r.fn (f, f) })

/-- A kept packet's record replaced. -/
def updRetained (s : State) (r : Retained) (g : Retained → Retained) : State :=
  let rs := s.fabric.retained.map (fun x => if x.dst == r.dst && x.seq == r.seq then g x else x)
  { s with fabric := { s.fabric with retained := rs } }

/-- A packet goes out on a port against data credits (R391, R392); it is kept but for an Ack or a probe (R395, R396). -/
def launch (s : State) (r : Retained) (p : Nat) : State :=
  let s := chargeEgress s p r
  let s := updPort s p (fun x => { x with
    dataCredits := x.dataCredits - r.flits
    txFseq := x.txFseq + BitVec.ofNat 16 r.flits
    held := holdFlits x r.flits })
  let s := charge (emit s r.em) r.fn (1050 * ceilDiv (236 * r.flits) 64) false
  if r.once then
    { s with fabric := { s.fabric with retained := s.fabric.retained.filter (fun x => !(x.dst == r.dst && x.seq == r.seq)) } }
  else updRetained s r (fun x => { x with sends := x.sends + 1, port := p, again := false, sentAt := now s })

/-- Waiting packets leave an Active port, the next one always first, while it has the credits for it (R392, R449). -/
def pump : Nat → State → Nat → State
  | 0, s, _ => s
  | n + 1, s, p =>
    match nextOut (portOf s p) (outQueue s p) with
    | none => s
    | some r =>
      if (portOf s p).state == .active && decide (r.flits ≤ (portOf s p).dataCredits) then pump n (launch s r p) p else s

/-- What waits on a port leaves it as far as it can. -/
def sendWaiting (s : State) (p : Nat) : State := pump (outQueue s p).length s p

/-- A packet takes its place among those that wait on its port. -/
def enqueuePacket (s : State) (r : Retained) : State :=
  let s := wakeEgress s r.port r
  sendWaiting { s with fabric := { s.fabric with retained := s.fabric.retained ++ [r] } } r.port

/-- A packet takes the next port of its destination's mask after the one it was on (R389, R395). -/
def movePort (s : State) (r : Retained) : Retained :=
  let ps := routePorts s r.dst
  { r with port := ((ps.find? (fun p => decide (r.port < p))).orElse (fun _ => ps.head?)).getD r.port }

/-- A packet is sent once to a reachable destination and, but for an Ack, kept until acknowledged (R395, R430). -/
def sendPacket (s : State) (kind dst f : Nat) (epoch : Word) (ctx offset : Nat) (last comp : Bool) (extra : List Nat)
    (data : List Byte) : State :=
  match routePort s dst f ctx with
  | none => s
  | some p =>
    if !reachable s kind dst f ctx then s
    else
      let seq := AMap.getD s.fabric.sendSeq dst 0
      let q : BitVec 32 := BitVec.ofNat 32 seq.toNat
      let em : Emission := .packet kind dst f (sendKeyId s kind f) q epoch ctx offset last comp extra data
      let s := { s with fabric := { s.fabric with sendSeq := AMap.insert s.fabric.sendSeq dst (seq + 1) } }
      enqueuePacket s { dst := dst, seq := q, fn := f, em := em, flits := flitsFor data.length, sends := 0, port := p, once := kind == 6 }

/-- A message's bytes in packets of at most 4,096 payload bytes, compressed where that pays (R422, R425, R426). -/
def sendBytes (s : State) (kind dst f : Nat) (epoch : Word) (ctx : Nat) (markLast : Bool) (bs : List Byte) : State :=
  let (ps, coded, raw) := sendMessage bs
  let s := { s with fabric := { s.fabric with coded := satAdd s.fabric.coded coded, raw := satAdd s.fabric.raw raw } }
  (ps.zipIdx).foldl (fun s e =>
    sendPacket s kind dst f epoch ctx e.1.1 (markLast && e.2 + 1 == ps.length) e.1.2.1 [] e.1.2.2) s

/-- A message's bytes in plain packets of at most 4,096 payload bytes each behind a header (R404). -/
def sendPlain (s : State) (kind dst f : Nat) (epoch : Word) (ctx : Nat) (head : List Byte) (bs : List Byte) : State :=
  let ps := pieces (4096 - head.length) (bs.length / (4096 - head.length) + 1) bs
  let ps := if ps.isEmpty then [[]] else ps
  (ps.zipIdx).foldl (fun s e =>
    sendPacket s kind dst f epoch ctx ((4096 - head.length) * e.2) (e.2 + 1 == ps.length) false [] (head ++ e.1)) s

/-- The Reply of a carried command: its result data, then its reply fields (R149, R403). -/
def sendReply (s : State) (dst f ctx : Nat) (r : Result) : State :=
  let s := sendBytes s 2 dst f 0 ctx false r.data
  sendPacket s 2 dst f 0 ctx r.data.length true false
    [r.status.toNat, r.rflags.toNat, r.count.toNat, r.invalid.toNat, r.version.toNat, r.value.toNat] []

/-- The function number under which the node key's and the composition key's packets are counted. -/
def nodeKeyFn : Nat := 256
def compKeyFn : Nat := 257

/-- A receive key is installed: nothing has been accepted under it yet (R430). -/
def newKey (s : State) (f key : Nat) : State :=
  { s with fabric := { s.fabric with recvKeys := s.fabric.recvKeys.filter (fun e => !(e.1 == f && e.2.1 == key)) } }

/-- A Request, Contribution or Push wakes a Banked node (R471). -/
def wakeNode (s : State) : State :=
  if s.service.mode = .banked then { s with service := { s.service with mode := .leavingBanked } } else s

/-- Receive and transmit keys held over all functions (R434). -/
def rxKeysHeld (s : State) : Nat := (AMap.vals s.fns).foldl (fun n x => n + x.rxKeys.length) 0
def txKeysHeld (s : State) : Nat := (AMap.vals s.fns).countP (·.txKey.isSome)

/-- Bytes move over the host link: the energy of the transfer in 64-byte units (R466), and the link is out of L1 (R98). -/
def chargePcie (s : State) (f n : Nat) : State :=
  let s := charge s f (700 * ceilDiv n 64) false
  { s with link := { s.link with l1 := s.link.l1 && n == 0 } }

/-! ### Pushed streams (R412, R413, R422) -/

/-- The tables of a coded frame's block among a stream's packets, once they have come. -/
def tablesFor (ps : List (Nat × Bool × List Byte)) (xoff : Nat) : Option (List (List (Nat × Nat × Nat))) :=
  ps.findSome? (fun p =>
    if !p.2.1 then none
    else match parseFrame p.2.2 with
      | some (f, _) => if f.ftype = 2 && f.xoff == xoff / blockLen * blockLen then some f.tables else none
      | none => none)

/-- The place and the expanded bytes of a packet; none while a coded frame waits for its tables (R422). -/
def partBytes (ps : List (Nat × Bool × List Byte)) (p : Nat × Bool × List Byte) : Option (Nat × List Byte) :=
  if !p.2.1 then some (p.1, p.2.2)
  else match parseFrame p.2.2 with
    | none => none
    | some (f, _) =>
      if f.ftype = 2 then some (p.1, [])
      else if f.ftype = 0 then some (p.1, f.body)
      else (tablesFor ps f.xoff).map (fun ts => (p.1, f.expand ts))

/-- The packets of a stream that can be placed. -/
def Stream.placed (st : Stream) : List (Nat × List Byte) := st.parts.filterMap (partBytes st.parts)

/-- The contiguous end of placed bytes (R412). -/
def contiguousEnd (ps : List (Nat × List Byte)) : Nat :=
  (sortBy (fun (a b : Nat × List Byte) => decide (a.1 < b.1)) ps).foldl
    (fun e p => if p.1 ≤ e then max e (p.1 + p.2.length) else e) 0

/-- The bytes of a complete stream (R413). -/
def Stream.whole? (st : Stream) : Option (List Byte) :=
  let ps := st.placed
  match st.last with
  | none => none
  | some n => if n ≤ contiguousEnd ps then some (Mem.readBytes (ps.foldl (fun m p => Mem.write m p.1 p.2) []) 0 n) else none

/-- The stream of a number of a function. -/
def streamFor (s : State) (f id : Nat) : Option Stream := s.fabric.streams.find? (fun st => st.fn == f && st.id == id)

/-! ### The expander's table slots (R427) -/

/-- The end of the placed bytes that follow on from an offset. -/
def coverFrom (start : Nat) (ps : List (Nat × List Byte)) : Nat :=
  (sortBy (fun (a b : Nat × List Byte) => decide (a.1 < b.1)) ps).foldl
    (fun e p => if p.1 ≤ e then max e (p.1 + p.2.length) else e) start

/-- The packets of the message or stream that a slot's block belongs to, while the node still holds it. -/
def slotParts (s : State) (e : TableSlot) : Option (List (Nat × Bool × List Byte)) :=
  if e.reply then (s.fabric.inbox.find? (fun b => b.kind == 2 && b.fn == e.fn && b.src == e.src && b.ctx == e.id)).map (·.parts)
  else ((streamFor s e.fn e.id).filter (fun st => !st.discarded)).map (·.parts)

/-- Whether a slot is still held: bytes of its block are still to be expanded. -/
def slotHeld (s : State) (e : TableSlot) : Bool :=
  match slotParts s e with
  | none => false
  | some ps => decide (coverFrom e.xoff (ps.filterMap (partBytes ps)) < e.xoff + e.xlen)

/-- Slots in use in a port's expander. -/
def slotsUsed (s : State) (p : Nat) : Nat := (portOf s p).tables.countP (slotHeld s)

/-- The tables frame a packet carries. -/
def tablesFrame (p : Packet) : Option CFrame :=
  if p.compressed then (parseFrame p.payload).bind (fun r => if r.1.ftype = 2 then some r.1 else none) else none

/-- Whether the port's expander takes the packet: a tables frame needs one of its 8 slots (R427). -/
def slotRoom (s : State) (p : Packet) : Bool := (tablesFrame p).isNone || decide (slotsUsed s p.port < 8)

/-- The slots of a message or stream that is new are none. -/
def forgetSlots (s : State) (reply : Bool) (f src id : Nat) : State :=
  { s with fabric := { s.fabric with ports := s.fabric.ports.map (fun e =>
    (e.1, { e.2 with tables := e.2.tables.filter (fun x => !(x.reply == reply && x.fn == f && x.src == src && x.id == id)) })) } }

/-- A tables frame takes a slot of its port. -/
def takeSlot (s : State) (p : Packet) (reply : Bool) (src id : Nat) : State :=
  match tablesFrame p with
  | none => s
  | some f => updPort s p.port (fun x => { x with
      tables := x.tables.filter (slotHeld s) ++ [⟨reply, p.fn, src, id, f.xoff, f.xlen⟩] })

end Sys2Proof.Machine
end

