-- ==== Sys2Proof/Machine/Image.lean ====
section
/-! DEFINITION. Program images (R294-R298): header, plan directory, tasks, knots, their checks, and the model header and
layer table of a ranking model (R366, R367). -/

namespace Sys2Proof.Machine
open Sys2Proof

/-- Code and data sections of an image (R294). -/
def imgCodeOff (m : Mem) : Nat := Mem.nat m 16 4
def imgCodeLen (m : Mem) : Nat := Mem.nat m 20 4
def imgDataOff (m : Mem) : Nat := Mem.nat m 24 4
def imgDataLen (m : Mem) : Nat := Mem.nat m 28 4
def imgPlans (m : Mem) : Nat := Mem.nat m 6 2
def imgNeeds (m : Mem) : Nat := Mem.nat m 36 4

/-- Bytes and fields of the data section. -/
def imgData (m : Mem) (off n : Nat) : List Byte := Mem.readBytes m (imgDataOff m + off) n
def imgDataNat (m : Mem) (off n : Nat) : Nat := leNat (imgData m off n)

/-- The instruction word at a code offset (R279). -/
def imgWord (m : Mem) (pc : Nat) : BitVec 32 := BitVec.ofNat 32 (Mem.nat m (imgCodeOff m + pc) 4)

/-- A plan directory entry (R296). -/
structure Plan where
  taskOff : Nat
  tasks : Nat
  knots : Nat
  knotOff : Nat
  looms : Nat
  shuttles : Nat
  wsBytes : Nat
  slots : Nat
  cyclic : Bool
  initOff : Nat
  initLen : Nat

/-- Offset of the entry of plan p. -/
def planAt (m : Mem) (p : Nat) : Nat := Mem.nat m 32 4 + 32 * p

/-- Plan p of an image (R296). -/
def planOf (m : Mem) (p : Nat) : Plan :=
  let e := planAt m p
  { taskOff := Mem.nat m e 4, tasks := Mem.nat m (e + 4) 2, knots := Mem.nat m (e + 6) 2, knotOff := Mem.nat m (e + 8) 4
    looms := Mem.nat m (e + 12) 2, shuttles := Mem.nat m (e + 14) 2, wsBytes := Mem.nat m (e + 16) 4
    slots := Mem.nat m (e + 20) 2, cyclic := bit (Mem.nat m (e + 22) 1) 0
    initOff := Mem.nat m (e + 24) 4, initLen := Mem.nat m (e + 28) 4 }

/-- A task entry (R297). -/
structure Task where
  kind : Nat
  wait0 : Nat
  wait1 : Nat
  done : Nat
  loom : Nat
  count : Nat
  entry : Nat
  deadline : Nat

/-- Task t of a plan. -/
def taskOf (m : Mem) (p : Plan) (t : Nat) : Task :=
  let e := p.taskOff + 32 * t
  { kind := Mem.nat m e 1, wait0 := Mem.nat m (e + 4) 2, wait1 := Mem.nat m (e + 6) 2, done := Mem.nat m (e + 8) 2
    loom := Mem.nat m (e + 10) 2, count := Mem.nat m (e + 12) 2, entry := Mem.nat m (e + 16) 4
    deadline := Mem.nat m (e + 20) 4 }

/-- The number that names no knot, and every granted loom (R297). -/
def noKnot : Nat := 65535

/-- Initial target and flags of local knot j (R296). -/
def knotEntry (m : Mem) (p : Plan) (j : Nat) : Nat × Nat := (Mem.nat m (p.knotOff + 8 * j) 4, Mem.nat m (p.knotOff + 8 * j + 4) 1)

/-! ### Checks (R294) -/

/-- Whether two ranges meet; an empty one meets none. -/
def meets (a b : Nat × Nat) : Bool := a.2 != 0 && b.2 != 0 && decide (a.1 < b.1 + b.2) && decide (b.1 < a.1 + a.2)

/-- Whether no two ranges of a list meet. -/
def apart : List (Nat × Nat) → Bool
  | [] => true
  | r :: rs => rs.all (fun x => !meets r x) && apart rs

/-- Whether bytes of an image are all zero. -/
def zeroAt (m : Mem) (off n : Nat) : Bool := (Mem.readBytes m off n).all (· == 0#8)

/-- A knot entry's check. -/
def knotOk (m : Mem) (p : Plan) (j : Nat) : Bool := (knotEntry m p j).2 < 4 && zeroAt m (p.knotOff + 8 * j + 5) 3

/-- A task entry's check (R297). -/
def taskOk (m : Mem) (p : Plan) (t : Nat) : Bool :=
  let e := p.taskOff + 32 * t
  let x := taskOf m p t
  let knot (k : Nat) : Bool := decide (k < p.knots) || k == noKnot
  x.kind ≤ 1 && zeroAt m (e + 1) 3 && zeroAt m (e + 14) 2 && zeroAt m (e + 24) 8 && knot x.wait0 && knot x.wait1 && knot x.done &&
  (decide (x.loom < p.looms) || x.loom == 65535) &&
  (if x.kind = 0 then 1 ≤ x.count && x.count ≤ p.shuttles && x.entry % 4 == 0 && decide (x.entry < imgCodeLen m)
   else x.count ≤ 256 && x.entry % 64 == 0 && x.entry + 64 ≤ imgDataLen m)

/-- A plan directory entry's check, with its knots and tasks (R294, R296). -/
def planOk (m : Mem) (len i : Nat) : Bool :=
  let p := planOf m i
  let e := planAt m i
  1 ≤ p.tasks && p.tasks ≤ 4096 && p.knots ≤ 4095 && 1 ≤ p.looms && p.looms ≤ 128 && p.shuttles ≤ 128 && p.wsBytes % 64 == 0 &&
  p.wsBytes ≤ 1048576 && p.slots ≤ 64 && Mem.nat m (e + 22) 1 ≤ 1 && Mem.nat m (e + 23) 1 == 0 && p.initLen ≤ p.wsBytes &&
  (p.initLen == 0 || p.initOff + p.initLen ≤ imgDataLen m) && p.taskOff + 32 * p.tasks ≤ len && p.knotOff + 8 * p.knots ≤ len &&
  (List.range p.knots).all (knotOk m p) && (List.range p.tasks).all (taskOk m p)

/-- The checks of PROG_LOAD on an image of a length (R294). -/
def imageOk (bs : List Byte) (len : Nat) : Bool :=
  let m := Mem.ofBytes bs
  let code := (imgCodeOff m, imgCodeLen m)
  let data := (imgDataOff m, imgDataLen m)
  let dir := (Mem.nat m 32 4, 32 * imgPlans m)
  64 ≤ len && Mem.nat m 0 4 == 0x56414557 && Mem.nat m 4 2 == 1 && 1 ≤ imgPlans m && imgPlans m ≤ 256 && Mem.nat m 8 4 == len &&
  Mem.nat m 12 4 == crc32 (Mem.readBytes (m.write 12 [0, 0, 0, 0]) 0 len) && code.1 % 64 == 0 && code.2 % 4 == 0 && 4 ≤ code.2 &&
  code.2 ≤ 1048576 && data.1 % 64 == 0 && data.2 ≤ 1048576 && dir.1 % 32 == 0 && zeroAt m 44 20 &&
  [code, data, dir].all (fun r => decide (r.1 + r.2 ≤ len)) && apart [(0, 64), code, data, dir] &&
  (List.range (imgPlans m)).all (planOk m len)

/-- Whether every feature bit that an image needs is active (R295). -/
def needsMet (m : Mem) (feats : BitVec 128) : Bool := imgNeeds m &&& feats.toNat == imgNeeds m

/-! ### Ranking models (R366, R367) -/

/-- A layer entry (R366). -/
structure Layer where
  kind : Nat
  fmt : Nat
  act : Nat
  inp : Nat
  out : Nat
  wOff : Nat
  bOff : Nat

/-- Fields of the model header. -/
def mdlLayers (m : Mem) : Nat := imgDataNat m 4 2
def mdlH (m : Mem) : Nat := imgDataNat m 6 2
def mdlSeq (m : Mem) : Bool := bit (imgDataNat m 8 1) 0
def mdlUser (m : Mem) : Nat := imgDataNat m 12 4
def mdlState (m : Mem) : Nat := imgDataNat m 16 2
def mdlEvent (m : Mem) : Nat := imgDataNat m 18 2

/-- Layer i of a model. -/
def layerOf (m : Mem) (i : Nat) : Layer :=
  let e := 32 + 32 * i
  { kind := imgDataNat m e 1, fmt := imgDataNat m (e + 1) 1, act := imgDataNat m (e + 2) 1, inp := imgDataNat m (e + 4) 4
    out := imgDataNat m (e + 8) 4, wOff := imgDataNat m (e + 12) 4, bOff := imgDataNat m (e + 16) 4 }

/-- Element bytes of a layer's weights (R366). -/
def layerWidth (fmt : Nat) : Nat := if fmt = 3 then 2 else 1

/-- A layer entry's checks (R366, R367). -/
def layerOk (m : Mem) (i : Nat) : Bool :=
  let l := layerOf m i
  l.kind == (if i = 0 then 0 else 1) && (l.fmt == 2 || l.fmt == 3) && l.act ≤ 3 && imgDataNat m (32 + 32 * i + 3) 1 == 0 &&
  (imgData m (32 + 32 * i + 20) 12).all (· == 0#8) &&
  l.wOff + l.out * l.inp * layerWidth l.fmt ≤ imgDataLen m && l.bOff + 4 * l.out ≤ imgDataLen m

/-- Whether an image holds a valid model for a slice of columns (R366, R367). -/
def modelOk (m : Mem) (cols : Nat) : Bool :=
  let n := mdlLayers m
  let seq := mdlSeq m
  imgDataNat m 0 4 == 0x4D4B4E52 && 2 ≤ n && n ≤ 16 && 32 + 32 * n ≤ imgDataLen m && 1 ≤ mdlH m && mdlH m ≤ 4096 &&
  imgDataNat m 8 1 ≤ 1 && imgDataNat m 9 3 == 0 && mdlUser m ≤ 4096 && mdlState m % 32 == 0 && mdlEvent m % 32 == 0 &&
  (seq || (mdlState m == 0 && mdlEvent m == 0)) && imgDataNat m 20 12 == 0 && (List.range n).all (layerOk m) &&
  (layerOf m 0).inp == cols && (layerOf m 0).out == mdlH m && (layerOf m 1).inp == mdlH m + mdlUser m + mdlState m &&
  (List.range (n - 2)).all (fun i => (layerOf m (i + 2)).inp == (layerOf m (i + 1)).out) && (layerOf m (n - 1)).out == 1

end Sys2Proof.Machine
end

