-- ==== Sys2Proof/Machine/Looms.lean ====
section
/-! DEFINITION. Looms and their arrays (R228, R235-R239, R244, R245): array descriptors and their checks, the phases of an array
and its steps, the descriptor at the head of a queue, and the ends of array work. -/

namespace Sys2Proof.Machine
open Sys2Proof

/-- A loom. -/
def loomOf (s : State) (l : Nat) : Loom := AMap.getD s.looms.looms l {}

/-- A loom changed. -/
def updLoom (s : State) (l : Nat) (g : Loom → Loom) : State :=
  { s with looms := { s.looms with looms := AMap.insert s.looms.looms l (g (loomOf s l)) } }

/-- Queries per array of a mode (R228). -/
def modeQ (mode : Nat) : Nat := if mode = 3 then 32 else 64

/-- Arrays a descriptor occupies (R238). -/
def descArrays (d : List Byte) : Nat := ceilDiv (field d 56 2) (modeQ (field d 0 1))

/-! ### Descriptors (R239, R244, R245) -/

/-- An array descriptor's fields (R239). -/
structure Arr where
  mode : Nat
  flags : Nat
  dim : Nat
  stride : Nat
  list : Nat
  knot : Nat
  src : Nat
  ver : Nat
  off : Nat
  first : Nat
  rows : Nat
  scaleOff : Nat
  normOff : Nat
  qry : Nat
  out : Nat
  cols : Nat
  log2 : Nat
  doneWs : Nat

/-- The fields of 64 bytes (R239). -/
def arrOf (d : List Byte) : Arr :=
  { mode := field d 0 1, flags := field d 1 1, dim := field d 4 2, stride := field d 6 2, list := field d 8 4, knot := field d 12 4
    src := field d 16 4, ver := field d 20 4, off := field d 24 8, first := field d 32 8, rows := field d 40 4
    scaleOff := field d 44 2, normOff := field d 46 2, qry := field d 48 4, out := field d 52 4, cols := field d 56 2
    log2 := field d 58 1, doneWs := field d 60 4 }

def Arr.distance (x : Arr) : Bool := bit x.flags 0
def Arr.dense (x : Arr) : Bool := bit x.flags 1
def Arr.arrives (x : Arr) : Bool := bit x.flags 2

/-- Queries per array, passes and arrays in use (R228, R229, R238). -/
def Arr.q (x : Arr) : Nat := modeQ x.mode
def Arr.passes (x : Arr) : Nat := ceilDiv x.dim (if x.mode = 3 then 32 else 64)
def Arr.arrays (x : Arr) : Nat := ceilDiv x.cols x.q

/-- Bytes of the query block and of the output area (R240, R241, R243). -/
def Arr.qryBytes (x : Arr) : Nat := x.arrays * x.passes * 4096 + 16 * x.cols
def Arr.outBytes (x : Arr) : Nat := if x.dense then 4 * x.cols * x.rows else 16 + 16 * 2 ^ x.log2

/-- Bytes of a row's elements (R239). -/
def Arr.rowBytes (x : Arr) : Nat := match x.mode with | 0 => x.dim / 2 | 1 => x.dim | 2 => x.dim | _ => 2 * x.dim

/-- Whether the row layout fits within STRIDE (R244). -/
def Arr.layoutFits (x : Arr) : Bool :=
  x.rowBytes ≤ x.stride && (2 ≤ x.mode || x.scaleOff + x.dim / 16 ≤ x.stride) && (!x.distance || x.normOff + 4 ≤ x.stride)

/-- The checks of R244 that the descriptor alone decides. -/
def descOk (d : List Byte) : Bool :=
  let x := arrOf d
  x.mode ≤ 3 && x.flags < 8 && zeroIn d 2 4 && 32 ≤ x.dim && x.dim ≤ 4096 && x.dim % 32 == 0 && x.stride % 16 == 0 &&
  x.list < 2 ^ 24 && x.knot < 65536 && x.off % 16 == 0 && x.first < 2 ^ 40 && x.qry % 64 == 0 && x.out % 64 == 0 &&
  x.cols ≤ 4 * x.q && (x.dense || (6 ≤ x.log2 && x.log2 ≤ 17)) && field d 59 1 == 0 && x.doneWs % 8 == 0 &&
  [(x.qry, x.qryBytes), (x.out, x.outBytes), (x.doneWs, 8)].all (fun r => decide (r.1 + r.2 ≤ 2097152)) &&
  apart [(x.qry, x.qryBytes), (x.out, x.outBytes), (x.doneWs, 8)] && x.layoutFits

/-- The source object as the function may read it (R245). -/
def arrSource (s : State) (f oid : Nat) : Option Obj := (liveObj s oid).filter (fun o => mayRead o f)

/-- Whether a source is outside the function's rights (R129, R245). -/
def srcForeign (s : State) (f oid : Nat) : Bool := (arrSource s f oid).isNone && oidFn oid != f

/-- Whether a queued descriptor is rejected (R244): a template that breaks R298, a bad field, or rows to be read that end beyond the
source. A descriptor that reads no row or has no column has no source range to check (DEDUCED, log entry 140). -/
def descRejected (s : State) (d : ArrayDesc) : Bool :=
  let x := arrOf d.desc
  d.bad || !descOk d.desc ||
  (x.rows != 0 && x.cols != 0 && !srcForeign s d.fn x.src &&
    (match objOf s x.src with
     | some o => !o.kind.addressed || (verOf o d.ver).isNone || decide (verSize o d.ver < x.off + x.rows * x.stride)
     | none => true))

/-- Whether a descriptor starts no array (R244): rejected, or without rows or columns. A pick of the service plan has both. -/
def descIdle (s : State) (d : ArrayDesc) : Bool :=
  let x := arrOf d.desc
  d.pick.isNone && (descRejected s d || x.rows == 0 || x.cols == 0)

/-- Whether a pick has lost its last member (R250). -/
def ArrayDesc.deserted (d : ArrayDesc) : Bool := d.pick.any (fun ms => ms.all (fun m => !m.2))

/-! ### Phases (R235, R236) -/

/-- Steps of the ramp (R235). -/
def rampSteps : Nat := 48

/-- Ramp stage of an array, 1 to 8; 0 outside a rise or fall (R235, R546). -/
def rampStage (l : Loom) (a : Nat) : Nat :=
  match AMap.getD l.phase a .off with
  | .rise | .fall => min 8 (AMap.getD l.steps a 0 / 6 + 1)
  | .off | .load | .streaming | .drain => 0

/-- Whether an array works or is on its way up. -/
def ArrayPhase.up : ArrayPhase → Bool
  | .rise | .load | .streaming | .drain => true
  | .off | .fall => false

/-- Arrays that the queue's descriptors use (R235, R238). -/
def arraysNeeded (l : Loom) : Nat := l.dq.foldl (fun n d => max n (min 4 (descArrays d.desc))) 0

/-- An array put at the start of a phase. -/
def setPhaseOf (l : Loom) (a : Nat) (p : ArrayPhase) : Loom :=
  { l with phase := AMap.insert l.phase a p, steps := AMap.insert l.steps a 0 }

/-- Arrays that no queued descriptor uses fall, and no longer wait for a rise (R235); a rise under way is completed first. -/
def settleArrays (l : Loom) : Loom :=
  let need := arraysNeeded l
  let l := { l with waitRise := l.waitRise.filter (fun a => decide (a < need)), delayed := l.delayed.filter (fun a => decide (a < need)) }
  l.phase.foldl (fun l e => if need ≤ e.1 && e.2.up && e.2 != .rise then setPhaseOf l e.1 .fall else l) l

/-- Steps of the stationary load (R236). -/
def Arr.loadSteps (x : Arr) : Nat := (if x.mode = 3 then 32 else 64) * x.passes + 16

/-- Steps of streaming (R236). -/
def Arr.streamSteps (x : Arr) : Nat := (if x.mode = 0 then ceilDiv x.rows 2 else x.rows) * x.passes

/-- Steps that an array makes in one count of node time. The loom core has no clock and its steps lengthen and shorten (R12,
R24): 12 steps lie within 10 ns at every operating point (DESIGN CHOICE, log entry 141). -/
def tickSteps : Nat := 12

/-- One array after those steps (R235, R236): a rise of 48 steps, the rest of the load, streaming, drain; a fall of 48 steps. An
array whose record ring is full stays in streaming (R232). -/
def advanceArray (l : Loom) (a : Nat) : Loom :=
  let k := AMap.getD l.steps a 0 + tickSteps
  let on := { l with steps := AMap.insert l.steps a k }
  let head := l.dq.head?.map (fun d => arrOf d.desc)
  match AMap.getD l.phase a .off with
  | .off => l
  | .rise =>
    if k < rampSteps then on
    else if arraysNeeded l ≤ a then setPhaseOf l a .fall
    else if head.any (fun x => decide (k < x.loadSteps)) then { on with phase := AMap.insert l.phase a .load }
    else setPhaseOf l a .streaming
  | .load => if head.any (fun x => decide (k < x.loadSteps)) then on else setPhaseOf l a .streaming
  | .streaming =>
    if l.dq.head?.any (fun d => d.row.isSome) || head.any (fun x => decide (k < x.streamSteps)) then on else setPhaseOf l a .drain
  | .drain => on
  | .fall => if k < rampSteps then on else { l with phase := AMap.erase l.phase a, steps := AMap.erase l.steps a }

/-- The arrays of a loom after the steps of one count of node time. -/
def advanceLoom (l : Loom) : Loom := l.phase.foldl (fun l e => advanceArray l e.1) l

/-! ### The head of a queue -/

/-- A descriptor whose arrays have begun to rise or are at work is taken up (R237, R245): its query block enters the banks, and
a source outside the rights, whose rows it will read as zeros, is counted; its reads of peat granules join their queues (R197). -/
def startHead (s : State) (loom : Nat) : State :=
  let l := loomOf s loom
  match l.dq with
  | [] => s
  | d :: rest =>
    if d.started || !l.waitRise.isEmpty || descIdle s d then s
    else
      let x := arrOf d.desc
      let bank := l.ws.filter (fun c => decide (x.qry ≤ c.1) && decide (c.1 < x.qry + x.qryBytes))
      let s := if d.pick.isNone && srcForeign s d.fn x.src then violate s d.fn 1
        else queueRange s (.array loom) x.src d.ver x.off (x.rows * x.stride) none
      updLoom s loom (fun l => { l with dq := { d with started := true, bank := bank } :: rest })

/-- The descriptor that has come to the head of a queue takes its arrays (R235, R236): those at work go on streaming, those that
are off or falling wait for their rise. -/
def beginHead (s : State) (loom : Nat) : State :=
  let l := loomOf s loom
  match l.dq with
  | [] => s
  | d :: _ =>
    if d.started || descIdle s d then s
    else
      let need := List.range (descArrays d.desc)
      let phaseOf (a : Nat) : ArrayPhase := AMap.getD l.phase a .off
      let s := updLoom s loom (fun l => need.foldl (fun l a =>
        if (phaseOf a).up && phaseOf a != .rise then setPhaseOf l a .streaming else l)
        { l with waitRise := need.filter (fun a => !(phaseOf a).up) })
      startHead s loom

/-- Descriptors leave a loom's queue without an end of their own: arrays without work fall, and a new head takes its arrays. -/
def dropDescs (s : State) (loom : Nat) (keep : ArrayDesc → Bool) : State :=
  if (loomOf s loom).dq.all keep then s
  else beginHead (updLoom s loom (fun l => settleArrays { l with dq := l.dq.filter keep, bobbins := [] })) loom

end Sys2Proof.Machine
end

