-- ==== Sys2Proof/Machine/Snapshot.lean ====
section
/-! DEFINITION. The common trigger and the content of the 225 snapshot banks (R521-R523, R544-R551). -/

namespace Sys2Proof.Machine
open Sys2Proof

/-! ### Node state -/

/-- `NODE_STATE` of `DEV_STATUS` (R542). -/
def nodeState (s : State) : Nat :=
  if s.boot.kindling then 7
  else match s.service.mode with
    | .enteringBanked => 2
    | .banked => 3
    | .leavingBanked => 4
    | .enteringDormant => 5
    | .dormant => 5
    | .removal => 6
    | .safe => 0
    | .service => if s.boot.serviceReady then 1 else 0

/-- The highest thermal level in force (R460). -/
def thermLevel (s : State) : Nat :=
  s.draught.levels.foldl (fun m l => max m (match l with | .die1 => 1 | .die2 => 2 | .stack _ => 3 | .flash _ => 4)) 0

/-- Looms and reeds out of service (R516). -/
def unitsOut (s : State) : Nat :=
  s.looms.looms.countP (·.2.out) + s.reeds.reeds.countP (·.2.out)

/-- Port p's bit set where the port is Active (R519). -/
def portsActive (s : State) : Nat :=
  (List.range 12).foldl (fun m p => m + b2n ((AMap.getD s.fabric.ports p {}).state == .active) * 2 ^ p) 0

/-- The lowest-numbered stage not yet ended while a start runs (R485), 0 outside a start; Kindling runs stages 1 and 3 (R488). -/
def stageNow (s : State) : Nat :=
  if !s.boot.starting then 0
  else if s.boot.kindling then (if s.boot.stages.contains 3 then 0 else 3)
  else ((List.range 9).map (· + 1)).find? (fun k => !s.boot.stages.contains k) |>.getD 0

/-- The highest-numbered stage of the last start that has begun (R551: DESIGN CHOICE, log entry 147): stages 5 and 6 begin with the
end of 4. -/
def stageReached (s : State) : Nat :=
  if !s.boot.released then 0
  else
    let ended := s.boot.stages.foldl max 0
    if s.boot.kindling then min 3 (ended + 2) else if ended = 4 then 6 else if ended = 9 || !s.boot.starting then ended else ended + 1

/-! ### Banks -/

/-- Whether the block of a bank is powered and brought up (R545): the always-on blocks always; in Kindling only the
Kindling bolt, the endpoint and the scheduler beside them; with the main rails off nothing else; looms and reeds not
while `VLOOM` is off in Banked. -/
def bankLatched (s : State) (b : Nat) : Bool :=
  if 221 ≤ b && b ≤ 223 then true
  else if !s.board.pwrGood then false
  else if s.boot.kindling then
    (if b < 128 then s.boot.kindlingBolt == some (b / 8)
     else if b < 156 then s.boot.kindlingBolt == some (b - 128)
     else 220 ≤ b)
  else if b < 156 then s.service.mode != .banked else true

/-- `BKIND` of a bank (R545). -/
def bankKind (b : Nat) : Nat :=
  if b < 128 then 0 else if b < 156 then 1 else if b < 176 then 2 else if b < 208 then 3 else if b < 220 then 4 else b - 215

/-- Whether the block of a bank is out of service (R516). -/
def bankOut (s : State) (b : Nat) : Bool :=
  if b < 128 then (AMap.getD s.looms.looms b {}).out
  else if b < 156 then (AMap.getD s.reeds.reeds (b - 128) {}).out else false

/-- Header fields of a bank (R545). -/
def bankHead (s : State) (b : Nat) : List (Nat × Nat × Nat) :=
  [(0, 2, b), (2, 1, bankKind b), (3, 1, b2n (bankLatched s b) + 2 * b2n (bankOut s b)),
   (4, 4, if b < 156 && bankLatched s b then Config.latchSkew s.fresh b % 3 else 0),
   (8, 4, if b < 156 then s.looms.monitors.getD b 0 else 0)]

/-- Code of an array phase (R546). -/
def ArrayPhase.code : ArrayPhase → Nat
  | .off => 0 | .rise => 1 | .load => 2 | .streaming => 3 | .drain => 4 | .fall => 5

/-- Shuttles of one engine in a state (R272, R275). -/
def engineCount (s : State) (loom engine : Nat) (st : ShState → Bool) : Nat :=
  s.prog.shuttles.countP (fun e => e.1 / 64 == 2 * loom + engine && st e.2.state)

/-- The program instance a loom is granted to (R299). -/
def loomInstance (s : State) (loom : Nat) : Option (Nat × Instance) :=
  s.prog.instances.find? (fun e => e.2.looms.contains loom)

/-- Fields of a loom bank (R546). Stall, tile and ordinal of an array at work follow from timing: free values. -/
def loomBank (s : State) (l : Nat) : List (Nat × Nat × Nat) :=
  let lm := AMap.getD s.looms.looms l {}
  let own := match lm.dq with
    | d :: _ => d.fn
    | [] => (loomInstance s l).elim 0xFFFF (·.2.fn)
  let inst := match lm.dq with
    | d :: _ => d.inst
    | [] => (loomInstance s l).elim 0 (·.1)
  let free (o : Nat) : Nat := Config.snapField s.fresh l o
  let waits := lm.dq.head?.any (fun d => d.row.isSome)
  [(16, 2, own), (18, 2, lm.dq.length), (20, 4, inst)] ++
  (List.range 4).flatMap (fun a =>
    let ph := AMap.getD lm.phase a .off
    let mode := (25 + 16 * a, 1, lm.dq.head?.elim 0 (fun d => field d.desc 0 1))
    if ph == .off then (if lm.waitRise.contains a then [mode, (27 + 16 * a, 1, 5)] else [])
    else [(24 + 16 * a, 1, ph.code), mode,
      (26 + 16 * a, 1, rampStage lm a),
      (27 + 16 * a, 1, if lm.waitRise.contains a then 5 else if waits then 3 else free (27 + 16 * a) % 5),
      (28 + 16 * a, 4, (lm.dq.head?.bind (·.tile)).getD (free (28 + 16 * a))), (32 + 16 * a, 8, free (32 + 16 * a))]) ++
  (List.range 2).flatMap (fun e =>
    [(88 + 4 * e, 1, engineCount s l e (· == .ready)), (89 + 4 * e, 1, engineCount s l e (· == .waitMem)),
     (90 + 4 * e, 1, engineCount s l e (fun x => match x with | .waitKnot _ => true | _ => false)),
     (91 + 4 * e, 1, engineCount s l e (· == .waitFetch))]) ++
  [(96, 4, lm.ce.toNat), (100, 4, lm.ue.toNat)]

/-- Whether a block is in service: a bolt whose looms and reed have all left it is not (R516). -/
def inService (s : State) (b : Nat) : Bool :=
  if b < 16 then (List.range 8).any (fun i => !(AMap.getD s.looms.looms (8 * b + i) {}).out) || !(AMap.getD s.reeds.reeds b {}).out
  else true

/-- Whether SELF_TEST may test the blocks of a mask (R151): in Kindling, and else none of them in service. -/
def testRuns (s : State) (mask : Nat) : Bool := s.boot.kindling || !(List.range 20).any (fun b => bit mask b && inService s b)

/-- Reeds that a SELF_TEST of a mask holds (R346, R531): those of its bolts, and with bit 18 those of the ports. -/
def reedsTested (mask : Nat) : BitVec 28 := BitVec.ofNat 28 (mask % 65536 + (if bit mask 18 then 0xFFF0000 else 0))

/-- `REED_MODE` (R346): with the reeds of the self-tests that run. -/
def reedMode (s : State) : BitVec 28 :=
  (s.sched.admitted.filter (fun a => a.cmd.opcode == 0x707 && a.phase == .running && testRuns s (a.p 32 4))).foldl
    (fun m a => m ||| reedsTested (a.p 32 4)) s.reeds.argmaxOnly

/-- Fields of a reed bank (R547). Keys taken so far and the pass follow from timing: free values. -/
def reedBank (s : State) (r : Nat) : List (Nat × Nat × Nat) :=
  let x := AMap.getD s.reeds.reeds r {}
  let ao := b2n ((reedMode s).getLsbD r)
  match x.running with
  | none => [(16, 1, 255), (17, 1, ao), (18, 2, x.queue.length), (42, 2, 0xFFFF), (44, 4, x.ue.toNat)]
  | some d =>
    let k := field d.desc 4 4
    [(16, 1, field d.desc 0 1), (17, 1, ao), (18, 2, x.queue.length), (20, 4, k), (24, 8, field d.desc 8 8),
     (32, 8, Config.snapField s.fresh (128 + r) 32),
     (40, 1, if k ≤ 1024 then 0 else if k ≤ 65536 && r < 16 then 1 else 2),
     (41, 1, Config.snapField s.fresh (128 + r) 41 % 3), (42, 2, d.fn), (44, 4, x.ue.toNat)]

/-- Code of a channel state (R548). -/
def ChanState.code : ChanState → Nat
  | .memory => 0 | .entry => 1 | .segment => 2 | .exit => 3 | .gap => 4 | .selfRefresh => 5

/-- Fields of a stack bank (R548). The hottest sensor is the reading last given for the stack. -/
def stackBank (s : State) (k : Nat) : List (Nat × Nat × Nat) :=
  let cs := (List.range 32).map (fun c => chanOf s (32 * k + c))
  let num (f : Chan → Nat) (w : Nat) : Nat := (cs.zipIdx).foldl (fun m e => m + f e.1 * 2 ^ (w * e.2)) 0
  let t := AMap.getD s.stk.tempX16 k 0
  [(16, 16, num (·.state.code) 4), (32, 32, num (·.held.length) 8),
   (64, 4, num (fun c => b2n c.owed) 1), (68, 4, num (fun c => b2n (16 ≤ c.queue.length)) 1),
   (72, 2, unsigned 16 t), (74, 1, AMap.getD s.stk.ioLevel k 0), (75, 1, b2n (1360 < t)),
   (76, 4, AMap.getD s.stk.ce k 0), (80, 4, AMap.getD s.stk.ue k 0),
   (84, 4, cs.foldl (fun n c => n + c.stopped.toNat) 0)]

/-- Fields of a flash-channel bank (R549). Whether a die that neither programs nor erases is idle, senses or transfers follows
from timing: a free value. -/
def flashBank (s : State) (c : Nat) : List (Nat × Nat × Nat) :=
  let dies := (List.range 16).map (fun d => dieOf s.flash (16 * c + d))
  let free (o : Nat) : Nat := Config.snapField s.fresh (176 + c) o
  let op (d : Die) (i : Nat) : Nat :=
    if d.failed then 5 else if d.programs ≠ [] then 3 else if dieErases s.flash (16 * c + i) then 4 else free (52 + i) % 3
  [(16, 1, AMap.getD s.flash.rateLevel c 0), (17, 1, b2n (s.draught.levels.contains (.flash c)))] ++
  (dies.zipIdx).flatMap (fun e => [(20 + 2 * e.2, 2, (dieQueue s (16 * c + e.2)).length), (52 + e.2, 1, op e.1 e.2)]) ++
  [(68, 4, AMap.getD s.flash.soft c 0), (72, 4, AMap.getD s.flash.rebuilt c 0),
   (76, 4, dies.foldl (fun n d => n + (List.range 828).countP (fun b => (blockSetOf d b).state == .free)) 0)]

/-- Fields of a port bank (R550). -/
def portBank (s : State) (p : Nat) : List (Nat × Nat × Nat) :=
  let x := portOf s p
  [(16, 1, x.state.code), (17, 1, x.width), (18, 2, x.peer.toNat), (20, 2, x.txFseq.toNat), (22, 2, x.rxFseq.toNat),
   (24, 4, x.held.length), (28, 4, x.ctrlCredits), (32, 4, x.dataCredits),
   (36, 4, s.fabric.retained.countP (fun r => r.port == p && r.sends != 0)),
   (40, 4, (s.fabric.colls.find? (fun c => c.begun)).elim 0 (·.seq)), (44, 1, slotsUsed s p),
   (48, 12, leNat ((portEntry x).drop 4))]

/-- Fields of banks 220 to 224 (R551). The LTSSM code and the requests outstanding follow from
timing, and there is no time since release before reset is released: free values. -/
def singleBank (s : State) (b : Nat) : List (Nat × Nat × Nat) :=
  let free (o : Nat) : Nat := Config.snapField s.fresh b o
  match b with
  | 220 => [(16, 1, free 16), (17, 1, s.link.rate), (18, 1, s.link.width), (19, 1, b2n s.link.flit),
      (20, 4, free 20), (24, 4, (fnOf s 0).cfg.uncStatus.toNat), (28, 4, (fnOf s 0).cfg.corStatus.toNat)]
  | 221 => [(16, 1, stageReached s), (17, 1, b2n s.glaesh.katPass), (18, 1, s.fns.countP (·.2.session)),
      (20, 4, s.glaesh.minSvn.toNat), (24, 4, s.glaesh.fwSvn.toNat)]
  | 222 => [(16, 2, s.draught.capW.toNat), (18, 2, s.draught.vloomMv.toNat), (20, 1, thermLevel s)] ++
      (List.range 7).map (fun d => (22 + 2 * d, 2, (AMap.getD s.draught.grants (d + 1) 0).toNat)) ++
      (List.range 4).map (fun p => (36 + 2 * p, 2, (AMap.getD s.draught.parts p {}).shareW.toNat))
  | 223 => [(16, 1, stageNow s), (17, 1, s.boot.failCount.toNat), (18, 1, s.boot.slotRun.toNat),
      (19, 1, s.boot.cause.toNat), (20, 4, if s.boot.released then (s.time - s.boot.releasedAt).toNat / 100000 else free 20)]
  | _ => [(16, 8, s.sched.vtime.toNat), (24, 2, s.sched.admitted.length), (26, 2, beyondReserves s),
      (28, 2, s.fns.countP (fun e => (candidate s e.1).isSome)), (30, 2, s.sched.shapers.countP (fun e => decide (e.2.tokens < 0)))]

/-- The 256 bytes of a bank at the latch (R544-R551); zero from byte 16 where the block is not latched. -/
def bankBytes (s : State) (b : Nat) : List Byte :=
  lay 256 (bankHead s b ++
    (if !bankLatched s b then []
     else if b < 128 then loomBank s b
     else if b < 156 then reedBank s (b - 128)
     else if b < 176 then stackBank s (b - 156)
     else if b < 208 then flashBank s (b - 176)
     else if b < 220 then portBank s (b - 208)
     else singleBank s b))

/-- All banks, as the store will hold them (R521). -/
def latchAll (s : State) : Mem := (List.range 225).flatMap (fun b => cellsAt (256 * b) (bankBytes s b))

/-- The trigger fires (R522): while frozen it only counts; else every bank latches, the sequence number rises, event 6
is posted, and TRIG_OUT pulses for every source but TRIG_IN (source 1). -/
def fireSnapshot (s : State) (source : Nat) : State :=
  if s.service.frozen then { s with service := { s.service with missed := satAdd s.service.missed 1 } }
  else
    let seq := s.service.snapSeq + 1
    let s := { s with
      fresh := s.fresh + 1
      service := { s.service with
        frozen := true, valid := false, snapSeq := seq, snapSource := BitVec.ofNat 8 source, snapTime := s.time
        latched := latchAll s } }
    let s := postEvent s 0 6 seq (BitVec.ofNat 32 source) s.time
    if source = 1 then s else emit s .trigOut

/-- An internal source whose SRC bit is set is due to fire (R522): bit i is source i + 1. -/
def causeSnap (s : State) (i : Nat) : State :=
  if s.service.snapSrc.getLsbD i then { s with service := { s.service with snapDue := s.service.snapDue ++ [i] } } else s

end Sys2Proof.Machine
end

