-- ==== Sys2Proof/Machine/Aperture.lean ====
section
/-! DEFINITION. Host access through apertures (R85, R155, R156, R159, R162, R163, R172-R175, R177, R188, R202), with the
holding of requests on a channel that is not in memory mode (R210, R211). -/

namespace Sys2Proof.Machine
open Sys2Proof

/-- The object-space address of a BAR 0 offset through an enabled aperture (R84, R85). -/
def apertureAddr (s : State) (f off : Nat) : Option Nat :=
  if off < 2 ^ 32 || 2 ^ 33 ≤ off then none
  else
    let n := off / 2 ^ 30 - 4
    let x := fnOf s f
    if x.apEn.getLsbD n then some ((AMap.getD x.apBase n 0).toNat * 2 ^ 30 + off % 2 ^ 30) else none

/-- After a read of a Peat granule: a cached copy, a move Near, or nothing, by the hint (R163). -/
def afterPeatRead (s : State) (oid ver g : Nat) : State :=
  match objOf s oid with
  | none => s
  | some o =>
    let c := channelOf s oid g
    match o.hint.toNat with
    | 0 =>
      if channelUsed s c + channelCached s c < channelFrames c then
        updFrame s oid ver g (fun fr => if fr.tier == .peat then { fr with tier := .cached } else fr)
      else s
    | 1 | 3 =>
      if nearRoom s oid g && !(s.space.moves.any (fun m => m.obj == oid && m.ver == ver && m.gran == g)) &&
        !(o.frames.any (fun fr => fr.ver == ver && fr.gran == g && fr.full)) then
        { s with space := { s.space with moves := s.space.moves ++ [⟨oid, ver, g, .near⟩] } }
      else s
    | _ => s

/-- A failed or late aperture read: Completer Abort, logged and counted (R173). -/
def apertureFail (s : State) (f : Nat) : State :=
  emit (logUncorrectable (updFn s f (fun x => { x with tierFail := satAdd x.tierFail 1 })) f aerAbort) (.completerAbort f)

/-- Bytes that an aperture read of a version of an object returns, zero beyond its size (R155). -/
def objectBytes (o : Obj) (ver off n : Nat) : List Byte := (Mem.cut (verBytes o ver) (verSize o ver)).readBytes off n

/-- Blocks of a granule that a read from an offset in it met errors in, by their number from the read's first block. -/
def eccBlocks (off : Nat) (ecc : List (Nat × Ecc)) (e : Ecc) : List Nat :=
  (ecc.filter (fun x => x.2 == e && decide (off % granule / 64 + x.1 < 1024))).map (fun x => off % granule / 64 + x.1)

/-- A read of the near tier that meets an uncorrectable block: Completer Abort (R516). -/
def eccFail (s : State) (f : Nat) : State :=
  emit (logUncorrectable s f aerAbort) (.completerAbort f)

/-- An aperture read of a version of an object: served, or left waiting for flash (R155, R159, R172, R173), its errors in the
near tier counted and contained (R516). -/
def serveObject (s : State) (f bar oid off ver n : Nat) (ecc : List (Nat × Ecc)) : State :=
  match objOf s oid with
  | none => emit s (.readData f (List.replicate n 0#8))
  | some o =>
    let wait (s : State) (fr : Frame) : State := queueRead
      { s with space := { s.space with apReads := s.space.apReads ++ [⟨f, bar, n, oid, off, ver, now s⟩] } } (.aperture f bar n) oid fr none
    match (verOf o ver).bind (fun v => frameOf o v (off / granule)) with
    | none => chargePcie (emit s (.readData f (objectBytes o ver off n))) f n
    | some fr =>
      if fr.tier == .peat then wait s fr
      else
        let c := eccBlocks off ecc .corrected
        let u := eccBlocks off ecc .uncorrectable
        let stack := channelOf s oid (off / granule) / 32
        let s := (List.replicate c.length Ecc.corrected ++ List.replicate u.length Ecc.uncorrectable).foldl (fun s e => countEcc s stack e) s
        let s := if u.isEmpty then s else spoil s oid fr.ver (off / granule) u
        if fr.tier != .near && !u.isEmpty then wait s fr
        else if (objOf s oid).any (fun o => eccRange o ver off n) then eccFail s f
        else chargePcie (emit (touchRange s oid ver off n) (.readData f (objectBytes o ver off n))) f n

/-- An aperture read that has reached the object space (R155). -/
def serveRead (s : State) (f bar addr n : Nat) (ecc : List (Nat × Ecc)) : State :=
  match resolve s f addr with
  | .unassigned => emit (violate s f 1) (.readData f (List.replicate n 0#8))
  | .quiet => emit s (.readData f (List.replicate n 0#8))
  | .bytes oid off => serveObject s f bar oid off ((objOf s oid).elim 0 (·.current)) n ecc

/-- Bytes of an aperture write put into one granule of a data object (R162, R175, R188, R202): Near, brought Near where
the hint and the room allow, or rewritten on the peat tier; a write of part of a lost granule fails. -/
def storeGranule (s : State) (f oid off : Nat) (bs : List Byte) : State :=
  match objOf s oid with
  | none => s
  | some o =>
    match verOf o o.current with
    | none => s
    | some v =>
      let g := off / granule
      let lost := updFn s f (fun x => { x with tierFail := satAdd x.tierFail 1 })
      match frameOf o v g with
      | none => putBytes s oid off bs
      | some fr =>
        if fr.tier == .near then putBytes (dropMove s oid fr.ver g) oid off bs
        else
          let whole := decide (off % granule = 0) && decide (min (v.size - g * granule) granule ≤ bs.length)
          if fr.lost && !whole then lost
          else if o.hint != 2 && nearRoom s oid g then
            let s := dropCached (dropMove s oid fr.ver g) (channelOf s oid g)
            let s := updFrame s oid fr.ver g (fun x => { x with tier := .near, lost := false })
            reviewHint (putBytes { s with flash := unmap s.flash oid fr.ver g } oid off bs) oid
          else if 4096 ≤ s.flash.headroom then
            match rewrite s oid g (off % granule) bs.length none with
            | some s => putBytes s oid off bs
            | none => lost
          else lost

/-- The pieces of a range that lie in one granule each. -/
def granulePieces : Nat → Nat → List Byte → List (Nat × List Byte)
  | 0, _, _ => []
  | k + 1, off, bs =>
    if bs.isEmpty then []
    else
      let n := granule - off % granule
      (off, bs.take n) :: granulePieces k (off + n) (bs.drop n)

/-- An aperture write into an object: only a data object takes it (R155, R159). -/
def writeObject (s : State) (f oid off : Nat) (bs : List Byte) : State :=
  match liveObj s oid with
  | none => s
  | some o =>
    if o.kind != .data then s
    else
      let bs := bs.take (verSize o o.current - off)
      (granulePieces (bs.length / granule + 2) off bs).foldl (fun s p => storeGranule s f oid p.1 p.2) s

/-- Bytes that the node itself writes into a data object, piece by piece: where a channel holds ordinary requests the write waits
its turn there (R210). -/
def nodeWrite (s : State) (f oid off : Nat) (bs : List Byte) : State :=
  (granulePieces (bs.length / granule + 2) off bs).foldl (fun s p =>
    let ver := (objOf s oid).elim 0 (·.current)
    match holdingChan s oid ver p.1 with
    | some c => holdRequest s c ⟨f, .node, p.1, oid, p.1, ver, p.2.length, .write p.2, []⟩
    | none => storeGranule s f oid p.1 p.2) s

/-- An aperture write that has reached the object space (R155, R159). -/
def serveWrite (s : State) (f addr : Nat) (bs : List Byte) : State :=
  match resolve s f addr with
  | .unassigned => violate s f 1
  | .quiet => s
  | .bytes oid off => writeObject s f oid off bs

/-- The channel that holds a request to an address now, with the object, offset and current version (R172, R210). -/
def heldOn (s : State) (f addr : Nat) : Option (Nat × Nat × Nat × Nat) :=
  match resolve s f addr with
  | .bytes oid off =>
    let cur := (objOf s oid).elim 0 (·.current)
    (holdingChan s oid cur off).map (fun c => (c, oid, off, cur))
  | .quiet | .unassigned => none

/-- R85, R155, R172, R173, R516: an aperture read. -/
def execApertureRead (f : Fn) (offset length : Nat) (ecc : List (Nat × Ecc)) (s : State) : Out :=
  if !barReady s f then .next s
  else if !barLive s f then .next (emit s (.readData f (List.replicate length 0#8)))
  else match apertureAddr s f offset with
    | none => .next (emit s (.readData f (List.replicate length 0#8)))
    | some addr =>
      match heldOn s f addr with
      | some (c, oid, off, ver) => .next (holdRequest s c ⟨f, .aperture, offset, oid, off, ver, length, .read, ecc⟩)
      | none => .next (serveRead s f offset addr length ecc)

/-- R85, R155, R175: an aperture write. -/
def execApertureWrite (f : Fn) (offset : Nat) (data : List Byte) (s : State) : Out :=
  if !barLive s f then .next s
  else match apertureAddr s f offset with
    | none => .next s
    | some addr =>
      match heldOn s f addr with
      | some (c, oid, off, ver) => .next (holdRequest s c ⟨f, .aperture, offset, oid, off, ver, data.length, .write data, []⟩)
      | none => .next (chargePcie (serveWrite s f addr data) f data.length)

/-- R173: 8 ms have passed since the read arrived: Completer Abort. -/
def execApertureReadTimeout (f : Fn) (offset : Nat) (s : State) : Out :=
  match s.space.apReads.find? (fun r => r.fn == f && r.bar == offset) with
  | none => .next s
  | some r =>
    let s := advanceTo s (r.arrived + 800000)
    .next (apertureFail (freeVersions { s with space := { s.space with apReads := s.space.apReads.erase r } } r.oid) f)

end Sys2Proof.Machine
end

