-- ==== Sys2Proof/Machine/Access.lean ====
section
/-! DEFINITION. How commands reach objects (R128-R131, R169, R181, R182): targets of a command, bytes of a source, lost
granules, the violation count of a command, and the ends it may come to. -/

namespace Sys2Proof.Machine
open Sys2Proof

/-- Whether an own target is missing (item 1 of R131). -/
def Target.isMissing : Target → Bool
  | .missing => true
  | _ => false

/-- Whether a readable target has a property that ends the command (item 2 of R131); outside the rights nothing does. -/
def Target.bad (t : Target) (p : Obj → Bool) : Bool := t.obj?.any p

/-- A command that met a target outside its rights adds one to its function's violation counter, once (R130). -/
def countForeign (s : State) (a : Adm) (met : Bool) : State := if met then violate s a.fn 1 else s

/-- Whether an object is a data object. -/
def Obj.isData (o : Obj) : Bool := o.kind == .data

/-- Whether an object is a filter bitmap. -/
def Obj.isBitmap (o : Obj) : Bool := o.kind == .bitmap

/-- Whether an object is a list or graph index. -/
def Obj.isIndex (o : Obj) : Bool :=
  match o.kind with
  | .listIndex _ _ _ => true
  | .graphIndex _ _ _ => true
  | _ => false

/-- Whether an object is an embedding table. -/
def Obj.isTable (o : Obj) : Bool :=
  match o.kind with
  | .table _ _ _ _ _ _ => true
  | _ => false

/-- The image of an object that a command reads: that of the version it pinned (R169). -/
def pinnedBytes (a : Adm) (oid : Nat) (o : Obj) : Mem := verBytes o (pinnedVer a oid)

/-- The size of the version a command pinned. -/
def pinnedSize (a : Adm) (oid : Nat) (o : Obj) : Nat := verSize o (pinnedVer a oid)

/-- Whether a range passes the end of the version a command pinned. -/
def beyond (a : Adm) (oid : Nat) (o : Obj) (off n : Nat) : Bool := decide (pinnedSize a oid o < off + n)

/-- Bytes of a source; zeros outside the function's rights (R129). -/
def readTarget (a : Adm) (oid : Nat) (t : Target) (off n : Nat) : List Byte :=
  match t.obj? with
  | some o => (pinnedBytes a oid o).readBytes off n
  | none => List.replicate n 0#8

/-- Whether the read of a source range fails (R181, R516). -/
def readFails (m : Bad) (a : Adm) (oid : Nat) (t : Target) (off n : Nat) : Bool :=
  t.obj?.any (fun o => rangeBad m o (pinnedVer a oid) off n)

/-- A request of a function ended by a failed peat-tier read is counted (R181). -/
def countTierFail (s : State) (f : Nat) : State := updFn s f (fun x => { x with tierFail := satAdd x.tierFail 1 })

/-- The command ends with TIER_FAIL (R181, R182). -/
def tierFailed (s : State) (a : Adm) : State := fail (countTierFail s a.fn) a.cmd.cid stTierFail

/-- The command ends with TIER_FAIL where a read failed on the peat tier (R181, R182), with INTERNAL where it met an
uncorrectable block of the near tier (R516). -/
def readFailed (s : State) (a : Adm) (lost : Bool) : State := if lost then tierFailed s a else fail s a.cmd.cid stInternal

/-- Energy of near-tier accesses in memory mode (R466). -/
def chargeNear (s : State) (f n : Nat) : State := charge s f (620 * ceilDiv n 64) false

/-- Energy of reed keys (R466), with the keys counted (R357). -/
def countKeys (s : State) (f n : Nat) : State :=
  charge { s with reeds := { s.reeds with keys := s.reeds.keys + BitVec.ofNat 64 n } } f (40 * n) true

/-- A selection of this k is counted by its spill storage (R347, R357). -/
def countSpill (s : State) (k : Nat) : State :=
  if k ≤ 1024 then s
  else if k ≤ 65536 then { s with reeds := { s.reeds with weave := satAdd s.reeds.weave 1 } }
  else { s with reeds := { s.reeds with large := satAdd s.reeds.large 1 } }

/-- The k of a selection command, 0 for others (R348). -/
def Cmd.selectK (c : Cmd) : Nat :=
  match c.opcode with
  | 0x206 | 0x207 => c.p 40 4
  | 0x300 | 0x301 => c.p 52 4
  | 0x403 => c.p 52 4
  | 0x602 => if c.p 36 1 = 2 then c.p 72 4 else 0
  | _ => 0

/-- The k of a selection command that takes spill storage in the reserved near tier (R347), else 0: above 65,536 in a bolt reed,
above 1,024 in the port reeds of a collective. -/
def Cmd.selectLarge (c : Cmd) : Nat :=
  if (if c.opcode = 0x602 then 1024 else 65536) < c.selectK then c.selectK else 0

/-- Reserved near-tier bytes that large selections hold (R348): commands whose selection has begun, merges
of top-k collectives, and running reed descriptors. -/
def largeHeld (s : State) : Nat :=
  s.sched.admitted.foldl (fun n a => match a.phase with
    | .done r => if r.status < stInvalidOpcode then n + 48 * a.cmd.selectLarge else n
    | _ => n) 0 +
  s.fabric.colls.foldl (fun n c => if c.begun && c.kind == 2 && c.self == c.root && decide (1024 < c.k) then n + 48 * c.k else n) 0 +
  (AMap.vals s.reeds.reeds).foldl (fun n x => match x.running with
    | some d => if 65536 < field d.desc 4 4 then n + 48 * field d.desc 4 4 else n
    | none => n) 0

/-- Whether a selection that needs spill storage in the reserved near tier for this k finds it (R347, R348): 4 GiB for all of them. -/
def largeFits (s : State) (k : Nat) : Bool := k == 0 || decide (largeHeld s + 48 * k ≤ 2 ^ 32)

/-- An entry of the 24-byte format (R142). -/
structure Entry where
  item : Nat
  ordinal : Nat
  score : Word
  occ : Nat
deriving DecidableEq, Repr

/-- Result entry bytes (R142); the occurrence count saturates, bytes 22 and 23 are zero. -/
def Entry.bytes (e : Entry) : List Byte :=
  toLE 8 e.item ++ toLE 8 e.ordinal ++ toLE 4 e.score.toNat ++ toLE 2 (min e.occ 65535) ++ [0, 0]

/-- An input entry (R144). -/
def Entry.ofBytes (bs : List Byte) : Entry :=
  ⟨field bs 0 8, field bs 8 8, BitVec.ofNat 32 (field bs 16 4), field bs 20 2⟩

/-- `n` records of `w` bytes each of a byte string. -/
def records (w n : Nat) (bs : List Byte) : List (List Byte) := (List.range n).map (fun i => slice bs (w * i) w)

/-- The rank of an entry (R338); behind every rank for a NaN. -/
def Entry.rank (sim : Bool) (e : Entry) : Nat × Nat := (rankOf sim e.score e.ordinal).getD (2 ^ 32, e.ordinal)

/-- Entries in ascending rank, equal ranks in their order of entry (R338, R339). -/
def byRank (sim : Bool) (es : List Entry) : List Entry := sortBy (fun a b => rankLt (a.rank sim) (b.rank sim)) es

/-- The first entry of each item. -/
def firstOfItem : List Entry → List Entry
  | [] => []
  | e :: es => e :: (firstOfItem es).filter (fun x => x.item != e.item)

/-- The valid entries of an input and the number of NaN scores (R29). -/
def validEntries (es : List Entry) : List Entry × Nat :=
  (es.filter (fun e => !isNan e.score), es.countP (fun e => isNan e.score))

/-- Entries collapsed by item (R35, R341): each item's best entry in rank order, with the sum of max(1, OCCURRENCES)
over its entries (R342). -/
def collapse (sim : Bool) (es : List Entry) : List Entry :=
  (firstOfItem (byRank sim es)).map (fun e => { e with
    occ := (es.filter (fun x => x.item == e.item)).foldl (fun n x => n + max 1 x.occ) 0 })

/-- The k best of valid entries, collapsed first where asked (R36, R340, R341). -/
def topK (sim dedup : Bool) (k : Nat) (es : List Entry) : List Entry :=
  (if dedup then collapse sim es else byRank sim es).take k

/-- Entries as bytes. -/
def entryBytes (es : List Entry) : List Byte := es.flatMap Entry.bytes

end Sys2Proof.Machine
end

