-- ==== Sys2Proof/Machine/ObjectOps.lean ====
section
/-! DEFINITION. Writes of commands into objects (R135, R158, R166, R167, R182), their order among one object's versions
(R140, R382), and creation. -/

namespace Sys2Proof.Machine
open Sys2Proof

/-- The bytes of a write that fall into granule g. -/
def granulePart (off : Nat) (bs : List Byte) (g : Nat) : Nat × List Byte :=
  let lo := max off (g * granule)
  let hi := min (off + bs.length) ((g + 1) * granule)
  (lo, (bs.drop (lo - off)).take (hi - lo))

/-- A write of bytes into a data object, granule by granule in ascending offset, up to the first granule whose source
fails or whose lost content it would keep in part (R182). The granules written come back, and whether all were. -/
def writeData (s : State) (oid off : Nat) (bs : List Byte) (srcFails : Nat → Bool) (cid : Option Nat) :
    Option (State × Nat × Bool) :=
  let rec go (s : State) (n : Nat) : List Nat → Option (State × Nat × Bool)
    | [] => some (s, n, true)
    | g :: gs =>
      let (lo, part) := granulePart off bs g
      let partial' := (objOf s oid).any (fun o => part.length != granule && lostRange o o.current lo part.length)
      if srcFails g || partial' then some (s, n, false)
      else
        match rewrite s oid g (lo % granule) part.length cid with
        | none => none
        | some s => go (putBytes s oid lo part) (n + 1) gs
  go s 0 (rangeGranules off bs.length)

/-- Whether no mutation of an object admitted before a command is still to take its place among the versions (R108,
R140, R382). -/
def mutationTurn (s : State) (a : Adm) (oid : Nat) : Bool :=
  s.sched.admitted.all (fun b => !(decide (b.seq < a.seq) && b.phase == .running &&
    [0x102, 0x104, 0x203, 0x204, 0x404].contains b.cmd.opcode && (makesVersionOf s b.cmd).contains oid))

/-- A new version of a filter bitmap with bytes written (R166, R167). -/
def writeBitmap (s : State) (a : Adm) (oid off : Nat) (bs : List Byte) : State :=
  match objOf s oid with
  | none => s
  | some o =>
    match makeVersion s oid o.tip ((verBytes o o.tip).write off bs) (verSize o o.tip) (rangeGranules off bs.length)
      (fun _ => false) (some a.cmd.cid) with
    | none => fail s a.cmd.cid stNoSpace
    | some (s, n) => finish (owe s a.cmd.cid n) a.cmd.cid { version := BitVec.ofNat 32 n }

/-- Whether the old content that a bitmap write keeps of its granules cannot be read (R182, R516). -/
def bitmapCopyFails (m : Bad) (o : Obj) (off n : Nat) : Bool :=
  (rangeGranules off n).any (fun g =>
    (lostRange o o.tip (g * granule) granule && !(decide (off ≤ g * granule) && decide ((g + 1) * granule ≤ off + n))) ||
    rangeBad m o o.tip (g * granule) (off - g * granule) || rangeBad m o o.tip (off + n) ((g + 1) * granule - (off + n)))

/-- A write of a command into its destination, whose source may fail from some destination granule on (R135, R182). -/
def writeTo (s : State) (a : Adm) (oid : Nat) (t : Target) (off : Nat) (bs : List Byte) (srcFails : Nat → Bool)
    (failing : State → Nat → State) : State :=
  let cid := a.cmd.cid
  match t with
  | .own o =>
    if o.isBitmap then
      if (rangeGranules off bs.length).any srcFails then failing s 0
      else if bitmapCopyFails .any o off bs.length then readFailed s a (bitmapCopyFails .lost o off bs.length)
      else writeBitmap s a oid off bs
    else
      match writeData s oid off bs srcFails (some cid) with
      | none => fail s cid stNoSpace
      | some (s, n, whole) => if whole then finish s cid {} else failing s n
  | _ => if (rangeGranules off bs.length).any srcFails then failing s 0 else finish s cid {}

/-- The end of a write whose source failed on the peat tier (R182). -/
def writeTierFail (a : Adm) (s : State) (n : Nat) : State :=
  finish (countTierFail s a.fn) a.cmd.cid { status := stTierFail, count := BitVec.ofNat 32 n }

/-- The end of a write whose source or destination could not be read after n granules: INTERNAL where an uncorrectable
block stopped it (R516), else TIER_FAIL (R182). -/
def writeReadFail (a : Adm) (ecc : Nat → Bool) (s : State) (n : Nat) : State :=
  if ecc n then finish s a.cmd.cid { status := stInternal, count := BitVec.ofNat 32 n } else writeTierFail a s n

/-- The end of a write whose host read failed (R91, R182). -/
def writeHostFail (a : Adm) (s : State) (n : Nat) : State :=
  finish s a.cmd.cid { status := stInternal, count := BitVec.ofNat 32 n }

/-- A function's entries leave the feature cache (R378): at a new image and at every new table version. -/
def dropFeatures (s : State) (f : Nat) : State :=
  { s with fabric := { s.fabric with features := s.fabric.features.filter (fun e => e.fn != f) } }

/-- Whether an object of a kind, once made, empties the function's entries of the feature cache (R378). -/
def ObjKind.dropsFeatures (k : ObjKind) : Bool :=
  match k with
  | .program | .table .. => true
  | _ => false

/-- A created object as a command's outcome (R127, R158): NO_SPACE where it cannot be made. -/
def created (s : State) (a : Adm) (kind : ObjKind) (hint : BitVec 8) (bytes : Mem) (size : Nat) (full : FullTest) : State :=
  match createObj s a.fn kind hint bytes size full (some a.cmd.cid) with
  | none => fail s a.cmd.cid stNoSpace
  | some (s, oid) => finish (reviewHint (if kind.dropsFeatures then dropFeatures s a.fn else s) oid) a.cmd.cid
      { value := BitVec.ofNat 32 oid, version := if kind.versioned && kind != .bitmap then 1 else 0 }

end Sys2Proof.Machine
end

