-- ==== Sys2Proof/Machine/ProgOps.lean ====
section
/-! DEFINITION. What programs share (R274-R278, R287-R293, R300-R304): shuttle registers and addresses, knots, step
boundaries, task completion, and the end of an instance. -/

namespace Sys2Proof.Machine
open Sys2Proof

/-! ### Shuttles -/

/-- A shuttle (R274). -/
def shuttleOf (s : State) (sh : Nat) : Shuttle := AMap.getD s.prog.shuttles sh {}

/-- A shuttle replaced. -/
def putShuttle (s : State) (sh : Nat) (x : Shuttle) : State := { s with prog := { s.prog with shuttles := AMap.insert s.prog.shuttles sh x } }

/-- A shuttle changed. -/
def updShuttle (s : State) (sh : Nat) (g : Shuttle → Shuttle) : State := putShuttle s sh (g (shuttleOf s sh))

/-- A general register; g0 reads zero (R274). -/
def Shuttle.reg (x : Shuttle) (r : Nat) : BitVec 64 := if r = 0 then 0 else AMap.getD x.g r 0

/-- A general register written; a write to g0 is discarded (R274). -/
def Shuttle.setReg (x : Shuttle) (r : Nat) (v : BitVec 64) : Shuttle := if r = 0 then x else { x with g := AMap.put x.g r v 0 }

/-- A vector register. -/
def Shuttle.vec (x : Shuttle) (r : Nat) : BitVec 512 := AMap.getD x.v r 0

/-- A vector register written. -/
def Shuttle.setVec (x : Shuttle) (r : Nat) (v : BitVec 512) : Shuttle := { x with v := AMap.put x.v r v 0 }

/-! ### Instances -/

/-- An instance changed. -/
def updInst (s : State) (no : Nat) (g : Instance → Instance) : State :=
  match AMap.get? s.prog.instances no with
  | some i => { s with prog := { s.prog with instances := AMap.insert s.prog.instances no (g i) } }
  | none => s

/-- The image that an instance runs. -/
def imageOf (s : State) (i : Instance) : Mem := (objOf s i.image).elim [] (fun o => verBytes o 0)

/-- The plan that an instance runs. -/
def instPlan (s : State) (i : Instance) : Plan := planOf (imageOf s i) i.plan

/-- An access outside the rights counts once in each step of the instance (R277). -/
def progViolate (s : State) (no : Nat) : State :=
  match AMap.get? s.prog.instances no with
  | some i => if i.violated then s else updInst (violate s i.fn 1) no (fun i => { i with violated := true })
  | none => s

/-! ### Shuttle addresses (R276-R278) -/

/-- What a shuttle address names: a byte of the loom's weave store, of the object space, or nothing. -/
inductive ShAddr where
  | weave (off : Nat)
  | space (addr : Nat)
  | none
deriving DecidableEq, Repr

/-- The reading of a 64-bit shuttle address (R276). -/
def shAddr (a : Nat) : ShAddr :=
  if a < 2 ^ 50 then .space a
  else if 2 ^ 63 ≤ a && a < 2 ^ 63 + 2 ^ 21 then .weave (a - 2 ^ 63)
  else .none

/-- Whether n bytes from a weave-store offset lie in the instance's region on a loom (R276). -/
def inRegion (i : Instance) (loom off n : Nat) : Bool :=
  match AMap.get? i.wsBase loom with
  | some b => decide (b ≤ off) && decide (off + n ≤ b + i.wsBytes)
  | none => false

/-- The version a program's load reads of an object (R278): the slot's pin, else the current one. -/
def progVersion (i : Instance) (oid : Nat) (o : Obj) : Nat := (i.slots.find? (·.1 == oid)).elim o.current (·.2)

/-- Where an address of the object space lies for a program: object and offset, in its range but beyond its bytes
included; nothing where unassigned. -/
def progPlace (s : State) (f addr : Nat) : Option (Option (Nat × Nat)) :=
  let g := addr / granule
  match s.space.objs.find? (fun e => e.2.fn == f && !e.2.destroyed && e.2.kind.addressed &&
      decide (e.2.base / granule ≤ g) && decide (g < e.2.base / granule + e.2.span)) with
  | some (oid, o) => some (some (oid, addr - o.base))
  | none => match resolve s f addr with
    | .unassigned => none
    | _ => some none

/-- `n` bytes that a program reads, and whether the address is unassigned (R276-R278). -/
def progRead (s : State) (i : Instance) (loom a n : Nat) : List Byte × Bool :=
  match shAddr a with
  | .weave off => if inRegion i loom off n then (Mem.readBytes (loomOf s loom).ws off n, false) else (List.replicate n 0#8, true)
  | .none => (List.replicate n 0#8, true)
  | .space addr =>
    match progPlace s i.fn addr with
    | none => (List.replicate n 0#8, true)
    | some none => (List.replicate n 0#8, false)
    | some (some (oid, off)) => match objOf s oid with
      | none => (List.replicate n 0#8, false)
      | some o =>
        let v := progVersion i oid o
        (Mem.readBytes (Mem.cut (verBytes o v) (verSize o v)) off n, false)

/-- Whether the bytes a program reads are lost on the peat tier (R287) or uncorrectable in the near tier (R516). -/
def progBad (m : Bad) (s : State) (i : Instance) (a n : Nat) : Bool :=
  match shAddr a with
  | .space addr => match progPlace s i.fn addr with
    | some (some (oid, off)) => (objOf s oid).any (fun o => rangeBad m o (progVersion i oid o) off n)
    | _ => false
  | _ => false

/-- The object and offset that a shuttle's address names, and the version it reads, where it lies in an object (R276-R278). -/
def shPlace (s : State) (i : Instance) (a : Nat) : Option (Nat × Nat × Nat) :=
  match shAddr a with
  | .space addr => match progPlace s i.fn addr with
    | some (some (oid, off)) => (objOf s oid).map (fun o => (oid, off, progVersion i oid o))
    | _ => none
  | .weave _ | .none => none

/-- The channel that holds a shuttle's access to an address now, with the object, offset and version (R210). -/
def shHeld (s : State) (i : Instance) (a : Nat) : Option (Nat × Nat × Nat × Nat) :=
  (shPlace s i a).bind (fun p => (holdingChan s p.1 p.2.2 p.2.1).map (fun c => (c, p)))

/-- Whether `n` bytes from a shuttle's address lie in part on a channel that holds ordinary requests. -/
def shRangeHeld (s : State) (i : Instance) (a n : Nat) : Bool :=
  (shPlace s i a).any (fun p => rangeHeld s p.1 p.2.2 p.2.1 n)

/-- Bytes that a program writes (R276-R278): into its weave-store region or a data object; elsewhere discarded. -/
def progWrite (s : State) (no : Nat) (i : Instance) (loom a : Nat) (bs : List Byte) : State :=
  match shAddr a with
  | .weave off =>
    if inRegion i loom off bs.length then updLoom s loom (fun l => { l with ws := Mem.write l.ws off bs }) else progViolate s no
  | .none => progViolate s no
  | .space addr => match resolve s i.fn addr with
    | .unassigned => progViolate s no
    | .quiet => s
    | .bytes _ _ => serveWrite s i.fn addr bs

/-! ### Held requests (R210-R213) -/

/-- Stores of a shuttle that a channel holds or stalls (R286), and those and its atomics. -/
def postedStores (s : State) (sh : Nat) : Nat :=
  (heldRequests s).countP (fun h => match h.from', h.op with
    | .shuttle k _, .write _ => k == sh
    | _, _ => false)
def postedWrites (s : State) (sh : Nat) : Nat :=
  (heldRequests s).countP (fun h => match h.from', h.op with
    | .shuttle k _, .write _ => k == sh
    | .shuttle k _, .atomic _ _ _ => k == sh
    | _, _ => false)

/-- The value that a load of bytes leaves on its way to a register (R280). -/
def loadValue (extend : Bool) (bs : List Byte) : BitVec 512 :=
  if extend then (BitVec.ofInt 64 (signed (8 * bs.length) (leNat bs))).setWidth 512 else BitVec.ofNat 512 (leNat bs)

/-- The first outstanding operand that a channel held at an address has its value. -/
def fillOperand : List Operand → Nat → BitVec 512 → List Operand
  | [], _, _ => []
  | p :: ps, a, v => if p.held && p.addr == a then { p with value := v, held := false } :: ps else p :: fillOperand ps a v

/-- A shuttle of an instance gets the value of a request that was held. -/
def answerShuttle (s : State) (sh inst a : Nat) (v : BitVec 512) : State :=
  if (shuttleOf s sh).inst = inst then updShuttle s sh (fun x => { x with pending := fillOperand x.pending a v }) else s

/-- The new value of an atomic (R280). -/
def amoValue (fn : Nat) (old gb gd : BitVec 64) : BitVec 64 :=
  match fn with
  | 0 => old + gb
  | 1 => gb
  | _ => if old == gd then gb else old

/-- The bytes that a held request reads. -/
def requestBytes (s : State) (h : Held) : List Byte :=
  (objOf s h.oid).elim (List.replicate h.length 0#8) (fun o => objectBytes o h.ver h.off h.length)

/-- A held request is issued to the DRAM (R210, R213). -/
def serveHeld (s : State) (h : Held) : State :=
  match h.op, h.from' with
  | .read, _ => freeVersions (serveObject s h.fn h.place h.oid h.off h.ver h.length h.ecc) h.oid
  | .write bs, .aperture => chargePcie (writeObject s h.fn h.oid h.off bs) h.fn bs.length
  | .write bs, _ => writeObject s h.fn h.oid h.off bs
  | .load sx, .shuttle sh inst =>
    freeVersions (answerShuttle (touchRange s h.oid h.ver h.off h.length) sh inst h.place (loadValue sx (requestBytes s h))) h.oid
  | .atomic op gb gd, .shuttle sh inst =>
    let old : BitVec 64 := BitVec.ofNat 64 (leNat (requestBytes s h))
    answerShuttle (writeObject s h.fn h.oid h.off (toLE 8 (amoValue op old gb gd).toNat)) sh inst h.place (old.setWidth 512)
  | _, _ => s

/-- A stalled request is accepted in the gap, which is its arrival (R210, R213): it meets the version then current. -/
def serveStalled (s : State) (h : Held) : State :=
  serveHeld s (match h.op with
    | .read => { h with ver := (objOf s h.oid).elim h.ver (·.current) }
    | _ => h)

/-- Whether the loom's instruction buffer holds the line of a code offset (R273). -/
def lineHere (s : State) (image l pc : Nat) : Bool := (loomOf s l).lines.contains (image, pc / 256)

/-! ### Knots (R290-R293) -/

/-- An allocated knot. -/
def knotOf (s : State) (k : Nat) : Option Knot := AMap.get? s.prog.knots k

/-- A knot replaced. -/
def putKnot (s : State) (k : Nat) (x : Knot) : State := { s with prog := { s.prog with knots := AMap.insert s.prog.knots k x } }

/-- Whether a knot is satisfied (R290). -/
def Knot.satisfied (x : Knot) : Bool := decide (x.target.toNat ≤ x.counter.toNat)

/-- Every waiter on a knot is released: shuttles with an outcome in their register, commands with a status (R290, R292). -/
def releaseWaiters (s : State) (k : Nat) (outcome : BitVec 64) (st : Byte) : State :=
  let wake (e : Nat × Shuttle) : Nat × Shuttle :=
    if e.2.state = ShState.waitKnot k then (e.1, { e.2.setReg e.2.waitReg outcome with state := .ready }) else e
  let done (a : Adm) : Adm := if a.phase == Phase.waitKnot k then { a with phase := .done (.bare st) } else a
  { s with
    prog := { s.prog with shuttles := s.prog.shuttles.map wake }
    sched := { s.sched with admitted := s.sched.admitted.map done } }

/-- A knot freed: its shuttle waiters return 1, its command waiters end with NO_OBJECT (R292); the instance whose plan-local knot
it was has no knot in its place (R293). -/
def freeKnot (s : State) (k : Nat) : State :=
  let gone (i : Instance) : Instance := { i with knots := i.knots.map (fun n => if n = k then 65536 else n) }
  releaseWaiters { s with prog := { s.prog with
    knots := AMap.erase s.prog.knots k, instances := s.prog.instances.map (fun e => (e.1, gone e.2)) } } k 1 stNoObject

/-- Whether a function may be given a knot number (R293, R509): a Sealed one only knots of its bolts. -/
def knotOpen (s : State) (f k : Nat) : Bool :=
  (knotOf s k).isNone &&
  (if (fnOf s f).isSealed then (fnOf s f).bolts.contains (k % 16)
   else !(s.fns.any (fun e => e.2.isSealed && e.2.bolts.contains (k % 16))))

/-- The lowest free knot numbers of a function, n of them; none where there are fewer (R299). -/
def freeKnots (s : State) (f n : Nat) : Option (List Nat) :=
  let ks := ((List.range 65536).filter (knotOpen s f)).take n
  if ks.length = n then some ks else none

/-! ### When tasks may start (R297, R301) -/

/-- Whether a task may start: every knot it waits on is satisfied (R301). -/
def mayStart (s : State) (i : Instance) (t : Task) : Bool :=
  let ok (j : Nat) : Bool := j == noKnot || (knotOf s (i.knots.getD j 65536)).any Knot.satisfied
  ok t.wait0 && ok t.wait1

/-- The moments from which an instance's tasks may start, after a knot or a task has changed (R297): a waiting task's is that at
which its knots became satisfied, and it loses it where one of them is no longer. -/
def noteMay (s : State) (no : Nat) : State :=
  match AMap.get? s.prog.instances no with
  | none => s
  | some i =>
    let m := imageOf s i
    let p := instPlan s i
    let at' (t : Nat) : Option (Nat × Nat) :=
      match i.tasks[t]? with
      | some .waiting => if mayStart s i (taskOf m p t) then some (t, AMap.getD i.may t (now s)) else none
      | some .running => some (t, AMap.getD i.may t (now s))
      | some .complete | none => none
    updInst s no (fun i => { i with may := (List.range i.tasks.length).filterMap at' })

/-- The same for the instance that a knot belongs to. -/
def noteKnot (s : State) (x : Knot) : State := x.inst.elim s (noteMay s)

/-! ### The end of an instance (R303) -/

/-- What the exit record says (R303). -/
structure ExitInfo where
  code : Nat
  fault : Nat := 0
  pc : Nat := 0
  place : Nat := 0
  task : Nat := 0
  value : BitVec 64 := 0

/-- The 32 bytes of the exit record (R303). -/
def exitRecord (e : ExitInfo) (step : BitVec 64) : List Byte :=
  lay 32 [(0, 1, e.code), (1, 1, e.fault), (4, 4, e.pc), (8, 4, e.place), (12, 4, e.task), (16, 8, step.toNat), (24, 8, e.value.toNat)]

/-- The exit record written into the argument object, where it is still there (R300, R303); while its channel holds ordinary
requests the write is held before any later access to it (R210). -/
def writeExit (s : State) (i : Instance) (e : ExitInfo) : State :=
  match liveObj s i.argObj with
  | none => s
  | some o =>
    if i.argObj ≠ 0 && o.fn = i.fn && 64 ≤ verSize o o.current then nodeWrite s i.fn i.argObj 16 (exitRecord e i.step) else s

/-- A completion word in a weave store, which ends at 2 MiB (R244); where the word's own place is out of range, what of it lies
inside is written (DESIGN CHOICE, log entry 142). -/
def doneWord (ws : Mem) (desc : List Byte) (status rows : Nat) : Mem :=
  Mem.cut (Mem.write ws (arrOf desc).doneWs (toLE 4 status ++ toLE 4 rows)) 2097152

/-- Array descriptors of an instance, of every loom. -/
def instDescs (s : State) (no : Nat) : List ArrayDesc :=
  (AMap.vals s.looms.looms).flatMap (fun l => l.dq.filter (fun d => d.inst == no && d.pick.isNone))

/-- Array work of an instance stops (R94, R303): its descriptors leave their queues with STATUS 2 and the rows put out. -/
def stopArrays (s : State) (no : Nat) : State :=
  (s.looms.looms.map (·.1)).foldl (fun s l =>
    let gone := (loomOf s l).dq.filter (fun d => d.inst == no && d.pick.isNone)
    let s := if gone.isEmpty then s else updLoom s l (fun x => { x with
      ws := gone.foldl (fun m d => doneWord m d.desc 2 (d.done / max 1 (field d.desc 56 2))) x.ws })
    dropDescs s l (fun d => d.inst != no || d.pick.isSome)) s

/-- Reed descriptors of an instance, running or queued. -/
def instSelections (s : State) (no : Nat) : List ReedDesc :=
  (AMap.vals s.reeds.reeds).flatMap (fun x => (x.running.toList ++ x.queue).filter (fun d => d.inst == no))

/-- Selections of an instance stop: their completion words say so (R303, R354). -/
def stopSelections (s : State) (no : Nat) : State :=
  let ds := instSelections s no
  let s := { s with reeds := { s.reeds with reeds := s.reeds.reeds.map (fun e => (e.1, { e.2 with
    queue := e.2.queue.filter (fun d => d.inst != no), running := e.2.running.filter (fun d => d.inst != no) })) } }
  (AMap.get? s.prog.instances no).elim s (fun i =>
    ds.foldl (fun s d => progWrite s no i d.loom (field d.desc 48 8) (lay 16 [(0, 4, 2)])) s)

/-- Loads of an instance's shuttles that a channel still holds or stalls are given up; its stores and atomics are not. -/
def dropLoads (c : Chan) (no : Nat) : Chan :=
  let mine (h : Held) : Bool := match h.from', h.op with
    | .shuttle _ n, .load _ => n == no
    | _, _ => false
  { c with held := c.held.filter (fun h => !mine h), stalled := c.stalled.filter (fun h => !mine h) }

/-- Shuttles, array work, selections and segments not yet started of an instance stop (R94, R272, R303). -/
def stopWork (s : State) (no : Nat) : State :=
  let s := stopSelections (stopArrays s no) no
  let s : State := { s with stk := { s.stk with chans := s.stk.chans.map (fun e => (e.1, dropLoads e.2 no)) } }
  { s with
    prog := { s.prog with shuttles := s.prog.shuttles.map (fun e =>
      if e.2.inst = no then (e.1, { e.2 with state := .stopped, pending := [] }) else e) }
    stk := { s.stk with chans := s.stk.chans.map (fun e => (e.1, { e.2 with queue := e.2.queue.filter (fun g => g.owner != .inr no) })) }
    fabric := { s.fabric with colls := s.fabric.colls.filter (fun c => !(c.desc.any (fun d => (shuttleOf s d.1).inst == no))) } }

/-- The activities counted between two states are added to a running task (R464). -/
def meterTask (s s' : State) (no t f : Nat) : State :=
  if activity s' f = activity s f then s'
  else updInst s' no (fun i => match AMap.get? i.meters t with
    | some (t0, e) => { i with meters := AMap.insert i.meters t (t0, e + (activity s' f - activity s f)) }
    | none => i)

/-- Running tasks of an instance that end are observed (R464). -/
def observeTasks (s : State) (i : Instance) (ts : List Nat) : State :=
  ts.foldl (fun s t => match AMap.get? i.meters t with
    | some (t0, e) => observePhase s (.program i.fn i.image i.plan t) e (now s - t0)
    | none => s) s

/-- An instance ends (R303): its work stops, the exit record is written, stopped descriptors arrive at their knots (R244, R354), the
exit knot is arrived at, its knots are freed and its grants and pins released, the event posted, and PROG_STOP commands that wait for it end. -/
def endInstance (arr : State → Nat → State) (s : State) (no : Nat) (e : ExitInfo) : State :=
  match AMap.get? s.prog.instances no with
  | none => s
  | some i =>
    let knots := ((instDescs s no).filter (fun d => (arrOf d.desc).arrives)).map (fun d => (arrOf d.desc).knot % 65536) ++
      ((instSelections s no).filter (fun d => bit (field d.desc 1 1) 2)).map (fun d => field d.desc 32 2)
    let s := observeTasks (writeExit (stopWork s no) i e) i (i.meters.map (·.1))
    let s := { s with prog := { s.prog with
      instances := AMap.erase s.prog.instances no
      shuttles := s.prog.shuttles.filter (fun x => x.2.inst != no)
      faults := if 2 ≤ e.code && e.code ≤ 4 then satAdd s.prog.faults 1 else s.prog.faults } }
    let mine (k : Nat) (s : State) : Bool := (knotOf s k).any (fun x => x.fn == i.fn)
    let s := knots.foldl (fun s k => if mine k s then arr s k else s) s
    let s := i.exitKnot.elim s (fun k => if mine k s then arr s k else s)
    let s := i.knots.foldl freeKnot s
    let s := if e.code = 2 then causeSnap s 5 else s
    let s := postEvent s i.fn 1 (BitVec.ofNat 32 no) (BitVec.ofNat 32 (e.code + 256 * e.fault)) i.step
    freeAll { s with sched := { s.sched with admitted := s.sched.admitted.map (fun a =>
      if a.phase == .waitStop no then { a with phase := .done {} } else a) } }

/-- Slots pinned anew to the current versions (R300). -/
def repin (s : State) (slots : List (Nat × Nat)) : List (Nat × Nat) :=
  slots.map (fun x => (x.1, (liveObj s x.1).elim x.2 (fun o => if o.kind.versioned then o.current else 0)))

/-- A step boundary of an instance (R38, R302): the step number rises, slots are repinned, a pending stop is honoured. -/
def boundaryWith (arr : State → Nat → State) (s : State) (no : Nat) : State :=
  let s := freeAll (updInst s no (fun i => { i with step := i.step + 1, violated := false, slots := repin s i.slots }))
  match AMap.get? s.prog.instances no with
  | some i => if i.stopping then endInstance arr s no { code := 1 } else s
  | none => s

/-- An arrival at a knot (R290): the counter saturates; a knot that becomes satisfied releases its waiters and, marked
BOUNDARY, is a step boundary of its instance. The number bounds the instances that can end in the chain. -/
def arriveN : Nat → State → Nat → Nat → State
  | n, s, k, amount =>
    match knotOf s k with
    | none => s
    | some x =>
      let y := { x with counter := satAdd x.counter amount }
      let s := charge (putKnot s k y) x.fn 30 true
      if x.satisfied || !y.satisfied then s
      else
        let s := noteKnot (releaseWaiters s k 0 stOk) y
        match n, (if x.boundary then x.inst else none) with
        | n + 1, some no => boundaryWith (fun s k => arriveN n s k 1) s no
        | _, _ => s

/-- An arrival at a knot, whatever it sets off. -/
def arrive (s : State) (k amount : Nat) : State := arriveN (s.prog.instances.length + 1) s k amount

/-- An arrival on behalf of a function: at a knot outside its rights it is discarded (R129). -/
def arriveFor (s : State) (f k amount : Nat) : State := if (knotOf s k).any (fun x => x.fn == f) then arrive s k amount else s

/-- The end of an instance with its exit knot's arrival. -/
def instanceEnds (s : State) (no : Nat) (e : ExitInfo) : State := endInstance (fun s k => arrive s k 1) s no e

/-- An error in a loom's weave store (R516): a corrected one is counted; an uncorrectable one takes the loom out of service,
and the instance that used it ends with END 1. -/
def weaveError (s : State) (loom no : Nat) (e : Ecc) : State :=
  match e with
  | .clean => s
  | .corrected => updLoom s loom (fun l => { l with ce := satAdd l.ce 1 })
  | .uncorrectable => instanceEnds (updLoom s loom (fun l => { l with ue := satAdd l.ue 1, out := true })) no { code := 1 }

/-- A step boundary that no knot brings (R302). -/
def boundary (s : State) (no : Nat) : State := boundaryWith (fun s k => arrive s k 1) s no

/-- A knot set to a counter and a target (R291, R302): a satisfied one releases its waiters, and one that becomes
satisfied by it and is marked BOUNDARY is a step boundary of its instance. -/
def setKnot (s : State) (k : Nat) (counter target : BitVec 32) : State :=
  match knotOf s k with
  | none => s
  | some x =>
    let y := { x with counter := counter, target := target }
    let s := noteKnot (putKnot s k y) y
    if !y.satisfied then s
    else
      let s := releaseWaiters s k 0 stOk
      match (if x.boundary && !x.satisfied then x.inst else none) with
      | some no => boundary s no
      | none => s

/-- The place in the exit record: 128 x loom + shuttle (R303). -/
def faultInfo (s : State) (sh code fault : Nat) (pc : BitVec 32) (value : BitVec 64) : ExitInfo :=
  { code := code, fault := fault, pc := pc.toNat, place := sh, task := (shuttleOf s sh).task, value := value }

/-! ### Tasks (R301, R302) -/

/-- Whether every task of an instance has completed. -/
def allComplete (i : Instance) : Bool := i.tasks.all (· == .complete)

/-- What follows when every task has completed: a cyclic plan starts again at a boundary, another ends (R302). -/
def cycleOrEnd (s : State) (no : Nat) : State :=
  match AMap.get? s.prog.instances no with
  | none => s
  | some i =>
    if !allComplete i then s
    else if !(instPlan s i).cyclic then instanceEnds s no { code := 0 }
    else
      let s := { s with prog := { s.prog with knots := s.prog.knots.map (fun e =>
        if e.2.inst = some no && e.2.resetOnCycle then (e.1, { e.2 with counter := 0 }) else e) } }
      boundary (noteMay (updInst s no (fun i => { i with
        tasks := i.tasks.map (fun _ => .waiting), running := [], meters := [], may := [] })) no) no

/-- A task completes: its DONE_KNOT receives one arrival (R301). -/
def taskDone (s : State) (no t : Nat) : State :=
  match AMap.get? s.prog.instances no with
  | none => s
  | some i =>
    let k := (taskOf (imageOf s i) (instPlan s i) t).done
    let s := observeTasks s i [t]
    let s := updInst s no (fun i => { i with
      tasks := i.tasks.set t .complete, running := AMap.erase i.running t, meters := AMap.erase i.meters t })
    let s := if k = noKnot then s else arrive s (i.knots.getD k 65536) 1
    cycleOrEnd s no

/-- One part of a running task ends: a shuttle that halts, or a descriptor (R301). -/
def taskPart (s : State) (no t : Nat) : State :=
  match AMap.get? s.prog.instances no with
  | none => s
  | some i =>
    match AMap.get? i.running t with
    | none => s
    | some n => if n ≤ 1 then taskDone s no t else updInst s no (fun i => { i with running := AMap.insert i.running t (n - 1) })

end Sys2Proof.Machine
end

