-- ==== Sys2Proof/Machine/Select.lean ====
section
/-! DEFINITION. The selection commands (R144, R340-R345, R348, R349, R355). -/

namespace Sys2Proof.Machine
open Sys2Proof

/-- Bytes of one source entry of a selection opcode (R144). -/
def selectWidth (op : Nat) : Nat := match op with | 0x300 => 24 | 0x301 => 8 | _ => 4

/-- Bolt reeds open to a function (R337): those of its own bolts for a Sealed one, those of undedicated bolts for others, the
Kindling bolt's alone in Kindling (R346); one out of service takes no part (R516). -/
def openReeds (s : State) (f : Nat) : List Nat :=
  let x := fnOf s f
  let rs := if s.boot.kindling then s.boot.kindlingBolt.toList
    else if x.isSealed then x.bolts
    else (List.range 16).filter (fun b => !(s.fns.any (fun e => e.2.isSealed && e.2.bolts.contains b)))
  rs.filter (fun b => !(AMap.getD s.reeds.reeds b {}).out)

/-- The ranges of a selection of N entries (R349): first entry and length of each. -/
def rangesOf (s : State) (f n : Nat) : List (Nat × Nat) :=
  let b := max 1 (min (ceilDiv n 262144) (openReeds s f).length)
  let per := ceilDiv n b
  (List.range b).map (fun i => (i * per, min per (n - i * per)))

/-- Entry numbers of the prefixes consumed of each range (R355). -/
def consumedOf (ranges : List (Nat × Nat)) (consumed : List Nat) : List Nat :=
  (ranges.zipIdx).flatMap (fun e => (List.range (min e.1.2 (consumed.getD e.2 0))).map (· + e.1.1))

/-- Distinct values in ascending order. -/
def ascending (vs : List Nat) : List Nat := sortBy (fun a b => decide (a < b)) vs.eraseDups

/-- The number and value of the greatest FP32 value: the lowest number among equals, no NaN (R345). -/
def argmaxOf (vs : List (Nat × Word)) : Option (Nat × Word) :=
  vs.foldl (fun best v =>
    if isNan v.2 then best
    else match best with
      | none => some v
      | some b => if flt b.2 v.2 then some v else some b) none

/-- The outcome of a selection over numbered records (R340-R345): 0 top-k, 1 unique, 2 argmax. -/
def selectCore (rop : Nat) (sim dedup : Bool) (k : Nat) (recs : List (Nat × List Byte)) : Result :=
  match rop with
  | 0 =>
    let (v, bad) := validEntries (recs.map (fun r => Entry.ofBytes r.2))
    let best := topK sim dedup k v
    { status := shortOr best.length k, count := BitVec.ofNat 32 best.length, invalid := BitVec.ofNat 32 bad, data := entryBytes best }
  | 1 =>
    let vs := recs.map (fun r => leNat r.2)
    let best := (ascending vs).take k
    { status := shortOr best.length k, count := BitVec.ofNat 32 best.length
      data := best.flatMap (fun v => toLE 8 v ++ toLE 8 (vs.countP (· == v))) }
  | _ =>
    let vs := recs.map (fun r => (r.1, BitVec.ofNat 32 (leNat r.2)))
    let bad := BitVec.ofNat 32 (vs.countP (fun v => isNan v.2))
    match argmaxOf vs with
    | some (i, _) => { count := 1, invalid := bad, data := toLE 8 i }
    | none => { status := stShort, invalid := bad }

/-- The outcome of a selection command over records of its source. -/
def selectResult (c : Cmd) (recs : List (Nat × List Byte)) : Result :=
  selectCore (c.opcode - 0x300) (c.opcode == 0x300 && c.p 36 1 == 1) (c.opcode == 0x300 && bit (c.p 37 1) 0) (c.p 52 4) recs

/-- The records with these numbers of a selection's source. -/
def selectRecords (s : State) (a : Adm) (is : List Nat) : List (Nat × List Byte) :=
  let w := selectWidth a.cmd.opcode
  let t := target s a (a.p 32 4)
  is.map (fun i => (i, readTarget a (a.p 32 4) t (a.p 40 8 + w * i) w))

/-- The end of a selection by its deadline or a failed read (R44, R355): PARTIAL over the entries consumed where that
is accepted, with their number in VALUE; and the keys accepted. -/
def selectEnded (s : State) (a : Adm) (st : Byte) (consumed : List Nat) : Result × Nat :=
  let is := consumedOf (rangesOf s a.fn (a.p 48 4)) consumed
  (if a.cmd.acceptPartial then
    { selectResult a.cmd (selectRecords s a is) with status := stPartial, value := BitVec.ofNat 32 is.length }
   else .bare st, is.length)

/-- Whether an entry of a selection's source cannot be read (R181, R516). -/
def selectUnread (m : Bad) (s : State) (a : Adm) (i : Nat) : Bool :=
  let w := selectWidth a.cmd.opcode
  readFails m a (a.p 32 4) (target s a (a.p 32 4)) (a.p 40 8 + w * i) w

/-- Keys a selection's reeds accept (R342, R349, R357): its entries, again in a counting pass, and the partial results that the
other ranges offer to the reed of range 0. -/
def selectKeys (s : State) (a : Adm) : Nat :=
  let n := a.p 48 4
  let part (r : Nat × Nat) : Nat := (selectResult a.cmd (selectRecords s a ((List.range r.2).map (· + r.1)))).count.toNat
  (if a.cmd.opcode = 0x300 && bit (a.p 37 1) 0 then 2 * n else n) +
  (((rangesOf s a.fn n).drop 1).map part).foldl (· + ·) 0

/-- Whether the function's open reeds that run no selection are enough for the ranges of one of n entries (R336, R349). -/
def reedsIdle (s : State) (f n : Nat) : Bool :=
  decide ((rangesOf s f n).length ≤ (openReeds s f).countP (fun r => (AMap.getD s.reeds.reeds r {}).running.isNone)) || (openReeds s f).isEmpty

/-- Steps 1 to 5 of R131 for a selection; it waits for its reeds (R336); then its result. -/
def selectRun (s : State) (a : Adm) : State :=
  let cid := a.cmd.cid
  let oid := a.p 32 4
  let t := target s a oid
  let n := a.p 48 4
  let s0 := s
  let s := countForeign s a t.isForeign
  if t.isMissing then fail s cid stNoObject
  else if t.bad (fun o => !o.isData || beyond a oid o (a.p 40 8) (n * selectWidth a.cmd.opcode)) then fail s cid stInvalidParam
  else if !largeFits s a.cmd.selectLarge then fail s cid stNoSpace
  else if !reedsIdle s a.fn n then s0
  else if readFails .any a oid t (a.p 40 8) (n * selectWidth a.cmd.opcode) && !readFails .lost a oid t (a.p 40 8) (n * selectWidth a.cmd.opcode) then
    fail s cid stInternal
  else if readFails .any a oid t (a.p 40 8) (n * selectWidth a.cmd.opcode) then
    let upTo := (rangesOf s a.fn n).map (fun r => ((List.range r.2).find? (fun i => selectUnread .any s a (r.1 + i))).getD r.2)
    let (r, keys) := selectEnded s a stTierFail upTo
    finish (countKeys (countTierFail s a.fn) a.fn keys) cid r
  else
    finish (countSpill (countKeys s a.fn (selectKeys s a)) a.cmd.selectK) cid
      (selectResult a.cmd (selectRecords s a (List.range n)))

/-- R340-R343: SELECT_TOPK. -/
def execSelectTopk (cid : Nat) (s : State) : Out := withCmd s cid 0x300 (fun a => selectRun s a)

/-- R344: SELECT_UNIQUE. -/
def execSelectUnique (cid : Nat) (s : State) : Out := withCmd s cid 0x301 (fun a => selectRun s a)

/-- R345: SELECT_ARGMAX. -/
def execSelectArgmax (cid : Nat) (s : State) : Out := withCmd s cid 0x302 (fun a => selectRun s a)

end Sys2Proof.Machine
end

