-- ==== Sys2Proof/Machine/IndexOps.lean ====
section
/-! DEFINITION. Index images (R307-R314): the header, rows, lists and graph nodes; scores (R30-R32, R319, R320); filters
(R316); and the graph walk (R323). -/

namespace Sys2Proof.Machine
open Sys2Proof

/-- An index version read through its header (R307). In a graph `cent` is `FULL_OFF` (R314). -/
structure Ix where
  mem : Mem
  graph : Bool
  sim : Bool
  dim : Nat
  lists : Nat
  degree : Nat
  entry : Nat
  next : Nat
  cent : Nat
  dir : Nat
  node : Nat
  cap : Nat

/-- The header of an image (R307). -/
def ixOf (m : Mem) : Ix where
  mem := m
  graph := m.nat 4 1 == 4
  sim := m.nat 5 1 == 1
  dim := m.nat 8 2
  lists := m.nat 12 4
  degree := m.nat 20 2
  entry := m.nat 40 8
  next := m.nat 48 8
  cent := m.nat 56 8
  dir := m.nat 64 8
  node := m.nat 72 8
  cap := m.nat 80 8

/-- ENTRY_NODE of a graph without one, and the filter row of an entry without one, and an unused edge (R307, R309, R314). -/
def noNode : Nat := 2 ^ 64 - 1
def noRow : Nat := 2 ^ 32 - 1

/-- Row offsets and strides (R308, R312, R314). -/
def scaleOff (dim : Nat) : Nat := dim / 2
def normOff (dim : Nat) : Nat := dim / 2 + dim / 16
def strideOf (sim : Bool) (dim : Nat) : Nat := roundUp (normOff dim + (if sim then 0 else 4)) 16
def cstrideOf (sim : Bool) (dim : Nat) : Nat := roundUp (dim + dim / 16 + (if sim then 0 else 4)) 16
def Ix.stride (x : Ix) : Nat := strideOf x.sim x.dim
def Ix.cstride (x : Ix) : Nat := cstrideOf x.sim x.dim
def Ix.nstride (x : Ix) : Nat := 16 + x.stride + 8 * x.degree

/-! ### Queries and scores -/

/-- A query (R319, R320): its INT8 form with scale and n_q, and its BF16 form. -/
structure Query where
  codes : List Int
  scale : Word
  nq : Word
  full : List Val

/-- A query from its bytes: INT8 with a scale (format 0) or BF16 quantised by the node (format 1) (R141, R264, R269, R320). -/
def queryOf (fmt dim : Nat) (scale : Word) (bs : List Byte) : Query :=
  if fmt = 0 then
    let q := (ints8 bs).take dim
    ⟨q, scale, normQuery q scale, q.map (fun x => bf16.decode (bf16.encode ((ofInt x).mul (f32 scale))))⟩
  else
    let xs := elems 2 dim bs
    let (s, q) := quantBlock fp32 127 (xs.map bf16.toF32)
    ⟨q, s, normQuery q s, xs.map bf16.decode⟩

/-- A score from a product: R31 for a distance index. -/
def withNorm (sim : Bool) (d n nq : Word) : Word := if sim then d else dist31 d n nq

/-- FP16 scales of a row, widened (R263). -/
def scalesAt (m : Mem) (off dim : Nat) : List Word := (elems 2 (dim / 32) (m.readBytes off (dim / 16))).map fp16.toF32

/-- Code score of the row at an offset (R30, R31). -/
def codeScore (x : Ix) (q : Query) (off : Nat) : Word :=
  withNorm x.sim
    (dot30 q.codes (unpack4 (x.mem.readBytes off (x.dim / 2))) (scalesAt x.mem (off + scaleOff x.dim) x.dim) q.scale)
    (BitVec.ofNat 32 (x.mem.nat (off + normOff x.dim) 4)) q.nq

/-- Coarse score of a list's centroid (R319). -/
def coarseScore (x : Ix) (q : Query) (l : Nat) : Word :=
  let off := x.cent + x.cstride * l
  withNorm x.sim
    (dot30 q.codes (ints8 (x.mem.readBytes off x.dim)) (scalesAt x.mem (off + x.dim) x.dim) q.scale)
    (BitVec.ofNat 32 (x.mem.nat (off + x.dim + x.dim / 16) 4)) q.nq

/-- Rerank score against the full vector at an offset (R32, R320). -/
def rerankScore (x : Ix) (q : Query) (off : Nat) : Word :=
  let v := (elems 2 x.dim (x.mem.readBytes off (2 * x.dim))).map bf16.decode
  withNorm x.sim (chainFrom 0 q.full v) (chainFrom 0 v v) (chainFrom 0 q.full q.full)

/-! ### Filters -/

/-- A pinned filter bitmap: its bytes and its size; all zero outside the rights (R129, R316). -/
abbrev Bitmap := Mem × Nat

/-- A bit of a bitmap (R316). -/
def Bitmap.bit (b : Bitmap) (r : Nat) : Bool :=
  if r = noRow || b.2 ≤ r / 8 then false else (b.1.read (r / 8)).getLsbD (r % 8)

/-- The filter of a search: the rule and its bitmaps in order (R316). -/
structure Filter where
  rule : Nat
  maps : List Bitmap

/-- Whether a filter row passes (R316). -/
def Filter.passes (f : Filter) (row : Nat) : Bool :=
  f.maps.isEmpty || Sys2Proof.Machine.bit f.rule ((f.maps.zipIdx).foldl (fun i e => i + b2n (e.1.bit row) * 2 ^ e.2) 0)

/-! ### Lists and nodes -/

/-- A list directory field (R312). -/
def Ix.dirNat (x : Ix) (l off : Nat) : Nat := x.mem.nat (x.dir + 64 * l + off) 8
def Ix.count (x : Ix) (l : Nat) : Nat := x.dirNat l 0
def Ix.capacity (x : Ix) (l : Nat) : Nat := x.dirNat l 8
def Ix.rowOff (x : Ix) (l p : Nat) : Nat := x.dirNat l 16 + x.stride * p
def Ix.recOff (x : Ix) (l p : Nat) : Nat := x.dirNat l 24 + 16 * p
def Ix.fullOff (x : Ix) (l p : Nat) : Nat := x.dirNat l 32 + 2 * x.dim * p

/-- Offsets in a graph (R314). -/
def Ix.nodeOff (x : Ix) (n : Nat) : Nat := x.node + x.nstride * n
def Ix.nodeFull (x : Ix) (n : Nat) : Nat := x.cent + 2 * x.dim * n

/-- Fields of an entry record (R309). -/
def recItem (m : Mem) (off : Nat) : Nat := m.nat off 8
def recRow (m : Mem) (off : Nat) : Nat := m.nat (off + 8) 4
def recDead (m : Mem) (off : Nat) : Bool := (m.read (off + 12)).getLsbD 0

/-- Ordinal of position p of list l (R27, R312). -/
def listOrdinal (l p : Nat) : Nat := l * 2 ^ 40 + p

/-- Used edges of a node in edge order (R314). -/
def Ix.edges (x : Ix) (n : Nat) : List Nat :=
  (elems 8 x.degree (x.mem.readBytes (x.nodeOff n + 16 + x.stride) (8 * x.degree))).filter (fun e => e != noNode)

/-- Lists in ascending coarse key; those without one behind, by number (R319). -/
def rankedLists (x : Ix) (q : Query) : List Nat :=
  (sortBy (fun (a b : (Nat × Nat) × Nat) => rankLt a.1 b.1)
    ((List.range x.lists).map (fun l => ((rankOf x.sim (coarseScore x q l) l).getD (2 ^ 32, l), l)))).map (·.2)

/-- The list of best coarse key (R324). -/
def bestList (x : Ix) (q : Query) : Nat := (rankedLists x q).headD 0

/-- Candidates of a list and its NaN entries (R318). -/
def listCandidates (x : Ix) (q : Query) (flt : Filter) (l : Nat) : List Entry × Nat :=
  let es := (List.range (x.count l)).filterMap (fun p =>
    let r := x.recOff l p
    if recDead x.mem r || !flt.passes (recRow x.mem r) then none
    else some (⟨recItem x.mem r, listOrdinal l p, codeScore x q (x.rowOff l p), 1⟩ : Entry))
  validEntries es

/-- Candidates of several lists. -/
def listsCandidates (x : Ix) (q : Query) (flt : Filter) (ls : List Nat) : List Entry × Nat :=
  ls.foldl (fun acc l => let (es, n) := listCandidates x q flt l; (acc.1 ++ es, acc.2 + n)) ([], 0)

/-! ### The graph walk (R323) -/

/-- A walk: visited nodes with their scores in order of visit, the beam in key order, the expanded nodes, and the
number of visited nodes after each visit step. -/
structure Walk where
  visited : List (Nat × Word) := []
  beam : List (Nat × Word) := []
  expanded : List Nat := []
  steps : List Nat := []

/-- Key order of nodes (R28, R323). -/
def nodeLt (sim : Bool) (a b : Nat × Word) : Bool :=
  rankLt ((rankOf sim a.2 a.1).getD (2 ^ 32, a.1)) ((rankOf sim b.2 b.1).getD (2 ^ 32, b.1))

/-- A visit (R323). -/
def walkVisit (x : Ix) (q : Query) (width : Nat) (w : Walk) (t : Nat) : Walk :=
  if w.visited.any (·.1 == t) then w
  else
    let s := codeScore x q (x.nodeOff t + 16)
    let w := { w with visited := w.visited ++ [(t, s)] }
    if isNan s then w else { w with beam := (insertBy (nodeLt x.sim) (t, s) w.beam).take width }

/-- Expansions until the beam holds no unexpanded node; a walk expands each node at most once (R323). -/
def walkRun (x : Ix) (q : Query) (width : Nat) : Nat → Walk → Walk
  | 0, w => w
  | fuel + 1, w =>
    match w.beam.find? (fun n => !w.expanded.contains n.1) with
    | none => w
    | some c =>
      let w := { w with expanded := w.expanded ++ [c.1] }
      let w := (x.edges c.1).foldl (walkVisit x q width) w
      walkRun x q width fuel { w with steps := w.steps ++ [w.visited.length] }

/-- The walk of a beam width (R323). -/
def walk (x : Ix) (q : Query) (width : Nat) : Walk :=
  if x.entry = noNode then {}
  else walkRun x q width (x.next + 1) (walkVisit x q width {} x.entry)

/-- Candidates among visited nodes and their NaN scores; every NaN node counts (R323). -/
def nodeCandidates (x : Ix) (flt : Filter) (vs : List (Nat × Word)) : List Entry × Nat :=
  (vs.filterMap (fun n =>
      let r := x.nodeOff n.1
      if isNan n.2 || recDead x.mem r || !flt.passes (recRow x.mem r) then none
      else some ⟨recItem x.mem r, n.1, n.2, 1⟩),
   vs.countP (fun n => isNan n.2))

end Sys2Proof.Machine
end

