-- ==== Sys2Proof/Machine/IndexEdit.lean ====
section
/-! DEFINITION. Changes that make index versions (R138-R140, R307-R315, R324-R331): images, edits, streams, compaction. -/

namespace Sys2Proof.Machine
open Sys2Proof

/-! ### Images -/

/-- The 128 header bytes (R307). -/
def ixHeader (graph sim : Bool) (dim lists ver degree live dead entry next cent dir node cap : Nat) : List Byte :=
  lay 128 [(0, 4, 0x58444E49), (4, 1, if graph then 4 else 3), (5, 1, b2n sim), (8, 2, dim), (10, 2, strideOf sim dim),
    (12, 4, lists), (16, 4, ver), (20, 2, degree), (24, 8, live), (32, 8, dead), (40, 8, entry), (48, 8, next),
    (56, 8, cent), (64, 8, dir), (72, 8, node), (80, 8, cap)]

/-- Offset of the list directory behind the centroid section (R312; the node's choice). -/
def dirAt (sim : Bool) (dim lists : Nat) : Nat := roundUp (128 + cstrideOf sim dim * lists) 64

/-- An empty list index: every centroid zero, every list empty (R313). -/
def emptyList (sim : Bool) (dim lists : Nat) : Mem × Nat :=
  let d := dirAt sim dim lists
  (Mem.ofBytes (ixHeader false sim dim lists 1 0 0 0 0 0 128 d 0 0), d + 64 * lists)

/-- An empty graph index (R314). -/
def emptyGraph (sim : Bool) (dim degree : Nat) : Mem × Nat :=
  (Mem.ofBytes (ixHeader true sim dim 0 1 degree 0 0 noNode 0 128 0 128 0), 128)

/-- A stored entry: its record, its code row, its full vector. -/
structure RawEntry where
  rcd : List Byte
  row : List Byte
  full : List Byte

/-- The bytes of a code row (R308). -/
def rowOf (sim : Bool) (dim : Nat) (codes scales : List Byte) : List Byte :=
  let n := norm269 (unpack4 codes) ((elems 2 (dim / 32) scales).map fp16.toF32)
  slice (codes ++ scales ++ (if sim then [] else toLE 4 n.toNat)) 0 (strideOf sim dim)

/-- A vector coded by the node (R264, R308, R324). -/
def codedRow (sim : Bool) (dim : Nat) (full : List Byte) : List Byte :=
  let (sc, q) := quantVector 7 ((elems 2 dim full).map bf16.toF32)
  rowOf sim dim (pack4 q) (sc.flatMap (fun w => toLE 2 (fp16.ofF32 w)))

/-- A centroid row coded from BF16 (R312, R313). -/
def centroidRow (sim : Bool) (dim : Nat) (vec : List Byte) : List Byte :=
  let (sc, q) := quantVector 127 ((elems 2 dim vec).map bf16.toF32)
  slice (q.map (fun c => BitVec.ofNat 8 (unsigned 8 c)) ++ sc.flatMap (fun w => toLE 2 (fp16.ofF32 w)) ++
    (if sim then [] else toLE 4 (norm269 q sc).toNat)) 0 (cstrideOf sim dim)

/-- Areas of the lists laid one behind another: code rows and records of every list, then the full vectors from a
granule of their own (R312; the node's choice). The offsets of each list come back with the size. -/
def layAreas (stride dim start : Nat) (caps : List (Nat × Nat)) : List (Nat × Nat × Nat × Nat) × Nat :=
  let rows := caps.foldl (fun (acc : List (Nat × Nat × Nat) × Nat) c =>
    (acc.1 ++ [(c.1, acc.2, acc.2 + stride * c.2)], acc.2 + (stride + 16) * c.2)) ([], roundUp start 16)
  let fulls := (caps.zip rows.1).foldl (fun (acc : List (Nat × Nat × Nat × Nat) × Nat) c =>
    (acc.1 ++ [(c.2.1, c.2.2.1, c.2.2.2, acc.2)], acc.2 + 2 * dim * c.1.2)) ([], roundUp rows.2 granule)
  fulls

/-- A list index image from its centroid rows and its lists (list, capacity, entries in position order). -/
def listImage (sim : Bool) (dim lists ver : Nat) (cents : List Byte) (ls : List (Nat × Nat × List RawEntry)) : Mem × Nat :=
  let d := dirAt sim dim lists
  let st := strideOf sim dim
  let live := ls.foldl (fun n l => n + l.2.2.length) 0
  let (offs, size) := layAreas st dim (d + 64 * lists) (ls.map (fun l => (l.1, l.2.1)))
  let m := (Mem.ofBytes (ixHeader false sim dim lists ver 0 live 0 0 0 128 d 0 0)).write 128 cents
  ((ls.zip offs).foldl (fun m e =>
    let n := e.1.2.2.length
    let m := m.write (d + 64 * e.1.1) (lay 64 [(0, 8, n), (8, 8, e.1.2.1), (16, 8, e.2.2.1), (24, 8, e.2.2.2.1),
      (32, 8, e.2.2.2.2), (40, 8, n)])
    let m := m.write e.2.2.1 (e.1.2.2.flatMap (·.row))
    let m := m.write e.2.2.2.1 (e.1.2.2.flatMap (·.rcd))
    m.write e.2.2.2.2 (e.1.2.2.flatMap (·.full))) m, if ls.isEmpty then d + 64 * lists else size)

/-- A graph index image from its nodes with their edges (R314). -/
def graphImage (sim : Bool) (dim degree ver cap entry : Nat) (ns : List (RawEntry × List Nat)) : Mem × Nat :=
  let st := strideOf sim dim
  let ns' := 16 + st + 8 * degree
  let full := roundUp (128 + ns' * cap) granule
  let node (e : RawEntry × List Nat) : List Byte :=
    e.1.rcd ++ e.1.row ++ (List.range degree).flatMap (fun i => toLE 8 (e.2.getD i noNode))
  let m := Mem.ofBytes (ixHeader true sim dim 0 ver degree ns.length 0 entry ns.length full 0 128 cap)
  let m := m.write 128 (ns.flatMap node)
  (m.write full (ns.flatMap (·.1.full)), if cap = 0 then 128 else full + 2 * dim * cap)

/-- Whether a granule of an image holds full vectors (R310). -/
def ixFull (m : Mem) : FullTest := fun g =>
  let x := ixOf m
  let meets (off n : Nat) : Bool := n != 0 && decide (off < (g + 1) * granule) && decide (g * granule < off + n)
  if x.graph then meets x.cent (2 * x.dim * x.cap)
  else (List.range x.lists).any (fun l => meets (x.dirNat l 32) (2 * x.dim * x.capacity l))

/-! ### Edits -/

/-- An image being changed, and the ranges written. -/
structure Edit where
  mem : Mem
  size : Nat
  writes : List (Nat × Nat) := []

def Edit.put (e : Edit) (off : Nat) (bs : List Byte) : Edit :=
  { mem := e.mem.write off bs, size := max e.size (off + bs.length), writes := (off, bs.length) :: e.writes }

def Edit.nat (e : Edit) (off n v : Nat) : Edit := e.put off (toLE n v)

/-- A header or directory counter moved up or down. -/
def Edit.inc (e : Edit) (off : Nat) : Edit := e.nat off 8 (e.mem.nat off 8 + 1)
def Edit.dec (e : Edit) (off : Nat) : Edit := e.nat off 8 (e.mem.nat off 8 - 1)

/-- Granules written (R167). -/
def Edit.granules (e : Edit) : List Nat := (e.writes.flatMap (fun w => rangeGranules w.1 w.2)).eraseDups

/-- Live entries of an item: the list, if any, and the record's offset. -/
def liveRecords (x : Ix) (item : Nat) : List (Option Nat × Nat) :=
  let live (r : Nat) : Bool := recItem x.mem r == item && !recDead x.mem r
  if x.graph then
    (List.range x.next).filterMap (fun n => if live (x.nodeOff n) then some (none, x.nodeOff n) else none)
  else
    (List.range x.lists).flatMap (fun l => (List.range (x.count l)).filterMap (fun p =>
      if live (x.recOff l p) then some (some l, x.recOff l p) else none))

/-- A tombstone, with LIVE and TOMBSTONED of the header and LIVE of the list (R327). -/
def Edit.tombstone (e : Edit) (t : Option Nat × Nat) : Edit :=
  let e := ((e.put (t.2 + 12) [1#8]).dec 24).inc 32
  match t.1 with
  | some l => e.dec ((ixOf e.mem).dir + 64 * l + 40)
  | none => e

/-- Every live entry of an item tombstoned, and whether there was one (R324, R327). -/
def Edit.tombstoneItem (e : Edit) (item : Nat) : Edit × Bool :=
  let ts := liveRecords (ixOf e.mem) item
  (ts.foldl Edit.tombstone e, !ts.isEmpty)

/-- The entry record (R309). -/
def entryRecord (item row : Nat) : List Byte := lay 16 [(0, 8, item), (8, 4, row)]

/-- A full list gets three new areas beyond the object's end (R325). -/
def Edit.growList (e : Edit) (l : Nat) : Edit :=
  let x := ixOf e.mem
  let n := x.count l
  let cap := max 16 (2 * x.capacity l)
  let rows := roundUp e.size granule
  let recs := rows + x.stride * cap
  let full := roundUp (recs + 16 * cap) granule
  let d := x.dir + 64 * l
  let a := e.mem.readBytes (x.rowOff l 0) (x.stride * n)
  let b := e.mem.readBytes (x.recOff l 0) (16 * n)
  let c := e.mem.readBytes (x.fullOff l 0) (2 * x.dim * n)
  let e := (((e.put rows a).put recs b).put full c).put (d + 8) (toLE 8 cap ++ toLE 8 rows ++ toLE 8 recs ++ toLE 8 full)
  { e with size := max e.size (full + 2 * x.dim * cap) }

/-- An entry appended to its list (R324, R325); none past 2^40 - 1 positions. -/
def Edit.appendList (e : Edit) (item row : Nat) (vec : List Byte) : Option Edit :=
  let x := ixOf e.mem
  let l := bestList x (queryOf 1 x.dim 0 vec)
  let n := x.count l
  if 2 ^ 40 - 1 ≤ n then none
  else
    let e := if n = x.capacity l then e.growList l else e
    let x := ixOf e.mem
    let e := ((e.put (x.rowOff l n) (codedRow x.sim x.dim vec)).put (x.recOff l n) (entryRecord item row)).put (x.fullOff l n) vec
    some (((e.inc (x.dir + 64 * l)).inc (x.dir + 64 * l + 40)).inc 24)

/-- A full node section gets a new place of twice the nodes (R325). -/
def Edit.growGraph (e : Edit) : Edit :=
  let x := ixOf e.mem
  let cap := max 16 (2 * x.cap)
  let node := roundUp e.size granule
  let full := roundUp (node + x.nstride * cap) granule
  let a := e.mem.readBytes x.node (x.nstride * x.next)
  let b := e.mem.readBytes x.cent (2 * x.dim * x.next)
  let e := (((e.put node a).put full b).nat 56 8 full).put 72 (toLE 8 node ++ toLE 8 cap)
  { e with size := max e.size (full + 2 * x.dim * cap) }

/-- An edge added to a node behind its used edges, where one is unused (R326). -/
def Edit.addEdge (e : Edit) (n t : Nat) : Edit :=
  let x := ixOf e.mem
  let used := (x.edges n).length
  if used < x.degree then e.nat (x.nodeOff n + 16 + x.stride + 8 * used) 8 t else e

/-- A node added with its edges (R326); none past 2^40 - 1 nodes. -/
def Edit.appendNode (e : Edit) (item row : Nat) (vec : List Byte) : Option Edit :=
  let x := ixOf e.mem
  let n := x.next
  if 2 ^ 40 - 1 ≤ n then none
  else
    let w := walk x (queryOf 1 x.dim 0 vec) (2 * x.degree)
    let near := ((sortBy (nodeLt x.sim) (w.visited.filter (fun v =>
      !isNan v.2 && !recDead x.mem (x.nodeOff v.1)))).take x.degree).map (·.1)
    let e := if n = x.cap then e.growGraph else e
    let x := ixOf e.mem
    let e := e.put (x.nodeOff n) (entryRecord item row ++ codedRow x.sim x.dim vec ++
      (List.range x.degree).flatMap (fun i => toLE 8 (near.getD i noNode)))
    let e := (e.put (x.nodeFull n) vec).nat 48 8 (n + 1)
    let e := near.foldl (fun e t => e.addEdge t n) e
    let e := if x.entry = noNode then e.nat 40 8 n else e
    some (e.inc 24)

/-- The records of an upsert in record order (R324); none where a list or the graph is at its limit. -/
def Edit.upserts (e : Edit) : List (List Byte) → Option Edit
  | [] => some e
  | r :: rs =>
    let item := field r 0 8
    let (e, _) := e.tombstoneItem item
    let vec := r.drop 16
    match (if (ixOf e.mem).graph then e.appendNode item (field r 8 4) vec else e.appendList item (field r 8 4) vec) with
    | some e => Edit.upserts e rs
    | none => none

/-- The items of a delete in order, and how many were live (R327). -/
def Edit.deletes (e : Edit) (items : List Nat) : Edit × Nat :=
  items.foldl (fun acc i => let (e, hit) := acc.1.tombstoneItem i; (e, acc.2 + b2n hit)) (e, 0)

/-- A mutation applied to an image (R140); none where it cannot be placed. -/
def Edit.apply (e : Edit) : Mutation → Option Edit
  | .upsert data batch => e.upserts (records (16 + 2 * (ixOf e.mem).dim) batch data)
  | .delete data batch => some (e.deletes (elems 8 batch data)).1
  | .rows _ _ _ _ => some e

/-! ### Streams (R328, R329) -/

/-- An entry block as an entry; none where a reserved byte is set (R329). -/
def streamEntry (sim coded : Bool) (dim : Nat) (bs : List Byte) : Option RawEntry :=
  if !zeroIn bs 12 16 then none
  else
    let full := slice bs 16 (2 * dim)
    let o := 16 + 2 * dim
    some ⟨bs.take 16, if coded then rowOf sim dim (slice bs o (dim / 2)) (slice bs (o + dim / 2) (dim / 16)) else codedRow sim dim full, full⟩

/-- All of a list of options, or none. -/
def allSome {α : Type} : List (Option α) → Option (List α)
  | [] => some []
  | none :: _ => none
  | some x :: xs => (allSome xs).map (fun ys => x :: ys)

/-- The list blocks up to the 32-byte end record (R328). -/
def streamLists (sim coded : Bool) (dim lists : Nat) : Nat → List Byte → List Nat →
    Option (List (Nat × Nat × List RawEntry))
  | 0, _, _ => none
  | fuel + 1, bs, seen =>
    if bs.length = 32 then some []
    else
      let l := field bs 0 4
      let n := field bs 8 8
      let cap := field bs 16 8
      let eb := 16 + 2 * dim + (if coded then dim / 2 + dim / 16 else 0)
      if bs.length < 64 + n * eb || !zeroIn bs 4 8 || !zeroIn bs 24 32 || lists ≤ l || seen.contains l ||
        (cap != 0 && decide (cap < n)) then none
      else
        match allSome ((records eb n ((bs.drop 32).take (n * eb))).map (streamEntry sim coded dim)) with
        | none => none
        | some es =>
          (streamLists sim coded dim lists fuel (bs.drop (32 + n * eb)) (l :: seen)).map
            (fun r => (l, if cap = 0 then n + ceilDiv n 8 else cap, es) :: r)

/-- The item of an entry. -/
def RawEntry.item (e : RawEntry) : Nat := field e.rcd 0 8

/-- Whether every item stays within its limit (R315). -/
def itemsWithin (limit : Nat) (es : List RawEntry) : Bool :=
  es.all (fun e => decide (es.countP (fun x => x.item == e.item) ≤ limit))

/-- Whether the edges of node n are well formed (R314, R329). -/
def edgesOk (entries n : Nat) (es : List Nat) : Bool :=
  let used := es.takeWhile (· != noNode)
  used.all (fun t => decide (t < entries) && t != n) && distinct used && (es.drop used.length).all (· == noNode)

/-- The stream header's and the end record's checks (R328, R329). -/
def streamFrame (x : Ix) (bs : List Byte) : Bool :=
  let e := bs.drop (bs.length - 32)
  96 ≤ bs.length && field bs 0 4 == 0x54535849 && field bs 4 1 == (if x.graph then 4 else 3) && field bs 5 1 == b2n x.sim &&
  field bs 6 1 == 0 && field bs 7 1 ≤ 1 && field bs 8 2 == x.dim && field bs 10 2 == x.degree && field bs 12 4 == x.lists &&
  zeroIn bs 32 64 && (if x.graph then (field bs 16 8 == 0 || decide (field bs 24 8 < field bs 16 8)) else field bs 24 8 == 0) &&
  field e 0 4 == 0x4E455849 && field e 4 4 == crc32 (bs.take (bs.length - 32)) && field e 8 8 == field bs 16 8 && zeroIn e 16 32

/-- The image a load stream gives an index, with a version number (R328, R329); none where the stream fails. -/
def streamImage (x : Ix) (ver : Nat) (bs : List Byte) : Option (Mem × Nat) :=
  if !streamFrame x bs then none
  else
    let coded := field bs 7 1 == 1
    let entries := field bs 16 8
    let body := bs.drop 64
    if x.graph then
      let eb := 16 + 2 * x.dim + (if coded then x.dim / 2 + x.dim / 16 else 0) + 8 * x.degree
      if body.length ≠ entries * eb + 32 then none
      else
        let blocks := records eb entries body
        match allSome (blocks.map (streamEntry x.sim coded x.dim)) with
        | none => none
        | some es =>
          let edges := blocks.map (fun b => elems 8 x.degree (b.drop (eb - 8 * x.degree)))
          if itemsWithin 1 es && (edges.zipIdx).all (fun e => edgesOk entries e.2 e.1) then
            some (graphImage x.sim x.dim x.degree ver (entries + ceilDiv entries 8)
              (if entries = 0 then noNode else field bs 24 8) (es.zip (edges.map (fun e => e.filter (· != noNode)))))
          else none
    else
      let cb := 2 * x.dim * x.lists
      if body.length < cb + 32 then none
      else
        match streamLists x.sim coded x.dim x.lists (x.lists + 1) (body.drop cb) [] with
        | none => none
        | some ls =>
          let es := ls.flatMap (·.2.2)
          if es.length = entries && itemsWithin 4 es then
            some (listImage x.sim x.dim x.lists ver
              ((records (2 * x.dim) x.lists (body.take cb)).flatMap (centroidRow x.sim x.dim)) ls)
          else none

/-! ### Compaction (R330, R331) -/

/-- A stored entry of a list or a graph. -/
def Ix.rawAt (x : Ix) (rcd row full : Nat) : RawEntry :=
  ⟨x.mem.readBytes rcd 16, x.mem.readBytes row x.stride, x.mem.readBytes full (2 * x.dim)⟩

/-- Live entries of a list in ascending position (R330). -/
def liveOfList (x : Ix) (l : Nat) : List RawEntry :=
  ((List.range (x.count l)).filter (fun p => !recDead x.mem (x.recOff l p))).map (fun p =>
    x.rawAt (x.recOff l p) (x.rowOff l p) (x.fullOff l p))

/-- The edges of a live node rewritten in edge order, before renumbering (R331). -/
def compactEdges (x : Ix) (live : Nat → Bool) (n : Nat) : List Nat :=
  let rec go : List Nat → List Nat → List Nat
    | done, [] => done
    | done, t :: rest =>
      if live t then go (done ++ [t]) rest
      else
        let more := (x.edges t).foldl (fun acc u =>
          if live u && u != n && !(done ++ acc ++ rest).contains u && decide ((done ++ acc ++ rest).length < x.degree)
          then acc ++ [u] else acc) []
        go (done ++ more) rest
  go [] (x.edges n)

/-- The compacted image (R330, R331). -/
def compactImage (x : Ix) (ver : Nat) : Mem × Nat :=
  if x.graph then
    let live (n : Nat) : Bool := decide (n < x.next) && !recDead x.mem (x.nodeOff n)
    let ns := (List.range x.next).filter live
    let num (n : Nat) : Nat := (ns.findIdx? (· == n)).getD 0
    let entry :=
      if ns.isEmpty then noNode
      else if live x.entry then num x.entry
      else match (x.edges x.entry).find? live with
        | some t => num t
        | none => 0
    graphImage x.sim x.dim x.degree ver (ns.length + ceilDiv ns.length 8) entry
      (ns.map (fun n => (x.rawAt (x.nodeOff n) (x.nodeOff n + 16) (x.nodeFull n), (compactEdges x live n).map num)))
  else
    listImage x.sim x.dim x.lists ver (x.mem.readBytes x.cent (x.cstride * x.lists))
      (((List.range x.lists).map (fun l => (l, liveOfList x l))).filterMap (fun e =>
        if e.2.isEmpty then none else some (e.1, e.2.length + ceilDiv e.2.length 8, e.2)))

end Sys2Proof.Machine
end

