-- ==== Sys2Proof/Machine/TableOps.lean ====
section
/-! DEFINITION. Embedding tables (R358-R360, R379-R384): the image, row values, row updates and load streams. -/

namespace Sys2Proof.Machine
open Sys2Proof

/-- A table as its object's kind gives it (R358). -/
structure Tbl where
  fmt : Nat
  rows : Nat
  columns : Nat
  first : Nat
  cols : Nat
  group : Nat
deriving DecidableEq, Repr

/-- The table of an object. -/
def tblOf (o : Obj) : Option Tbl :=
  match o.kind with
  | .table fmt rows columns first cols group => some ⟨fmt, rows, columns, first, cols, group⟩
  | _ => none

/-- Size of a row record and of a version (R358, R359). -/
def Tbl.rowBytes (t : Tbl) : Nat := Sys2Proof.Machine.rowBytes t.fmt t.cols
def Tbl.size (t : Tbl) : Nat := 64 + t.rows * t.rowBytes
def Tbl.rowOff (t : Tbl) (r : Nat) : Nat := 64 + t.rowBytes * r

/-- The header of a version (R358). -/
def Tbl.header (t : Tbl) (ver : Nat) : List Byte :=
  lay 64 [(0, 4, 0x4C424154), (4, 1, t.fmt), (8, 8, t.rows), (16, 4, t.columns), (20, 4, t.first), (24, 4, t.cols),
    (28, 4, ver), (32, 4, t.rowBytes), (40, 8, 64)]

/-- Offset of ACC in a row record (R359). -/
def Tbl.accOff (t : Tbl) : Nat :=
  match t.fmt with
  | 0 => t.cols + t.cols / 16
  | 1 => t.cols
  | 2 => 2 * t.cols
  | _ => 4 * t.cols

/-- The elements of a row record in FP32 (R263, R359). -/
def Tbl.values (t : Tbl) (r : List Byte) : List Word :=
  match t.fmt with
  | 0 =>
    let sc := (elems 2 (t.cols / 32) (r.drop t.cols)).map fp16.toF32
    ((ints8 (r.take t.cols)).zipIdx).map (fun e => fmul (i2f e.1) (sc.getD (e.2 / 32) 0))
  | 1 => (elems 1 t.cols r).map e4m3.toF32
  | 2 => (elems 2 t.cols r).map bf16.toF32
  | _ => (elems 4 t.cols r).map (BitVec.ofNat 32)

/-- Whether an FP32 value is a zero. -/
def isZero32 (x : Word) : Bool := x &&& 0x7FFFFFFF#32 == 0

/-- Updated elements written back in the table's format (R381): of an INT8 row, blocks whose gradients are all zero
keep their bytes. -/
def Tbl.store (t : Tbl) (old : List Byte) (grad new : List Word) : List Byte :=
  match t.fmt with
  | 0 =>
    let blocks := (chunk 32 t.cols new).zip (chunk 32 t.cols grad)
    let out := (blocks.zipIdx).map (fun e =>
      if e.1.2.all isZero32 then (slice old (32 * e.2) 32, slice old (t.cols + 2 * e.2) 2)
      else
        let (s, q) := quantBlock fp16 127 e.1.1
        (q.map (fun c => BitVec.ofNat 8 (unsigned 8 c)), toLE 2 (fp16.ofF32 s)))
    out.flatMap (·.1) ++ out.flatMap (·.2)
  | 1 => new.map (fun w => BitVec.ofNat 8 (e4m3.ofF32 w))
  | 2 => new.flatMap (fun w => toLE 2 (bf16.ofF32 w))
  | _ => new.flatMap (fun w => toLE 4 w.toNat)

/-- A row's new record under the update rule (R380, R381). -/
def Tbl.update (t : Tbl) (old : List Byte) (grad : List Word) (lr : Word) (adagrad : Bool) : List Byte :=
  let w := t.values old
  let acc : Word := BitVec.ofNat 32 (field old t.accOff 4)
  let m := fdiv (grad.foldl (fun c g => fadd c (fmul g g)) 0) (i2f t.cols)
  let acc' := if adagrad then fadd acc m else acc
  let den := fadd (fsqrt acc') 0x35800000#32
  let new := (w.zip grad).map (fun e =>
    fsub e.1 (if adagrad then fdiv (fmul lr e.2) den else fmul lr e.2))
  slice (t.store old grad new ++ toLE 4 acc'.toNat) 0 t.rowBytes

/-- Size of a gradient record (R379). -/
def Tbl.gradBytes (t : Tbl) : Nat := roundUp (8 + t.cols) 16

/-- A gradient record: its row and its elements in FP32 (R379). -/
def Tbl.gradOf (t : Tbl) (r : List Byte) : Nat × List Word := (field r 0 8, (elems 1 t.cols (r.drop 8)).map e5m2.toF32)

/-- The gradient records of a list. -/
def Tbl.grads (t : Tbl) (data : List Byte) (count : Nat) : List (Nat × List Word) := (records t.gradBytes count data).map t.gradOf

/-- Summed gradients of each distinct row: FP32 from +0 in record order (R45, R380). -/
def sumGrads (cols : Nat) (gs : List (Nat × List Word)) : List (Nat × List Word) :=
  (gs.map (·.1)).eraseDups.map (fun r =>
    (r, (gs.filter (fun g => g.1 == r)).foldl (fun acc g => (acc.zip g.2).map (fun e => fadd e.1 e.2))
      (List.replicate cols 0)))

/-- The rows of an image updated (R380, R381). -/
def Edit.updateRows (e : Edit) (t : Tbl) (data : List Byte) (count : Nat) (lr : Word) (adagrad : Bool) : Edit :=
  (sumGrads t.cols (t.grads data count)).foldl (fun e g =>
    e.put (t.rowOff g.1) (t.update (e.mem.readBytes (t.rowOff g.1) t.rowBytes) g.2 lr adagrad)) e

/-! ### Streams (R383, R384) -/

/-- The row blocks up to the end record: the rows in stream order (R383). -/
def tableBlocks (t : Tbl) : Nat → List Byte → List Nat → Option (List (Nat × List Byte))
  | 0, bs, _ => if bs.length = 32 then some [] else none
  | n + 1, bs, seen =>
    let first := field bs 0 8
    let count := field bs 8 4
    let rs := (List.range count).map (· + first)
    if bs.length < 48 + count * t.rowBytes || !zeroIn bs 12 16 || t.rows < first + count || rs.any (fun r => seen.contains r) then none
    else
      (tableBlocks t n (bs.drop (16 + count * t.rowBytes)) (rs ++ seen)).map
        (fun r => (first, (bs.drop 16).take (count * t.rowBytes)) :: r)

/-- The image a load stream gives a table (R383, R384); none where the stream fails. -/
def tableImage (t : Tbl) (ver : Nat) (bs : List Byte) : Option (Mem × Nat) :=
  let e := bs.drop (bs.length - 32)
  let blocks := field bs 24 8
  let ok := 96 ≤ bs.length && field bs 0 4 == 0x54534254 && field bs 4 1 == t.fmt && zeroIn bs 5 8 && field bs 8 8 == t.rows &&
    field bs 16 4 == t.first && field bs 20 4 == t.cols && zeroIn bs 32 64 && field e 0 4 == 0x4E454254 &&
    field e 4 4 == crc32 (bs.take (bs.length - 32)) && field e 8 8 == blocks && zeroIn e 16 32 && blocks * 16 ≤ bs.length
  if !ok then none
  else (tableBlocks t blocks (bs.drop 64) []).map (fun rs =>
    (rs.foldl (fun m r => m.write (t.rowOff r.1) r.2) (Mem.ofBytes (t.header ver)), t.size))

/-! ### Mutations and streams of any versioned kind -/

/-- The place of the version number in a version's header (R307, R358). -/
def versionField (o : Obj) : Nat := if o.isTable then 28 else 16

/-- The image with its own version number. -/
def withVersion (o : Obj) (m : Mem) (ver : Nat) : Mem := m.putNat (versionField o) 4 ver

/-- The full-vector test of an object's image (R310). -/
def fullTest (o : Obj) (m : Mem) : FullTest := if o.isIndex then ixFull m else fun _ => false

/-- A mutation applied to an image of an object (R140, R382). -/
def applyMutation (o : Obj) (e : Edit) (m : Mutation) : Option Edit :=
  match m, tblOf o with
  | .rows data count lr adagrad, some t => some (e.updateRows t data count lr adagrad)
  | _, _ => e.apply m

/-- Mutations applied in order. -/
def applyMutations (o : Obj) (e : Edit) : List Mutation → Option Edit
  | [] => some e
  | m :: ms => match applyMutation o e m with
    | some e => applyMutations o e ms
    | none => none

/-- The image of a load stream for an index or a table. -/
def streamOf (o : Obj) (ver : Nat) (bs : List Byte) : Option (Mem × Nat) :=
  match tblOf o with
  | some t => tableImage t ver bs
  | none => streamImage (ixOf (verBytes o o.tip)) ver bs

end Sys2Proof.Machine
end

