-- ==== Sys2Proof/Machine/Versions.lean ====
section
/-! DEFINITION. How versions are made (R39, R139, R140, R166, R382): loads from the host, an object or a pushed stream,
builds that wait for their switch, mutations applied again on them, and the switch. -/

namespace Sys2Proof.Machine
open Sys2Proof

/-! ### Pushed streams (R412, R413) -/

/-- A stream is taken or given up. -/
def dropStream (s : State) (f id : Nat) : State :=
  { s with fabric := { s.fabric with streams := s.fabric.streams.filter (fun st => !(st.fn == f && st.id == id)) } }

/-! ### Loads and compactions that run -/

/-- Whether a load or compaction of an object, admitted before a number, is still running. -/
def buildRunning (s : State) (oid seq : Nat) : Bool :=
  s.sched.admitted.any (fun b => b.cmd.isBuild && !b.isDone && b.p 32 4 == oid && b.cmd.fn == oidFn oid && decide (b.seq < seq))

/-- Whether an earlier load of the function names the same stream (R413). -/
def streamTaken (s : State) (a : Adm) : Bool :=
  s.sched.admitted.any (fun b => (b.cmd.opcode == 0x202 || b.cmd.opcode == 0x401) && !b.isDone && b.cmd.fn == a.cmd.fn &&
    b.p 36 1 == 2 && b.p 56 4 == a.p 56 4 && decide (b.seq < a.seq))

/-- A mutation recorded while a load or compaction admitted before it runs (R140, R382). -/
def recordMutation (s : State) (a : Adm) (oid base : Nat) (m : Mutation) : State :=
  if buildRunning s oid a.seq then updObj s oid (fun o => { o with mutations := o.mutations ++ [(a.seq, base, m)] }) else s

/-- Recorded mutations are forgotten once no load or compaction runs. -/
def forgetMutations (s : State) (oid : Nat) : State :=
  if buildRunning s oid s.sched.nextSeq then s else updObj s oid (fun o => { o with mutations := [] })

/-! ### Edits as versions -/

/-- The edit that begins at a version of an object. -/
def editOf (o : Obj) (ver : Nat) : Edit := { mem := verBytes o ver, size := verSize o ver }

/-- Whether an edit writes part of, or reads, a granule of the version it was made from that cannot be read (R182, R516). -/
def editFails (m : Bad) (o : Obj) (ver : Nat) (e : Edit) : Bool :=
  e.granules.any (fun g => rangeBad m o ver (g * granule) granule && decide (g * granule < verSize o ver))

/-- A new table version empties the function's feature cache (R378). -/
def newTable (s : State) (o : Obj) : State := if o.isTable then dropFeatures s o.fn else s

/-- The version that an edit of the newest version makes, owed at completion (R139, R166, R167): NO_SPACE where it
cannot be placed. -/
def commitEdit (s : State) (a : Adm) (oid : Nat) (o : Obj) (e : Edit) (m : Mutation) (count : Nat) : State :=
  match makeVersion s oid o.tip (withVersion o e.mem o.next) e.size ((0 :: e.granules).eraseDups) (fullTest o e.mem) (some a.cmd.cid) with
  | none => fail s a.cmd.cid stNoSpace
  | some (s, n) =>
    finish (owe (recordMutation (newTable s o) a oid o.tip m) a.cmd.cid n) a.cmd.cid
      { count := BitVec.ofNat 32 count, version := BitVec.ofNat 32 (pinnedVer a oid), value := BitVec.ofNat 32 n }

/-! ### Builds -/

/-- A whole new image of a load or compaction (R139, R140): numbered at once without MAKE_CURRENT, else held until its
switch. -/
def startBuild (s : State) (a : Adm) (oid : Nat) (o : Obj) (img : Mem × Nat) (makeCurrent : Bool) : State :=
  let cid := a.cmd.cid
  if 0xFFFFFFFF ≤ o.next then fail s cid stNoSpace
  else match placeBuild s oid (buildTag cid) img.2 (fullTest o img.1) (some cid) with
    | none => forgetMutations (fail s cid stNoSpace) oid
    | some s =>
      let s := reviewHint s oid
      if makeCurrent then
        updObj s oid (fun o => { o with building := o.building ++ [⟨cid, a.seq, img.1, img.2, true⟩] })
      else
        let (s, n) := numberBuild (newTable s o) oid (buildTag cid) (withVersion o img.1 o.next) img.2
        forgetMutations (finish s cid { version := BitVec.ofNat 32 (pinnedVer a oid), value := BitVec.ofNat 32 n }) oid

/-- The outcome of a load's source (R139, R413, R423): its expanded bytes, a failed stream, a lost or uncorrectable read, or nothing yet. -/
inductive LoadSource where
  | bytes (bs : List Byte)
  | bad
  | lost
  | ecc
  | waiting
deriving DecidableEq, Repr

/-- The bytes a load takes; `host` are those read from the host. -/
def loadSource (s : State) (a : Adm) (host : List Byte) : LoadSource :=
  let n := a.p 48 8
  let expand (bs : List Byte) : LoadSource :=
    if bit (a.p 37 1) 1 then (match charcoalExpand bs with | some x => .bytes x | none => .bad) else .bytes bs
  match a.p 36 1 with
  | 0 => if host.length = n then expand host else .waiting
  | 1 =>
    let t := target s a (a.p 40 4)
    if readFails .lost a (a.p 40 4) t 0 n then .lost else if readFails .any a (a.p 40 4) t 0 n then .ecc else expand (readTarget a (a.p 40 4) t 0 n)
  | _ =>
    match streamFor s a.fn (a.p 56 4) with
    | none => .waiting
    | some st =>
      if st.discarded then .bad
      else match st.whole? with
        | some bs => .bytes bs
        | none => .waiting

/-- The targets of a load: the object loaded and, for source 1, the source object. -/
def loadTargets (s : State) (a : Adm) : List Target :=
  target s a (a.p 32 4) :: (if a.p 36 1 = 1 then [target s a (a.p 40 4)] else [])

/-- A load ends with a status; its stream is given up. -/
def loadEnds (s : State) (a : Adm) (oid : Nat) (r : Result) : State :=
  forgetMutations (finish (if a.p 36 1 = 2 then dropStream s a.fn (a.p 56 4) else s) a.cmd.cid r) oid

/-- A load of a version (R139, R328, R329, R383, R384). `kindOk` says whether the object is of the opcode's kind;
`busy` whether the opcode refuses a second one (R139). -/
def loadRun (s : State) (a : Adm) (host : List Byte) (kindOk : Obj → Bool) (busy : Bool) : State :=
  let cid := a.cmd.cid
  let oid := a.p 32 4
  let ti := target s a oid
  let ts := loadTargets s a
  if (objOf s oid).any (fun o => o.building.any (·.cid == cid)) then s
  else
    let met := ti.noWrite || ts.tail.any (·.isForeign)
    if ts.any (·.isMissing) then fail (countForeign s a met) cid stNoObject
    else if ti.bad (fun o => !kindOk o) || ts.tail.any (fun t => t.bad (fun o => !o.isData || beyond a (a.p 40 4) o 0 (a.p 48 8))) then
      fail (countForeign s a met) cid stInvalidParam
    else if (busy && buildRunning s oid a.seq) || (a.p 36 1 == 2 && streamTaken s a) then fail (countForeign s a met) cid stBusyMode
    else match loadSource s a host with
    | .waiting => s
    | src =>
      let s := countForeign s a met
      match ti, src with
        | .own o, .bytes bs =>
          match streamOf o o.next bs with
          | none => loadEnds s a oid (.bare stInvalidParam)
          | some img => startBuild (if a.p 36 1 = 2 then dropStream s a.fn (a.p 56 4) else chargeNear s a.fn bs.length) a oid o img
              (bit (a.p 37 1) 0)
        | .own _, .lost => loadEnds (countTierFail s a.fn) a oid (.bare stTierFail)
        | .own _, .ecc => loadEnds s a oid (.bare stInternal)
        | .own _, _ => loadEnds s a oid (.bare stInvalidParam)
        | _, _ => loadEnds s a oid {}

/-! ### The switch -/

/-- The image of a build with the mutations admitted after it applied again (R140). -/
def reapplied (o : Obj) (b : Building) : Option Edit :=
  applyMutations o { mem := b.bytes, size := b.size } ((o.mutations.filter (fun m => decide (b.seq < m.1))).map (·.2.2))

/-- Granules that the mutations wrote in a build: new ones are placed, those on the peat tier programmed again (R140, R188). -/
def placeReapplied (s : State) (oid : Nat) (o : Obj) (b : Building) (e : Edit) : Option State :=
  let tag := buildTag b.cid
  let grown := (List.range (granules e.size)).filter (fun g => granules b.size ≤ g)
  let redo := e.granules.filter (fun g => o.frames.any (fun fr => fr.ver == tag && fr.gran == g && fr.tier != .near))
  placeAll { s with flash := redo.foldl (fun fl g => flashStart fl oid tag g (some b.cid)) s.flash } oid tag (some b.cid)
    (grown.map (fun g => (g, fullTest o e.mem g)))

/-- A load or compaction switches in (R39, R140): the mutations admitted after it are folded in, it takes the next
number, later mutations build on it, and its command ends. -/
def switchBuild (s : State) (oid : Nat) (o : Obj) (b : Building) : State :=
  let s := updObj s oid (fun o => { o with building := o.building.filter (fun x => x.cid != b.cid) })
  let done := (reapplied o b).bind (fun e =>
    if 0xFFFFFFFF ≤ o.next then none else (placeReapplied s oid o b e).map (fun s => (s, e)))
  match done with
  | none => forgetMutations (fail (dropBuild s oid (buildTag b.cid)) b.cid stNoSpace) oid
  | some (s, e) =>
    let (s, n) := numberBuild (newTable s o) oid (buildTag b.cid) (withVersion o e.mem o.next) e.size
    let s := updObj s oid (fun o => { o with tip := n })
    let ver := (findAdm s b.cid).elim 0 (fun a => pinnedVer a oid)
    forgetMutations (finish (switchTo s oid n) b.cid { version := BitVec.ofNat 32 ver, value := BitVec.ofNat 32 n }) oid

/-- The build that may switch next: the one admitted first, once every mutation admitted before it has run. -/
def nextBuild (s : State) (oid : Nat) (o : Obj) : Option Building :=
  (o.building.foldl (fun best b => match best with
    | none => some b
    | some x => if b.seq < x.seq then some b else some x) none).filter (fun b =>
      (findAdm s b.cid).all (fun a => mutationTurn s a oid))

/-- R39: a fully arrived version becomes current: a build under its next number, or a version a finished command owes. -/
def execVersionSwitch (obj version : Nat) (s : State) : Out :=
  match objOf s obj with
  | none => .next s
  | some o =>
    match (nextBuild s obj o).filter (fun _ => version == o.next) with
    | some b => .next (switchBuild s obj o b)
    | none =>
      if s.sched.admitted.any (fun a => a.isDone && a.switch == some version && a.switchObj == obj) then
        .next (switchTo s obj version)
      else .next s

end Sys2Proof.Machine
end

