-- ==== Sys2Proof/Machine/CollOps.lean ====
section
/-! DEFINITION. Collectives (R33, R147, R148, R351, R404-R408): what a member contributes, the folds and merges at the
members that form a result, its delivery, and the completion of the local command or descriptor. -/

namespace Sys2Proof.Machine
open Sys2Proof

/-- Members of a collective. -/
def Coll.m (c : Coll) : Nat := c.members.length

/-- Whether the kind has a root (R148). -/
def rooted (kind : Nat) : Bool := kind == 0 || kind == 2 || kind == 3

/-- Whether two members' parameters agree (R148, R404). -/
def Coll.agrees (c : Coll) (kind root len k : Nat) : Bool :=
  c.kind == kind && c.len == len && c.k == k && (!rooted kind || c.root == root)

/-- Bytes that each contribution to this node holds (R405). -/
def Coll.share (c : Coll) : Nat := if c.kind = 1 || c.kind = 4 then c.len / max 1 c.m else c.len

/-- The members whose contributions this node needs (R405). -/
def Coll.sources (c : Coll) : List Nat :=
  if c.kind = 3 then [c.root]
  else if (c.kind = 0 || c.kind = 2) && c.self != c.root then []
  else List.range c.m

/-- A member's contribution, once all of it is here. -/
def Coll.partOf (c : Coll) (i : Nat) : Option (List Byte) :=
  let ps := (c.parts.filter (fun p => p.1 == i)).map (·.2)
  if ps.isEmpty || contiguousEnd ps < c.share then none
  else some (Mem.readBytes (ps.foldl (fun m p => Mem.write m p.1 p.2) []) 0 c.share)

/-- Every contribution this node needs, once all are here. -/
def Coll.allParts (c : Coll) : Option (List (List Byte)) :=
  let ps := c.sources.map c.partOf
  if ps.all (·.isSome) then some (ps.map (·.getD [])) else none

/-- FP32 elements of bytes. -/
def words (bs : List Byte) : List Word := (elems 4 (bs.length / 4) bs).map (BitVec.ofNat 32)

/-- The left fold of R33 over contributions in ascending member index, from +0, element by element. -/
def foldParts (n : Nat) (ps : List (List Byte)) : List Byte :=
  (ps.foldl (fun acc p => (acc.zip (words p)).map (fun e => fadd e.1 e.2)) (List.replicate (n / 4) 0)).flatMap (fun w => toLE 4 w.toNat)

/-- The entries that contributions to a top-k collective hold. -/
def partEntries (ps : List (List Byte)) : List Entry := ps.flatMap (fun p => (records 24 (p.length / 24) p).map Entry.ofBytes)

/-- The merged entries of a top-k collective (R351). -/
def mergeParts (k : Nat) (ps : List (List Byte)) : List Entry :=
  topK Config.collectiveSimilarity true k (validEntries (partEntries ps)).1

/-- NaN entries that a member meets when it forms a result (R29). -/
def Coll.invalid (c : Coll) (ps : List (List Byte)) : Nat := if c.kind = 2 then (validEntries (partEntries ps)).2 else 0

/-- The result that this node forms from its contributions (R405). -/
def Coll.result (c : Coll) (ps : List (List Byte)) : List Byte :=
  match c.kind with
  | 0 | 1 => foldParts c.share ps
  | 2 => entryBytes (mergeParts c.k ps)
  | _ => ps.flatten

/-- Whether this node forms its result from contributions; else the root delivers it (R405). -/
def Coll.forms (c : Coll) : Bool := !((c.kind == 0 || c.kind == 2) && c.self != c.root)

/-- The delivered result, once all of it is here. -/
def Coll.delivery (c : Coll) : Option (List Byte) :=
  Stream.whole? { fn := c.fn, id := c.seq, parts := c.got, last := c.gotEnd }

/-! ### Sending -/

/-- The first 16 payload bytes of a Contribution (R404). -/
def collHead (kind root len k : Nat) : List Byte := lay 16 [(0, 1, kind), (2, 2, root), (4, 8, len), (12, 4, k)]

/-- Packets of a member's part to another member, tagged with the epoch of the function's tenant share (R404, R407). -/
def sendPart (s : State) (c : Coll) (j : Nat) (bs : List Byte) : State :=
  sendPlain s 3 (c.members.getD j 0) c.fn (fnOf s c.fn).shareEpoch c.seq (collHead c.kind c.root c.len c.k) bs

/-- The bytes this node contributes to member j (R405). -/
def Coll.partFor (c : Coll) (j : Nat) : List Byte :=
  if c.kind = 1 || c.kind = 4 then slice c.own (j * c.share) c.share else c.own

/-- The members this node contributes to, itself included (R405). -/
def Coll.targets (c : Coll) : List Nat :=
  match c.kind with
  | 0 | 2 => [c.root]
  | 3 => if c.self = c.root then List.range c.m else []
  | 1 | 4 => List.range c.m
  | _ => []

/-- This node's contributions go out; a member that takes no bytes of it gets its parameters alone, so that members who
disagree learn it of each other whatever their kinds and roots (R148). -/
def sendParts (s : State) (c : Coll) : State :=
  ((List.range c.m).filter (· != c.self)).foldl (fun s j =>
    sendPart s c j (if c.targets.contains j then c.partFor j else [])) s

/-- The median delivery wait of a group (R463). -/
def PaceGroup.slack (g : PaceGroup) : Nat := median g.waits

/-- A delivery wait is measured: from the last contribution packet to the result at its destination (R463). -/
def measureWait (s : State) (c : Coll) : State :=
  if 2 < c.kind then s
  else
    let is (g : PaceGroup) : Bool := g.fn == c.fn && g.members == c.members
    let old := (s.draught.paceGroups.find? is).elim [] (·.waits)
    let g : PaceGroup := { fn := c.fn, members := c.members, last := now s, waits := ((now s - c.sentAt) / 100 :: old).take 64 }
    let gs := s.draught.paceGroups.filter (fun x => !is x) ++ [g]
    let low := gs.foldl (fun m x => min m x.slack) 65535
    { s with draught := { s.draught with paceGroups := gs, paceSlackUs := BitVec.ofNat 16 low } }

/-- The end of a collective is told to every other member by a Contribution of kind 255, with the status in place of its length: a
disagreement (R148), a function that is reset (R414). -/
def tellMembers (s : State) (c : Coll) (st : Byte) : State :=
  ((List.range c.m).filter (· != c.self)).foldl (fun s j =>
    sendPlain s 3 (c.members.getD j 0) c.fn (fnOf s c.fn).shareEpoch c.seq (collHead 255 0 st.toNat 0) []) s

/-- A disagreement is told to the other members (R148). -/
def sendDisagreement (s : State) (c : Coll) : State := tellMembers s c stInvalidParam

/-- A collective that ends with a status whatever its parts (R148, R414). -/
def Coll.spoiled (c : Coll) (st : Nat) : Coll := { c with kind := 255, len := st }

/-- Whether every contribution sent has been acknowledged (R405). -/
def partsAcked (s : State) (c : Coll) : Bool :=
  !(s.fabric.retained.any (fun r => match r.em with
    | .packet 3 _ f _ _ _ ctx _ _ _ _ _ => f == c.fn && ctx == c.seq
    | _ => false)) &&
  (c.targets.filter (· != c.self)).all (fun j => reachable s 3 (c.members.getD j 0) c.fn c.seq)

/-! ### The record -/

/-- Whether a record is that of an identity (R404). -/
def Coll.is (c : Coll) (f : Nat) (members : List Nat) (seq : Nat) : Bool := c.fn == f && c.members == members && c.seq == seq && c.kind != 5

/-- The record of an identity. -/
def collOf (s : State) (f : Nat) (members : List Nat) (seq : Nat) : Option Coll := s.fabric.colls.find? (fun c => c.is f members seq)

/-- A record stored. -/
def putColl (s : State) (c : Coll) : State :=
  { s with fabric := { s.fabric with colls := s.fabric.colls.filter (fun x => !(x.is c.fn c.members c.seq)) ++ [c] } }

/-- A record removed. -/
def dropColl (s : State) (c : Coll) : State :=
  { s with fabric := { s.fabric with colls := s.fabric.colls.filter (fun x => !(x.is c.fn c.members c.seq)) } }

/-- Members whose parameters are still to come, when nothing else of theirs is. -/
def Coll.unheard (c : Coll) : List Nat :=
  (List.range c.m).filter (fun i => i != c.self && !c.sources.contains i && !(c.parts.any (·.1 == i)))

/-- A record removed at the end of its work: parameters still to come are known for late ones and dropped (R148). -/
def closeColl (s : State) (c : Coll) : State :=
  let s := dropColl s c
  { s with fabric := { s.fabric with late := s.fabric.late ++ c.unheard.map (fun i => (c.fn, c.members, c.seq, i)) } }

/-- Bytes of pushes and contributions held for work not yet begun (R404, R413). -/
def heldBytes (s : State) : Nat :=
  (s.fabric.colls.filter (fun c => !c.begun)).foldl (fun n c => c.parts.foldl (fun n p => n + p.2.2.length) n) 0 +
  (s.fabric.streams.filter (fun st => !(s.sched.admitted.any (fun a => (a.cmd.opcode == 0x202 || a.cmd.opcode == 0x401) && a.fn == st.fn &&
    a.p 36 1 == 2 && a.p 56 4 == st.id)))).foldl (fun n st => st.parts.foldl (fun n p => n + p.2.2.length) n) 0

/-! ### The end of a member's part -/

/-- The completion word of a collective descriptor and its arrival (R408). -/
def collWord (s : State) (sh : Nat) (d : List Byte) (status count : Nat) : State :=
  let no := (shuttleOf s sh).inst
  match AMap.get? s.prog.instances no with
  | none => s
  | some i =>
    let s := progWrite s no i (sh / 128) (field d 48 8) (lay 16 [(0, 4, status), (4, 4, count)])
    if bit (field d 1 1) 0 then arriveFor s i.fn (field d 40 2) 1 else s

/-- Whether a member has no destination (R405). -/
def Coll.noDst (s : State) (c : Coll) : Bool :=
  match c.cid, c.desc with
  | some cid, _ => (findAdm s cid).any (fun a => a.p 44 4 == 0)
  | none, some d => field d.2.1 16 8 == 0
  | none, none => true

/-- The result put into the member's destination; whether that failed is an outcome of the command. -/
def collStore (s : State) (c : Coll) (bs : List Byte) : State × Byte :=
  match c.cid, c.desc with
  | some cid, _ => match findAdm s cid with
    | none => (s, stOk)
    | some a => match target s a (a.p 44 4) with
      | .own _ => match writeData s (a.p 44 4) (a.p 56 8) bs (fun _ => false) (some cid) with
        | none => (s, stNoSpace)
        | some (s, _, whole) => if whole then (s, stOk) else (countTierFail s c.fn, stTierFail)
      | _ => (s, stOk)
  | none, some d =>
    let no := (shuttleOf s d.1).inst
    ((AMap.get? s.prog.instances no).elim s (fun i => progWrite s no i (d.1 / 128) (field d.2.1 16 8) bs), stOk)
  | none, none => (s, stOk)

/-- The local command or descriptor ends. A descriptor's STATUS is 1 for SHORT, 3 for a tier failure, 2 for an outcome
that has no code of its own. -/
def collEnds (s : State) (c : Coll) (st : Byte) (count invalid : Nat) : State :=
  match c.cid, c.desc with
  | some cid, _ => finish s cid { status := st, count := BitVec.ofNat 32 (if c.kind = 2 then count else 0), invalid := BitVec.ofNat 32 invalid }
  | none, some d => collWord s d.1 d.2.1 (if st = stOk then 0 else if st = stShort then 1 else if st = stTierFail then 3 else 2) count
  | none, none => s

/-- The status and count of a result of this many bytes (R351, R408). -/
def Coll.outcome (c : Coll) (n : Nat) : Byte × Nat := if c.kind = 2 then (shortOr (n / 24) c.k, n / 24) else (stOk, n)

/-- The result of a root delivered to every other member (R405). -/
def deliver (s : State) (c : Coll) (bs : List Byte) : State :=
  if c.kind = 0 || c.kind = 2 then
    ((List.range c.m).filter (· != c.self)).foldl (fun s j =>
      sendPlain s 4 (c.members.getD j 0) c.fn (fnOf s c.fn).shareEpoch c.seq [] bs) s
  else s

/-- A member's result is at hand: written, delivered, and its part ends, once its segments of a reduce-scatter are
acknowledged (R405). -/
def collDone (s : State) (c : Coll) (bs : List Byte) (invalid : Nat) : State :=
  let (s, st) := if c.noDst s then (s, stOk) else collStore (measureWait s c) c bs
  let s := if c.forms then deliver s c bs else s
  let (o, n) := c.outcome bs.length
  if c.kind = 1 && st = stOk && !partsAcked s c then putColl s { c with delivered := true }
  else collEnds (closeColl s c) c (if st = stOk then (if c.noDst s then stOk else o) else st) (if c.noDst s then 0 else n) invalid

/-- The port reeds' part of a top-k collective: every contribution's entries are keys, and a k above 1,024 uses the reserved near tier
(R347, R351, R357). -/
def countMerge (s : State) (c : Coll) : State :=
  if c.kind ≠ 2 || !c.forms then s
  else countSpill (countKeys s c.fn (c.m * (c.len / 24))) (if 1024 < c.k then max 65537 c.k else c.k)

/-- A collective moves on as far as it can (R148, R405, R406). -/
def collStep (s : State) (c : Coll) : State :=
  if !c.begun then s
  else if c.kind = 255 then collEnds (dropColl s c) c (BitVec.ofNat 8 c.len) 0 0
  else if c.delivered then
    if partsAcked s c then collEnds (closeColl s c) c (c.outcome c.share).1 (c.outcome c.share).2 0 else s
  else
    let out := if c.forms then c.allParts.map (fun ps => (c.result ps, c.invalid ps)) else c.delivery.map (·, 0)
    match out with
    | some (bs, bad) => collDone (countMerge s c) c bs bad
    | none =>
      if c.noDst s && partsAcked s c && (c.cid.isSome || c.desc.isSome) then
        -- it receives nothing: its own part ends, a root still forms the result
        collEnds (if c.forms then putColl s { c with cid := none, desc := none } else closeColl s c) c stOk 0 0
      else s

/-- Collectives of a function under a number move on (an acknowledgement has come). -/
def collStepAll (s : State) : State :=
  s.fabric.colls.foldl (fun s c => match collOf s c.fn c.members c.seq with
    | some c => collStep s c
    | none => s) s

/-- This node begins its part (R404, R405): contributions held are taken up, its own go out. -/
def collBegin (s : State) (c : Coll) : State :=
  let held := collOf s c.fn c.members c.seq
  if held.any (fun h => !(h.agrees c.kind c.root c.len c.k)) then
    let c := { c.spoiled (match held.filter (fun h => h.kind == 255) with
      | some h => h.len
      | none => stInvalidParam.toNat) with begun := true }
    let s := if held.any (fun h => h.kind != 255) then sendDisagreement s c else s
    collStep (putColl s c) c
  else
    let mine := if c.targets.contains c.self then [(c.self, 0, c.partFor c.self)] else []
    let c := { c with begun := true, sentAt := now s, parts := held.elim [] (·.parts) ++ mine, got := held.elim [] (·.got), gotEnd := held.bind (·.gotEnd) }
    collStep (sendParts (putColl s c) c) c

/-! ### The command -/

/-- Whether LEN breaks R148 or R405. -/
def collLenBad (kind len m : Nat) : Bool :=
  (kind == 0 && len % 4 != 0) || (kind == 1 && len % (4 * m) != 0) || (kind == 4 && len % m != 0)

/-- Bytes a member's destination takes at most (R405). -/
def collDstBytes (kind len k m : Nat) : Nat := if kind = 1 then len / m else if kind = 2 then 24 * k else len

/-- Zeros of a collective over a group outside the rights (R129). -/
def collForeign (s : State) (a : Adm) : State :=
  match target s a (a.p 44 4) with
  | .own _ => match writeData s (a.p 44 4) (a.p 56 8) (List.replicate (a.p 64 8) 0#8) (fun _ => false) (some a.cmd.cid) with
    | none => fail s a.cmd.cid stNoSpace
    | some (s, _, whole) => if whole then finish s a.cmd.cid {} else tierFailed s a
  | _ => finish s a.cmd.cid {}

/-- R147, R148, R405: COLLECTIVE. -/
def execCollective (cid : Nat) (s : State) : Out := withCmd s cid 0x602 (fun a =>
  let src := a.p 40 4
  let dst := a.p 44 4
  let kind := a.p 36 1
  let root := a.p 38 2
  let len := a.p 64 8
  let tg := target s a (a.p 32 4)
  let ts := target s a src
  let td := target s a dst
  let (members, self) := match tg.obj?.map (·.kind) with
    | some (.group ms i) => (ms, i)
    | _ => ([], 0)
  let m := max 1 members.length
  let taken := (collOf s a.fn members (a.p 76 4)).any (·.begun)
  let c : Coll := { fn := a.fn, members := members, seq := a.p 76 4, kind := kind, root := root, len := len, k := a.p 72 4, self := self
                    cid := some cid, own := if kind = 3 && self != root then [] else readTarget a src ts (a.p 48 8) len }
  if !tg.isForeign && taken then s
  else
    let s := countForeign s a (tg.isForeign || ts.isForeign || (dst != 0 && td.noWrite))
    if tg.isMissing || ts.isMissing || (dst != 0 && td.isMissing) then fail s cid stNoObject
    else if tg.bad (fun o => match o.kind with | .group _ _ => false | _ => true) ||
        ts.bad (fun o => !o.isData || ((kind != 3 || self == root) && beyond a src o (a.p 48 8) len)) ||
        (dst != 0 && !td.noWrite && td.bad (fun o => !o.isData || beyond a dst o (a.p 56 8)
          (if tg.isForeign then len else collDstBytes kind len c.k m))) ||
        (!tg.isForeign && ((rooted kind && decide (members.length ≤ root)) || collLenBad kind len m)) then fail s cid stInvalidParam
    else if !tg.isForeign && self == root && !largeFits s a.cmd.selectLarge then fail s cid stNoSpace
    else if (kind != 3 || self == root) && readFails .any a src ts (a.p 48 8) len then
      readFailed s a (readFails .lost a src ts (a.p 48 8) len)
    else if tg.isForeign then (if dst = 0 then finish s cid {} else collForeign s a)
    else collBegin (setPhase s cid .waitCollective) c)

/-! ### Descriptors (R408) -/

/-- The group of a descriptor: members and this node's index. -/
def descGroup (s : State) (f : Nat) (d : List Byte) : Option (List Nat × Nat) :=
  match (liveObj s (field d 4 4)).filter (fun o => o.fn == f) with
  | some o => match o.kind with
    | .group ms i => some (ms, i)
    | _ => none
  | none => none

/-- Whether a descriptor is rejected (R408). -/
def collRejected (s : State) (f : Nat) (feats : BitVec 128) (d : List Byte) : Bool :=
  let kind := field d 0 1
  let len := field d 24 8
  let grp := descGroup s f d
  let m := max 1 (grp.elim 1 (·.1.length))
  decide (4 < kind) || decide (2 ≤ field d 1 1) || decide (65536 ≤ field d 40 4) || !zeroIn d 56 64 || field d 8 8 % 8 != 0 ||
  field d 48 8 % 16 != 0 || (oidFn (field d 4 4) == f && grp.isNone) || (grp.isSome && rooted kind && decide (m ≤ field d 2 2)) ||
  (oidFn (field d 4 4) == f && collLenBad kind len m) || (kind == 2 && !kOk feats (field d 32 4)) ||
  (oidFn (field d 4 4) == f && grp.any (fun g => (collOf s f g.1 (field d 36 4)).any (·.begun)))

/-- A descriptor that was not rejected begins (R129, R408). -/
def collIssue (s : State) (sh no : Nat) (i : Instance) (d : List Byte) : State :=
  let len := field d 24 8
  match descGroup s i.fn d with
  | none =>
    let s := progViolate s no
    let s := if field d 16 8 = 0 then s else progWrite s no i (sh / 128) (field d 16 8) (List.replicate len 0#8)
    collWord s sh d 0 (if field d 16 8 = 0 then 0 else if field d 0 1 = 2 then len / 24 else len)
  | some (ms, self) =>
    let reads := !(field d 0 1 == 3 && self != field d 2 2)
    let (own, bad) := if field d 0 1 = 3 && self != field d 2 2 then ([], false) else progRead s i (sh / 128) (field d 8 8) len
    let s := if bad then progViolate s no else s
    let k := if field d 0 1 = 2 && self = field d 2 2 && 1024 < field d 32 4 then field d 32 4 else 0
    if !largeFits s k then collWord s sh d 2 0
    else if reads && progBad .lost s i (field d 8 8) len then collWord (countTierFail s i.fn) sh d 3 0
    else if reads && progBad .any s i (field d 8 8) len then collWord s sh d 3 0
    else collBegin s { fn := i.fn, members := ms, seq := field d 36 4, kind := field d 0 1, root := field d 2 2, len := len
                       k := field d 32 4, self := self, desc := some (sh, d, now s), own := own }

end Sys2Proof.Machine
end

