-- ==== Sys2Proof/Machine/Search.lean ====
section
/-! DEFINITION. Searches (R141-R143, R318-R323): the procedure, its ends, batches, filter evaluation (R317), version
information (R138), and the pick windows a search joins (R247, R248). -/

namespace Sys2Proof.Machine
open Sys2Proof

/-- The parameters of a search (R141). -/
structure SearchPar where
  k : Nat
  nprobe : Nat
  cap : Nat
  widen : Bool
  noDedup : Bool
  noRerank : Bool
  rerankN : Nat
  fmt : Nat
  scale : Word


/-- The parameters of a packet (R141). -/
def searchPar (c : Cmd) : SearchPar :=
  let fl := c.p 48 4
  { k := c.p 40 4, nprobe := c.p 44 2, cap := c.p 46 2, widen := bit fl 0, noDedup := bit fl 1, noRerank := bit fl 2
    rerankN := c.p 88 4, fmt := c.p 72 1, scale := BitVec.ofNat 32 (c.p 84 4) }

/-- What one query returns (R142, R143), with the keys its reeds accepted (R357). -/
structure Found where
  status : Byte
  rflags : Byte := 0
  invalid : Nat := 0
  entries : List Entry := []
  keys : Nat := 0

/-- The index version a search reads, with what it needs to see failed reads (R322). -/
structure SearchOn where
  obj : Obj
  ver : Nat
  ix : Ix
  flt : Filter
  bitFails : Bad → Nat → Bool

/-- Whether a range of the version cannot be read. -/
def SearchOn.fails (m : Bad) (j : SearchOn) (off n : Nat) : Bool := rangeBad m j.obj j.ver off n

/-- Whether the scan of a list meets a failed read (R322): its directory entry, records, code rows or filter bits. -/
def listFails (m : Bad) (j : SearchOn) (l : Nat) : Bool :=
  let x := j.ix
  let n := x.count l
  j.fails m (x.dir + 64 * l) 64 || j.fails m (x.rowOff l 0) (x.stride * n) || j.fails m (x.recOff l 0) (16 * n) ||
  (List.range n).any (fun p => !recDead x.mem (x.recOff l p) && j.bitFails m (recRow x.mem (x.recOff l p)))

/-- Whether the record of a node meets a failed read (R322). -/
def nodeFails (m : Bad) (j : SearchOn) (n : Nat) : Bool :=
  j.fails m (j.ix.nodeOff n) j.ix.nstride ||
  (!recDead j.ix.mem (j.ix.nodeOff n) && j.bitFails m (recRow j.ix.mem (j.ix.nodeOff n)))

/-- Offset of the full vector of an ordinal (R312, R314). -/
def fullOf (x : Ix) (ordinal : Nat) : Nat :=
  if x.graph then x.nodeFull ordinal else x.fullOff (ordinal / 2 ^ 40) (ordinal % 2 ^ 40)

/-- A search ended early (R44, R322): PARTIAL over the merged candidates where it accepts that, else the status alone. -/
def endedEarly (sim accept : Bool) (st : Byte) (p : SearchPar) (es : List Entry) (invalid : Nat) (widened : Bool) : Found :=
  if accept then
    { status := stPartial, rflags := (if widened then rfWidened else 0), invalid := invalid
      entries := (if p.noDedup then byRank sim es else collapse sim es).take p.k, keys := es.length + invalid }
  else { status := st, keys := es.length + invalid }

/-- A search ended by a failed read: as R44 says for a lost one, INTERNAL for an uncorrectable block (R516). -/
def endedRead (lost sim accept : Bool) (p : SearchPar) (es : List Entry) (invalid : Nat) (widened : Bool) : Found :=
  if lost then endedEarly sim accept stTierFail p es invalid widened else { status := stInternal }

/-- The final selection from the whole candidate set: cut by code key, reranked where asked (R318, R320), or the end that
a full vector's failed read brings. -/
def finalSelect (j : SearchOn) (q : Query) (p : SearchPar) (accept : Bool) (es : List Entry) (invalid : Nat) (widened : Bool) :
    Found :=
  let x := j.ix
  let d := if p.noDedup then byRank x.sim es else collapse x.sim es
  let r := d.take (if p.noRerank then p.k else p.rerankN)
  let fl := if widened then rfWidened else 0
  if p.noRerank then
    { status := shortOr r.length p.k, rflags := fl, invalid := invalid, entries := r, keys := es.length + invalid }
  else if r.any (fun e => j.fails .any (fullOf x e.ordinal) (2 * x.dim)) then
    endedRead (r.any (fun e => j.fails .lost (fullOf x e.ordinal) (2 * x.dim))) x.sim accept p es invalid widened
  else
    let (v, bad) := validEntries (r.map (fun e => { e with score := rerankScore x q (fullOf x e.ordinal) }))
    let best := (byRank x.sim v).take p.k
    { status := shortOr best.length p.k, rflags := fl, invalid := invalid + bad, entries := best
      keys := es.length + invalid + r.length }

/-! ### List indexes -/

/-- The first and the last number of lists (R318). -/
def listStart (x : Ix) (p : SearchPar) : Nat := min p.nprobe x.lists
def listCap (x : Ix) (p : SearchPar) : Nat := if p.cap = 0 then listStart x p else min p.cap x.lists

/-- Whether n lists suffice: enough candidates, no widening, or the cap (R318). -/
def listEnough (j : SearchOn) (q : Query) (p : SearchPar) (ranked : List Nat) (n : Nat) : Bool :=
  let es := (listsCandidates j.ix q j.flt (ranked.take n)).1
  decide (p.k ≤ (if p.noDedup then es else collapse j.ix.sim es).length) || !p.widen || n == listCap j.ix p

/-- The doubling loop of R318, stopped at a list whose scan fails: the final n, and whether a scan failed. -/
def listLoop (j : SearchOn) (q : Query) (p : SearchPar) (ranked : List Nat) : Nat → Nat → Nat × Bool
  | 0, n => (n, false)
  | fuel + 1, n =>
    if (ranked.take n).any (listFails .any j) then (n, true)
    else if listEnough j q p ranked n then (n, false)
    else listLoop j q p ranked fuel (min (2 * n) (listCap j.ix p))

/-- A partial end over lists (R322): NaN scores of the merged lists, WIDENED by a list beyond the starting n. -/
def listPartial (j : SearchOn) (q : Query) (p : SearchPar) (accept : Bool) (st : Byte) (ranked merged : List Nat) : Found :=
  let (es, bad) := listsCandidates j.ix q j.flt merged
  endedEarly j.ix.sim accept st p es bad (merged.any (fun l => !(ranked.take (listStart j.ix p)).contains l))

/-- A query of a list index (R318). `before` are the lists already merged for it (R42). -/
def searchLists (j : SearchOn) (q : Query) (p : SearchPar) (accept : Bool) (before : List Nat) : Found :=
  let x := j.ix
  if j.fails .any x.cent (x.cstride * x.lists) then endedRead (j.fails .lost x.cent (x.cstride * x.lists)) x.sim accept p [] 0 false
  else if listStart x p = 0 then { status := stShort }
  else
    let ranked := rankedLists x q
    let (n, failed) := listLoop j q p ranked 32 (listStart x p)
    if failed then
      if ((ranked.take n).find? (listFails .any j)).any (listFails .lost j) then
        listPartial j q p accept stTierFail ranked
          (before ++ ((ranked.take n).takeWhile (fun l => !listFails .any j l)).filter (fun l => !before.contains l))
      else { status := stInternal }
    else
      let (es, bad) := listsCandidates x q j.flt (ranked.take n)
      finalSelect j q p accept es bad (decide (listStart x p < n))

/-! ### Graph indexes -/

/-- The first and the last beam width (R323). -/
def beamStart (p : SearchPar) : Nat := max p.nprobe p.k
def beamCap (p : SearchPar) : Nat := if p.cap = 0 then beamStart p else max p.cap (beamStart p)

/-- The nodes visited in the first steps of a walk that precede a failed read, if one fails (R322), and
whether it met a lost granule. -/
def walkFailure (j : SearchOn) (w : Walk) : Option (Nat × Bool) :=
  match w.visited.findIdx? (fun n => nodeFails .any j n.1) with
  | none => none
  | some i => some ((w.steps.filter (fun c => decide (c ≤ i))).foldl max 0, (w.visited[i]?).any (fun n => nodeFails .lost j n.1))

/-- The doubling loop over beams (R323): the final width, its walk, and the visited nodes kept where a step fails. -/
def beamLoop (j : SearchOn) (q : Query) (p : SearchPar) : Nat → Nat → Nat × Walk × Option (Nat × Bool)
  | 0, b => let w := walk j.ix q b; (b, w, walkFailure j w)
  | fuel + 1, b =>
    let w := walk j.ix q b
    match walkFailure j w with
    | some i => (b, w, some i)
    | none =>
      let es := (nodeCandidates j.ix j.flt w.visited).1
      if p.k ≤ es.length || !p.widen || b == beamCap p then (b, w, none)
      else beamLoop j q p fuel (min (2 * b) (beamCap p))

/-- A query of a graph index (R318, R323). -/
def searchGraph (j : SearchOn) (q : Query) (p : SearchPar) (accept : Bool) : Found :=
  let (b, w, stop) := beamLoop j q p 32 (beamStart p)
  let widened := decide (beamStart p < b)
  match stop with
  | some (n, lost) =>
    let (es, bad) := nodeCandidates j.ix j.flt (w.visited.take n)
    endedRead lost j.ix.sim accept p es bad (widened && n != 0)
  | none =>
    let (es, bad) := nodeCandidates j.ix j.flt w.visited
    finalSelect j q p accept es bad widened

/-- One query of a search on its pinned version (R318). -/
def searchQuery (j : SearchOn) (q : Query) (p : SearchPar) (accept : Bool) (before : List Nat) : Found :=
  if j.ix.graph then searchGraph j q p accept else searchLists j q p accept before

/-! ### Commands -/

/-- Filter targets of a command: the bitmaps within FILTER_COUNT (R316). -/
def filterTargets (s : State) (a : Adm) (at' n : Nat) : List (Target × Nat) :=
  (List.range (min 4 n)).map (fun i => let o := a.p (at' + 4 * i) 4; (target s a o, o))

/-- The pinned filter of a command (R129, R169, R316). -/
def filterOf (a : Adm) (rule : Nat) (ts : List (Target × Nat)) : Filter :=
  { rule := rule
    maps := ts.map (fun t => match t.1.obj? with
      | some o => (pinnedBytes a t.2 o, pinnedSize a t.2 o)
      | none => ([], 0)) }

/-- Whether the filter bits of a row cannot be read (R322). -/
def filterFails (a : Adm) (ts : List (Target × Nat)) (m : Bad) (row : Nat) : Bool :=
  row != noRow && ts.any (fun t => t.1.obj?.any (fun o =>
    decide (row / 8 < pinnedSize a t.2 o) && rangeBad m o (pinnedVer a t.2) (row / 8) 1))

/-- The targets of a search (R141): index, filters, query object. -/
structure SearchTargets where
  index : Target
  filters : List (Target × Nat)
  query : Option Target

def searchTargets (s : State) (a : Adm) : SearchTargets where
  index := target s a (a.p 32 4)
  filters := filterTargets s a 56 (a.p 52 1)
  query := if a.p 76 4 = 0 then none else some (target s a (a.p 76 4))

/-- Targets in parameter order. -/
def SearchTargets.all (t : SearchTargets) : List Target := t.index :: t.filters.map (·.1) ++ t.query.toList

/-- Bytes of one query (R141). -/
def queryBytes (fmt dim : Nat) : Nat := if fmt = 1 then 2 * dim else dim

/-- The checks of a search against its objects (item 2 of R131; R124, R141). -/
def searchBad (a : Adm) (t : SearchTargets) (batch : Bool) : Bool :=
  let p := searchPar a.cmd
  t.index.bad (fun o => !o.isIndex) || t.filters.any (fun f => f.1.bad (fun o => !o.isBitmap)) ||
  (match t.query with
   | some q => q.bad (fun o => !o.isData)
   | none => false) ||
  (match t.index.obj? with
   | none => false
   | some o =>
     let dim := (ixOf (pinnedBytes a (a.p 32 4) o)).dim
     let sz := queryBytes p.fmt dim
     match t.query with
     | none => decide (a.cmd.length < 112 + dim) || !zeroIn a.cmd.packet (96 + dim) (a.cmd.length - 16)
     | some q =>
       let stride := if batch then a.p 100 4 else 0
       let n := if batch then a.p 96 4 else 1
       (batch && decide (stride < sz)) ||
       q.bad (fun qo => beyond a (a.p 76 4) qo (a.p 80 4) ((n - 1) * stride + sz)))

/-- The version a search reads. -/
def searchOn (a : Adm) (t : SearchTargets) (o : Obj) : SearchOn where
  obj := o
  ver := pinnedVer a (a.p 32 4)
  ix := ixOf (pinnedBytes a (a.p 32 4) o)
  flt := filterOf a (a.p 54 2) t.filters
  bitFails := filterFails a t.filters

/-- Query i of a command and whether its read fails (R141, R322). -/
def searchInput (a : Adm) (t : SearchTargets) (dim i : Nat) (batch : Bool) : Query × (Bad → Bool) :=
  let p := searchPar a.cmd
  let n := queryBytes p.fmt dim
  match t.query with
  | none => (queryOf p.fmt dim p.scale (slice a.cmd.packet 96 n), fun _ => false)
  | some q =>
    let off := a.p 80 4 + (if batch then i * a.p 100 4 else 0)
    (queryOf p.fmt dim p.scale (readTarget a (a.p 76 4) q off n), fun m => readFails m a (a.p 76 4) q off n)

/-- Lists merged for query i: a merged number holds the query in bits 48 up (R42). -/
def mergedFor (a : Adm) (i : Nat) : List Nat :=
  (a.merged.filter (fun m => m / 2 ^ 48 == i)).map (fun m => m % 2 ^ 48)

/-- The outcome of query i of a search (R318); outside the rights an index without lists or nodes (R129). -/
def runQuery (a : Adm) (t : SearchTargets) (batch : Bool) (i : Nat) : Found :=
  match t.index.obj? with
  | none => { status := stShort }
  | some o =>
    let j := searchOn a t o
    let (q, failed) := searchInput a t j.ix.dim i batch
    let p := searchPar a.cmd
    if failed .any then endedRead (failed .lost) j.ix.sim a.cmd.acceptPartial p [] 0 false
    else searchQuery j q p a.cmd.acceptPartial (mergedFor a i)

/-- Whether query i's reading ended in a peat-tier failure. -/
def Found.tierFailed (a : Adm) (f : Found) : Bool :=
  f.status == stTierFail || (a.cmd.acceptPartial && f.status == stPartial)

/-- The version a search reports (R115): the pinned one, 0 outside the rights. -/
def searchVersion (a : Adm) (t : SearchTargets) : BitVec 32 :=
  match t.index.obj? with
  | some _ => BitVec.ofNat 32 (pinnedVer a (a.p 32 4))
  | none => 0

/-- The reply of a single search (R142). -/
def searchResult (ver : BitVec 32) (f : Found) : Result :=
  if stInvalidOpcode ≤ f.status then .bare f.status
  else
    { status := f.status, rflags := f.rflags, count := BitVec.ofNat 32 f.entries.length
      invalid := BitVec.ofNat 32 f.invalid, version := ver, data := entryBytes f.entries }

/-- A query's block of SEARCH_BATCH (R143). -/
def searchBlock (k : Nat) (f : Found) : List Byte :=
  lay 16 [(0, 1, f.status.toNat), (1, 1, f.rflags.toNat), (4, 4, f.entries.length), (8, 4, f.invalid)] ++
  entryBytes f.entries ++ List.replicate (24 * (k - f.entries.length)) 0#8

/-- The reply of a batch (R143); an uncorrectable block that one of its queries meets ends the command (R516). -/
def batchResult (ver : BitVec 32) (k : Nat) (fs : List Found) : Result :=
  if fs.any (fun f => f.status == stInternal) then .bare stInternal
  else { count := BitVec.ofNat 32 fs.length, version := ver, data := fs.flatMap (searchBlock k) }

/-! ### Pick windows (R247, R248) and the work of a search (R41, R42) -/

/-- The sharing class of a function (R247): 256 is "shared". -/
def sharingClass (s : State) (a : Adm) : Nat := if !(fnOf s a.fn).isSealed && a.has 8 then 256 else a.fn

/-- A query joins the open window of a list's key, or opens one (R247); a window whose close has come takes no more (R248). -/
def joinWindow (s : State) (a : Adm) (l : Nat) : State :=
  let idx := a.p 32 4
  let ver := pinnedVer a idx
  let cls := sharingClass s a
  let same (w : Window) : Bool := w.index == idx && w.version == ver && w.list == l && w.cls == cls
  let w := (s.looms.windows.find? (fun w => same w && decide (w.members.length < 256) && decide (now s < w.closeAt))).getD
    { index := idx, version := ver, list := l, cls := cls, opened := now s, closeAt := 0
      windowUs := s.looms.windowUs.toNat, reserveUs := s.looms.reserveUs.toNat, minMembers := s.looms.minMembers.toNat
      members := [] }
  let w' := { w with members := w.members ++ [a.cmd.cid] }
  let w' := { w' with closeAt := windowClose s w' w'.members }
  { s with looms := { s.looms with
    windows := s.looms.windows.filter (fun x => !(same x && x.members == w.members)) ++ [w'] } }

/-- Lists of query i are issued under the index's present epoch (R41), each through a pick window (R247). -/
def issueLists (s : State) (a : Adm) (i : Nat) (ls : List Nat) : State :=
  let e := domainEpoch s (oidFn (a.p 32 4)) (a.p 32 4)
  updAdm (ls.foldl (fun s l => joinWindow s a l) s) a.cmd.cid
    (fun b => { b with work := b.work ++ ls.map (fun l => (2 ^ 48 * i + l, e)) })

/-- Queries of a search command. -/
def searchCount (a : Adm) (batch : Bool) : Nat := if batch then a.p 96 4 else 1

/-- The lists that query i visits, the final n of R318 in rank order; none for a graph, a failed query or failed centroids. -/
def listsWanted (a : Adm) (t : SearchTargets) (o : Obj) (batch : Bool) (i : Nat) : List Nat :=
  let j := searchOn a t o
  if j.ix.graph || j.fails .any j.ix.cent (j.ix.cstride * j.ix.lists) then []
  else
    let (q, failed) := searchInput a t j.ix.dim i batch
    let p := searchPar a.cmd
    if failed .any then []
    else
      let ranked := rankedLists j.ix q
      ranked.take (listLoop j q p ranked 32 (listStart j.ix p)).1

/-- Lists of query i still to be issued: first the starting n, then as many again at every widening (R247, R318). -/
def listsNext (a : Adm) (t : SearchTargets) (o : Obj) (batch : Bool) (i : Nat) : List Nat :=
  let want := listsWanted a t o batch i
  let k := a.work.countP (fun w => w.1 / 2 ^ 48 == i)
  (want.take (if k = 0 then listStart (searchOn a t o).ix (searchPar a.cmd) else 2 * k)).drop k

/-- The lists that a search is to visit next join their pick windows (R247); an index outside the rights has none. -/
def joinWindows (s : State) (a : Adm) : State :=
  let batch := a.cmd.opcode == 0x207
  if !a.cmd.isSearch then s
  else
    let t := searchTargets s a
    if t.all.any (·.isMissing) || searchBad a t batch then s
    else match t.index.obj? with
      | none => s
      | some o => (List.range (searchCount a batch)).foldl (fun s i => issueLists s a i (listsNext a t o batch i)) s

/-- Whether a search still waits in a pick window. -/
def inWindow (s : State) (cid : Nat) : Bool := s.looms.windows.any (fun w => w.members.contains cid)

/-- Whether a search is a member of a pick that a loom has yet to complete (R249). -/
def inPick (s : State) (cid : Nat) : Bool :=
  (AMap.vals s.looms.looms).any (fun l => l.dq.any (fun d => d.pick.any (fun ms => ms.contains (cid, true))))

/-- Whether segments that a command's scan of a list, or a sequence model's step, runs are still to end (R219, R223). -/
def scanning (s : State) (cid : Nat) : Bool :=
  (AMap.vals s.stk.chans).any (fun c => (c.queue ++ c.running.toList).any (fun g => g.scan && g.owner == .inl cid))

/-- Whether a search waits: in a window, in a pick, for a scan. -/
def searchWaits (s : State) (cid : Nat) : Bool := inWindow s cid || inPick s cid || scanning s cid

/-- Whether a search has lists to issue beyond those it has issued (widening). -/
def widens (a : Adm) (t : SearchTargets) (batch : Bool) : Bool :=
  t.index.obj?.any (fun o => (List.range (searchCount a batch)).any (fun i => !(listsNext a t o batch i).isEmpty))

/-- Steps 1 to 5 of R131 for a search; then its queries, once the pick windows of its lists have closed and their picks
and scans have ended, those of the lists that widening adds among them. -/
def searchRun (s : State) (a : Adm) (batch : Bool) : State :=
  let t := searchTargets s a
  let k := (searchPar a.cmd).k
  let met := t.all.any (·.isForeign)
  if t.all.any (·.isMissing) then fail (countForeign s a met) a.cmd.cid stNoObject
  else if searchBad a t batch then fail (countForeign s a met) a.cmd.cid stInvalidParam
  else if !largeFits s a.cmd.selectLarge then fail (countForeign s a met) a.cmd.cid stNoSpace
  else if searchWaits s a.cmd.cid then s
  else if widens a t batch then joinWindows s a
  else
    let s := countForeign s a met
    let fs := (List.range (searchCount a batch)).map (runQuery a t batch)
    let s := fs.foldl (fun s f =>
      countSpill (countKeys (if f.tierFailed a then countTierFail s a.fn else s) a.fn f.keys) k) s
    finish s a.cmd.cid
      (if batch then batchResult (searchVersion a t) k fs
       else searchResult (searchVersion a t) (fs.headD { status := stShort }))

/-- R318, R141, R142: a search of one query. -/
def execSearch (cid : Nat) (s : State) : Out := withCmd s cid 0x206 (fun a => searchRun s a false)

/-- R143: a batch of searches on one pinned version. -/
def execSearchBatch (cid : Nat) (s : State) : Out := withCmd s cid 0x207 (fun a => searchRun s a true)

/-! ### A search ended by its deadline (R322) -/

/-- Nodes visited in the merged steps of the last walk merged from: a step number holds its walk in bits 40 up. -/
def graphPartial (j : SearchOn) (q : Query) (p : SearchPar) (accept : Bool) (merged : List Nat) : Found :=
  let wn := merged.foldl (fun m x => max m (x / 2 ^ 40)) 0
  let steps := (merged.filter (fun x => x / 2 ^ 40 == wn)).map (· % 2 ^ 40)
  let w := walk j.ix q (min (beamStart p * 2 ^ wn) (beamCap p))
  let node (i : Nat) : List (Nat × Word) :=
    let lo := if i = 0 then 0 else w.steps.getD (i - 1) 0
    (w.visited.take (w.steps.getD i lo)).drop lo
  let (es, bad) := nodeCandidates j.ix j.flt (steps.flatMap node)
  endedEarly j.ix.sim accept stDeadline p es bad (decide (0 < wn) && !merged.isEmpty)

/-- Whether the final walk of a graph query has merged its last visit step (R322). -/
def walkMerged (j : SearchOn) (q : Query) (p : SearchPar) (merged : List Nat) : Bool :=
  let (b, w, stop) := beamLoop j q p 32 (beamStart p)
  let wn := ((List.range 33).find? (fun i => min (beamStart p * 2 ^ i) (beamCap p) == b)).getD 0
  stop.isNone && (List.range w.steps.length).all (fun i => merged.contains (2 ^ 40 * wn + i))

/-- Query i of a search whose deadline passes: complete where its final candidate set is merged and nothing is to be
reranked or its reranking has completed, else ended (R322). -/
def deadlineQuery (a : Adm) (t : SearchTargets) (batch reranked : Bool) (i : Nat) : Bool × Found :=
  match t.index.obj? with
  | none => (false, if a.cmd.acceptPartial then { status := stPartial } else { status := stDeadline })
  | some o =>
    let j := searchOn a t o
    let (q, _) := searchInput a t j.ix.dim i batch
    let p := searchPar a.cmd
    let m := mergedFor a i
    if j.ix.graph then
      let complete := (p.noRerank || reranked) && walkMerged j q p m
      (complete, if complete then searchQuery j q p a.cmd.acceptPartial m else graphPartial j q p a.cmd.acceptPartial m)
    else
      let ranked := rankedLists j.ix q
      let n := (listLoop j q p ranked 32 (listStart j.ix p)).1
      let complete := (p.noRerank || reranked) && (ranked.take n).all (fun l => m.contains l)
      (complete, if complete then searchQuery j q p a.cmd.acceptPartial m
        else listPartial j q p a.cmd.acceptPartial stDeadline ranked m)

/-- The reply of a search at its deadline, with the keys its reeds have accepted; none where the deadline no longer ends it (R322). `reranked` are the queries whose
reranking has completed. -/
def searchDeadline (s : State) (a : Adm) (batch : Bool) (reranked : List Nat) : Option (Result × Nat) :=
  let one := fun t i => deadlineQuery a t batch (reranked.contains i) i
  let t := searchTargets s a
  let bad := t.all.any (·.isMissing) || searchBad a t batch
  let v := searchVersion a t
  if batch then
    if bad then none
    else
      let qs := (List.range (a.p 96 4)).map (one t)
      if qs.all (·.1) then none
      else some (batchResult v (searchPar a.cmd).k (qs.map (·.2)), qs.foldl (fun n q => n + q.2.keys) 0)
  else if bad then none
  else
    let (complete, f) := one t 0
    if complete then none else some (searchResult v f, f.keys)

/-! ### Filter evaluation and version information -/

/-- Whether an ordinal names a live entry of an index that passes (R317). -/
def ordinalPasses (x : Ix) (flt : Filter) (o : Nat) : Bool :=
  if x.graph then
    let n := o % 2 ^ 40
    decide (o < 2 ^ 40) && decide (n < x.next) && !recDead x.mem (x.nodeOff n) && flt.passes (recRow x.mem (x.nodeOff n))
  else
    let l := o / 2 ^ 40
    let p := o % 2 ^ 40
    decide (l < x.lists) && decide (p < x.count l) && !recDead x.mem (x.recOff l p) && flt.passes (recRow x.mem (x.recOff l p))

/-- Whether testing an ordinal meets a failed read. -/
def ordinalFails (m : Bad) (j : SearchOn) (o : Nat) : Bool :=
  let x := j.ix
  let off := if x.graph then x.nodeOff (o % 2 ^ 40) else x.recOff (o / 2 ^ 40) (o % 2 ^ 40)
  j.fails m off 16 || (!recDead x.mem off && j.bitFails m (recRow x.mem off))

/-- Bits packed from bit 0 of byte 0, padded to 8 bytes (R138). -/
def packBools (bs : List Bool) : List Byte :=
  (List.range (roundUp (ceilDiv bs.length 8) 8)).map (fun i =>
    BitVec.ofNat 8 ((List.range 8).foldl (fun v b => v + b2n (bs.getD (8 * i + b) false) * 2 ^ b) 0))

/-- R317: one pass bit for each listed ordinal. -/
def execFilterEval (cid : Nat) (s : State) : Out := withCmd s cid 0x208 (fun a =>
  let ti := target s a (a.p 32 4)
  let fs := filterTargets s a 44 (a.p 42 1)
  let ts := target s a (a.p 64 4)
  let n := a.p 80 4
  let all := ti :: fs.map (·.1) ++ [ts]
  let s := countForeign s a (all.any (·.isForeign))
  if all.any (·.isMissing) then fail s cid stNoObject
  else if ti.bad (fun o => !o.isIndex) || fs.any (fun f => f.1.bad (fun o => !o.isBitmap)) ||
      ts.bad (fun o => !o.isData || beyond a (a.p 64 4) o (a.p 72 8) (8 * n)) then fail s cid stInvalidParam
  else if readFails .any a (a.p 64 4) ts (a.p 72 8) (8 * n) then readFailed s a (readFails .lost a (a.p 64 4) ts (a.p 72 8) (8 * n))
  else
    let os := elems 8 n (readTarget a (a.p 64 4) ts (a.p 72 8) (8 * n))
    let flt := filterOf a (a.p 40 2) fs
    match ti.obj? with
    | none => finish s cid { data := packBools (os.map (fun _ => false)) }
    | some o =>
      let j : SearchOn :=
        { obj := o, ver := pinnedVer a (a.p 32 4), ix := ixOf (pinnedBytes a (a.p 32 4) o), flt := flt, bitFails := filterFails a fs }
      if os.any (ordinalFails .any j) then readFailed s a (os.any (ordinalFails .lost j))
      else finish s cid { version := BitVec.ofNat 32 j.ver, data := packBools (os.map (ordinalPasses j.ix flt)) })

/-- R138: the current version, the live versions and their pins, the command's own among them (R169). -/
def execVersionInfo (cid : Nat) (s : State) : Out := withCmd s cid 0x209 (fun a =>
  let oid := a.p 32 4
  let t := target s a oid
  let s := countForeign s a t.isForeign
  if t.isMissing then fail s cid stNoObject
  else match t.obj? with
    | none => finish s cid { data := List.replicate 32 0#8 }
    | some o =>
      if !o.isIndex && !o.isTable then fail s cid stInvalidParam
      else
        let cur := pinCount s oid o.current
        let older := (o.versions.filter (fun v => decide (v.num < o.current))).foldl (fun n v => n + pinCount s oid v.num) 0
        finish s cid { data := lay 32 [(0, 4, o.current), (4, 4, o.versions.length), (8, 8, cur), (16, 8, older)] })

end Sys2Proof.Machine
end

