-- ==== Sys2Proof/Machine/SchedOps.lean ====
section
/-! DEFINITION. Admission (R435-R445): settings and shapers, tags and the admission of one command
(R106-R110, R118, R122, R169). -/

namespace Sys2Proof.Machine
open Sys2Proof

/-! ### Settings (R446, R447) -/

/-- A shaper slot replaced. -/
def setShaper (s : State) (k : Nat) (x : Shaper) : State :=
  { s with sched := { s.sched with shapers := AMap.insert s.sched.shapers k x } }

/-- Whether naming a slot for a function breaks R445. -/
def slotBreaks (s : State) (f k : Nat) : Bool :=
  let x := fnOf s f
  (x.isSealed && x.shaper.toNat != k) || s.fns.any (fun e => e.1 != f && e.2.isSealed && e.2.shaper.toNat == k)

/-- The settings record of a function (R446): RATE and BURST as in force, SETFL 0. -/
def settingsRecord (s : State) (f : Nat) : List Byte :=
  let x := fnOf s f
  let sl := if x.shaper = 0 then ({} : Shaper) else slotShaper s x.shaper.toNat
  lay 64 [(0, 2, x.weight.toNat), (2, 1, x.shaper.toNat), (4, 2, x.poolReserve), (8, 8, x.nearLimit.toNat),
    (16, 8, x.peatLimit.toNat), (24, 4, sl.rate.toNat), (28, 4, sl.burst.toNat)]

/-- A settings record of a packet put into force (R444, R446): a slot's parameters wait for its next refill. -/
def putSettings (s : State) (f : Nat) (c : Cmd) : State :=
  let k := c.p 66 1
  let s := updFn s f (fun x => { x with
    weight := BitVec.ofNat 16 (c.p 64 2), shaper := BitVec.ofNat 6 k, poolReserve := c.p 68 2
    nearLimit := BitVec.ofNat 64 (c.p 72 8), peatLimit := BitVec.ofNat 64 (c.p 80 8) })
  if bit (c.p 67 1) 0 then
    let sl := slotShaper s k
    setShaper s k { sl with next := sl.next ++ [(BitVec.ofNat 32 (c.p 88 4), BitVec.ofNat 32 (c.p 92 4), now s)] }
  else s

/-- Whether no earlier admitted command is still to change the settings (R447: they take effect in admission order). -/
def settingsTurn (s : State) (a : Adm) : Bool :=
  s.sched.admitted.all (fun b => !(decide (b.seq < a.seq) && b.phase == .running &&
    (b.cmd.opcode == 0x002 || b.cmd.opcode == 0x803)))

/-! ### Tags (R439, R440) -/

/-- Functions whose queues are not empty. -/
def queued (s : State) : List Nat :=
  (s.fns.filter (fun e => !e.2.hostQ.isEmpty || !e.2.fabQ.isEmpty)).map (·.1)

/-- A function wakes where it has come to have a candidate, and sleeps where it has none (R440). -/
def wake (s : State) (f : Nat) : State :=
  let x := fnOf s f
  if (candidate s f).isSome then
    if x.awake then s
    else setFn s f { x with awake := true, startTag := if tagLt s.sched.vtime x.finishTag then x.finishTag else s.sched.vtime }
  else if x.awake then setFn s f { x with awake := false } else s

/-- Every function's waking brought up to date. -/
def wakeAll (s : State) : State := (s.fns.map (·.1)).foldl wake s

/-- The function whose candidate is admitted: lowest start tag, lowest number among equals (R439). -/
def chosen (s : State) : Option Nat :=
  (queued s).foldl (fun best f =>
    if (candidate s f).isNone then best
    else match best with
      | none => some f
      | some b => if tagLt (fnOf s f).startTag (fnOf s b).startTag then some f else some b) none

/-! ### Admitting one command -/

/-- The feature set that governs a command (R122, R400, R438): the function's active set, or for fabric work that of its
last TENANT action within what the function is offered. -/
def featuresFor (s : State) (f : Nat) (o : Origin) : BitVec 128 :=
  match o with
  | .fabric _ _ => match (fnOf s f).tenant with
    | some m => (m.setWidth 128) &&& featOffer s.boot.kindling f
    | none => 0
  | _ => (fnOf s f).featActive

/-- Steps 1 and 2 of R118 under the set that governs the command. -/
def stepsOneTwo (s : State) (c : Cmd) (feats : BitVec 128) : Option Byte :=
  match c.origin with
  | .fabric _ _ => if (fnOf s c.fn).tenant.isNone then some stInvalidOpcode else earlyCarried s.boot.kindling feats c
  | _ => earlyOutcome s.boot.kindling feats c

/-- Steps 1 to 4 of R118 at admission: an outcome already known. -/
def knownOutcome (s : State) (c : Cmd) (feats : BitVec 128) : Option Result :=
  match stepsOneTwo s c feats with
  | some st => some (.bare st)
  | none =>
    if c.deadline.any (fun d => decide (d ≤ now s)) then some (.bare stDeadline) else zeroOutcome s c

/-- What the node copies for a command at admission: the packet that FABRIC_REQUEST carries (R126) and the descriptors of
SPINDLE_RUN (R214); zeros outside the rights. A carried packet's LENGTH is clamped to 64 to 512 and its trailer is not tested
(DESIGN CHOICE, log entry 108). -/
def carriedBy (s : State) (c : Cmd) (pins : List (Nat × Nat)) : List Byte :=
  let copy (oid off n : Nat) : List Byte :=
    match (objOf s oid).filter (fun o => pins.any (·.1 == oid) && o.isData) with
    | some o => (verBytes o o.current).readBytes off n
    | none => List.replicate n 0#8
  if c.opcode = 0x603 then copy (c.p 36 4) (c.p 40 8) (min 512 (max 64 (field (copy (c.p 36 4) (c.p 40 8) 4) 2 2)))
  else if c.opcode = 0x507 then copy (c.p 32 4) 0 (64 * c.p 36 4)
  else []

/-- The flash reads of a command whose packet names their range, OBJ_READ and OBJ_COPY, join the queues of their dies at admission
(R181, R197). -/
def queueReads (s : State) (a : Adm) : State :=
  let oid := a.p 32 4
  let reads (len : Nat) : State :=
    if a.pins.any (·.1 == oid) then queueRange s (.command a.cmd.cid) oid (pinnedVer a oid) (a.p 40 8) len a.cmd.deadline else s
  match a.cmd.opcode with
  | 0x103 => reads (a.p 48 8)
  | 0x104 => reads (a.p 56 8)
  | _ => s

/-- The admission of a command (R107, R169): its pins, its features, and its outcome where steps 1 to 4 decide it. -/
def enterPool (s : State) (c : Cmd) : State :=
  let feats := featuresFor s c.fn c.origin
  let known := knownOutcome s c feats
  let pins := if known.isSome then [] else pinsFor s c
  let a : Adm := {
    cmd := c, seq := s.sched.nextSeq, admitted := now s, features := feats, pins := pins
    phase := match known with
      | some r => .done r
      | none => .running
    carried := if known.isSome then [] else carriedBy s c pins }
  let s := { s with sched := { s.sched with admitted := s.sched.admitted ++ [a], nextSeq := s.sched.nextSeq + 1 } }
  if known.isSome then s else joinWindows (queueReads s a) a

/-- Tags, tokens and samples of an admission of cost c (R439, R443, R450). -/
def chargeAdmission (s : State) (f : Nat) (c : Cmd) : State :=
  let x := fnOf s f
  let n := cost c
  let fin := x.startTag + BitVec.ofNat 64 (n * increment x)
  let us := (now s - c.commit) / 100
  let s := { s with sched := { s.sched with vtime := x.startTag } }
  let s := setFn s f { x with
    startTag := fin, finishTag := fin
    admittedCount := satAdd x.admittedCount 1
    delaySumUs := satAdd x.delaySumUs us
    maxDelayUs := if x.maxDelayUs.toNat < us then satAdd 0 us else x.maxDelayUs }
  let k := x.shaper.toNat
  let sl := slotShaper s k
  if k = 0 || sl.rate = 0 then s else setShaper s k { sl with tokens := max (-(2 ^ 31 : Int)) (sl.tokens - n) }

/-- A command leaves its queue. -/
def dequeue (s : State) (f : Nat) (host : Bool) : State :=
  updFn s f (fun x => if host then { x with hostQ := x.hostQ.tail } else { x with fabQ := x.fabQ.tail })

end Sys2Proof.Machine
end

