-- ==== Sys2Proof/Machine/Objects.lean ====
section
/-! DEFINITION. The admin and object commands (R132-R137, R158, R165, R182, R446) and a failed host read (R91). -/

namespace Sys2Proof.Machine
open Sys2Proof

/-- R132: NOP. -/
def execNop (cid : Nat) (s : State) : Out := withCmd s cid 0x000 (fun _ => finish s cid {})

/-- The IDENTIFY record (R132). -/
def identity (s : State) (f : Nat) : List Byte :=
  let x := fnOf s f
  lay 64 [(0, 2, f), (2, 1, b2n x.isSealed), (3, 1, b2n s.boot.kindling), (4, 4, s.glaesh.fwVersion.toNat),
    (8, 16, (featOffer s.boot.kindling f).toNat), (24, 16, x.featActive.toNat), (40, 8, Config.serial.toNat),
    (48, 8, s.time.toNat)]

/-- R132: IDENTIFY. -/
def execIdentify (cid : Nat) (s : State) : Out :=
  withCmd s cid 0x001 (fun a => finish s cid { data := identity s a.fn })

/-- R446, R447: SCHED_SET, in its turn; the checks against other state are made now. -/
def execSchedSet (cid : Nat) (s : State) : Out := withCmd s cid 0x002 (fun a =>
  let f := a.p 32 1
  if !settingsTurn s a then s
  else if slotBreaks s f (a.p 66 1) || decide (2048 < reservesBut s f + a.p 68 2) then fail s cid stInvalidParam
  else finish (putSettings s f a.cmd) cid {})

/-- R446: SCHED_GET. -/
def execSchedGet (cid : Nat) (s : State) : Out :=
  withCmd s cid 0x003 (fun a => finish s cid { data := settingsRecord s (a.p 32 1) })

/-- R133, R158: OBJ_CREATE. -/
def execObjCreate (cid : Nat) (s : State) : Out := withCmd s cid 0x100 (fun a =>
  created s a (if a.p 32 1 = 1 then .data else .bitmap) (BitVec.ofNat 8 (a.p 33 1)) [] (a.p 40 8) (fun _ => false))

/-- R136: OBJ_DESTROY. -/
def execObjDestroy (cid : Nat) (s : State) : Out := withCmd s cid 0x101 (fun a =>
  let oid := a.p 32 4
  let t := target s a oid
  let s := countForeign s a t.noWrite
  if t.isMissing then fail s cid stNoObject
  else finish (if t.noWrite then s else destroyObj s oid) cid {})

/-- Whether an own destination is of no kind that bytes are written to, or the bytes pass its end (R131, R133). -/
def writeBad (a : Adm) (oid : Nat) (t : Target) (off n : Nat) : Bool :=
  match t with
  | .own o => (!o.isData && !o.isBitmap) || beyond a oid o off n
  | _ => false

/-- R133, R135: OBJ_WRITE of the LEN bytes read from the host, expanded first where CHARCOAL is set. -/
def execObjWrite (cid : Nat) (host : List Byte) (s : State) : Out := withCmd s cid 0x102 (fun a =>
  let oid := a.p 32 4
  let t := target s a oid
  if host.length ≠ a.p 56 8 || !mutationTurn s a oid then s
  else
    let s := countForeign s a t.noWrite
    if t.isMissing then fail s cid stNoObject
    else if writeBad a oid t 0 0 then fail s cid stInvalidParam
    else
      match (if bit (a.p 36 1) 0 then charcoalExpand host else some host) with
      | none => fail s cid stInvalidParam
      | some bs =>
        if writeBad a oid t (a.p 40 8) bs.length then fail s cid stInvalidParam
        else writeTo (chargePcie (chargeNear s a.fn bs.length) a.fn host.length) a oid t (a.p 40 8) bs (fun _ => false) (writeTierFail a))

/-- Whether an object holds bytes that commands read (R133, R169). -/
def Obj.readable (o : Obj) : Bool := o.kind.addressed

/-- R133: OBJ_READ. -/
def execObjRead (cid : Nat) (s : State) : Out := withCmd s cid 0x103 (fun a =>
  let oid := a.p 32 4
  let t := target s a oid
  let s := countForeign s a t.isForeign
  if t.isMissing then fail s cid stNoObject
  else if t.bad (fun o => !o.readable || beyond a oid o (a.p 40 8) (a.p 48 8)) then fail s cid stInvalidParam
  else if readFails .any a oid t (a.p 40 8) (a.p 48 8) then readFailed s a (readFails .lost a oid t (a.p 40 8) (a.p 48 8))
  else finish (touchRange (chargeNear s a.fn (a.p 48 8)) oid (pinnedVer a oid) (a.p 40 8) (a.p 48 8)) cid
    { version := BitVec.ofNat 32 (if t.isForeign then 0 else pinnedVer a oid), data := readTarget a oid t (a.p 40 8) (a.p 48 8) })

/-- R133, R135, R182: OBJ_COPY, as though through an intermediate buffer. -/
def execObjCopy (cid : Nat) (s : State) : Out := withCmd s cid 0x104 (fun a =>
  let so := a.p 32 4
  let d := a.p 36 4
  let n := a.p 56 8
  let ts := target s a so
  let td := target s a d
  if !mutationTurn s a d then s
  else
    let s := countForeign s a (ts.isForeign || td.noWrite)
    if ts.isMissing || td.isMissing then fail s cid stNoObject
    else if ts.bad (fun o => !o.readable || beyond a so o (a.p 40 8) n) || writeBad a d td (a.p 48 8) n then fail s cid stInvalidParam
    else
      let src (m : Bad) (g : Nat) : Bool :=
        let lo := max (a.p 48 8) (g * granule)
        let hi := min (a.p 48 8 + n) ((g + 1) * granule)
        readFails m a so ts (lo - a.p 48 8 + a.p 40 8) (hi - lo)
      writeTo (touchRange (chargeNear s a.fn (2 * n)) so (pinnedVer a so) (a.p 40 8) n) a d td (a.p 48 8) (readTarget a so ts (a.p 40 8) n) (src .any)
        (writeReadFail a (fun k =>
          let gs := rangeGranules (a.p 48 8) n
          (if td.bad Obj.isData then gs[k]? else gs.find? (src .any)).any (fun g => src .any g && !src .lost g))))

/-- Moves that follow from an object's hint (R163, R165): its granules outside the tier the hint wants, full vectors apart. -/
def hintMoves (s : State) (oid : Nat) (o : Obj) : List Move :=
  let free (fr : Frame) : Bool := !fr.full && !(s.space.moves.any (fun m => m.obj == oid && m.ver == fr.ver && m.gran == fr.gran))
  match o.hint.toNat with
  | 1 | 3 => (o.frames.filter (fun fr => free fr && fr.tier != .near && nearRoom s oid fr.gran)).map (fun fr => ⟨oid, fr.ver, fr.gran, .near⟩)
  | 2 => (o.frames.filter (fun fr => free fr && fr.tier == .near && peatRoom s oid)).map (fun fr => ⟨oid, fr.ver, fr.gran, .peat⟩)
  | _ => []

/-- A hint recorded: moves under an older hint are dropped and those that follow from it begin (R165). -/
def recordHint (s : State) (oid : Nat) (h : BitVec 8) : State :=
  let s := updObj s oid (fun o => { o with hint := h })
  let s := { s with space := { s.space with moves := s.space.moves.filter (fun m => m.obj != oid) } }
  match objOf s oid with
  | none => s
  | some o => reviewHint { s with space := { s.space with moves := s.space.moves ++ hintMoves s oid o } } oid

/-- R165: OBJ_HINT completes when the hint is recorded. -/
def execObjHint (cid : Nat) (s : State) : Out := withCmd s cid 0x105 (fun a =>
  let oid := a.p 32 4
  let t := target s a oid
  let s := countForeign s a t.noWrite
  if t.isMissing then fail s cid stNoObject
  else if t.noWrite then finish s cid {}
  else if t.bad (fun o => !o.kind.addressed) then fail s cid stInvalidParam
  else finish (recordHint s oid (BitVec.ofNat 8 (a.p 36 1))) cid {})

/-- The OBJ_INFO record (R135): the current version's granules, and the requests that pin a version, this one among them (R169). -/
def objInfo (s : State) (oid : Nat) (o : Obj) : List Byte :=
  let v := verOf o o.current
  let frames := v.elim [] (fun v => (List.range (granules v.size)).filterMap (fun g => frameOf o v g))
  lay 64 [(0, 1, o.kind.code), (1, 1, o.hint.toNat), (2, 1, b2n o.overridden), (4, 4, if o.kind.versioned then o.current else 0),
    (8, 8, verSize o o.current), (16, 8, granule * frames.countP (fun fr => fr.tier == .near)),
    (24, 8, granule * frames.countP (fun fr => fr.tier != .near)), (32, 8, o.base), (40, 4, if o.kind.versioned then pinsOf s oid else 0)]

/-- R135: OBJ_INFO; an all-zero record outside the rights (R129). -/
def execObjInfo (cid : Nat) (s : State) : Out := withCmd s cid 0x106 (fun a =>
  let oid := a.p 32 4
  let t := target s a oid
  let s := countForeign s a t.isForeign
  if t.isMissing then fail s cid stNoObject
  else match t.obj? with
    | some o => finish s cid { data := objInfo s oid o }
    | none => finish s cid { data := List.replicate 64 0#8 })

/-- The outcome of a grant or a revocation (R137), which takes effect when the command completes. -/
def grantOutcome (s : State) (a : Adm) : State :=
  let t := target s a (a.p 32 4)
  let s := countForeign s a t.noWrite
  if t.isMissing then fail s a.cmd.cid stNoObject else finish s a.cmd.cid {}

/-- A grant or revocation takes effect (R137): only the owner's. -/
def applyGrant (s : State) (a : Adm) : State :=
  let oid := a.p 32 4
  let g := a.p 36 1
  if oidFn oid ≠ a.fn then s
  else if a.cmd.opcode = 0x107 then
    updObj s oid (fun o => { o with grants := if o.destroyed || o.grants.contains g then o.grants else o.grants ++ [g] })
  else if a.cmd.opcode = 0x108 then updObj s oid (fun o => { o with grants := o.grants.filter (· != g) })
  else s

/-- R137: OBJ_GRANT. -/
def execObjGrant (cid : Nat) (s : State) : Out := withCmd s cid 0x107 (fun a => grantOutcome s a)

/-- R137: OBJ_REVOKE. -/
def execObjRevoke (cid : Nat) (s : State) : Out := withCmd s cid 0x108 (fun a => grantOutcome s a)

/-! ### Failed host reads -/

/-- The expanded bytes of the whole frames that have arrived, in order (R182, R421). -/
def charcoalPrefix : Nat → List Byte → List CFrame
  | 0, _ => []
  | fuel + 1, bs =>
    match parseFrame bs with
    | none => []
    | some (f, rest) => f :: charcoalPrefix fuel rest

/-- Whether a command reads host memory (R133, R138, R145, R146, R152). -/
def Cmd.readsHost (c : Cmd) : Bool :=
  match c.opcode with
  | 0x102 | 0x800 => true
  | 0x202 | 0x401 => c.p 36 1 == 0
  | 0x500 => c.p 44 1 == 0
  | _ => false

/-- R91, R182: a read of host memory failed: the command that needed the data ends with INTERNAL. OBJ_WRITE into a data
object keeps every granule whose source bytes had all arrived. -/
def execHostReadError (cid : Nat) (arrived : List Byte) (s : State) (err : ReadError := .poisoned) : Out :=
  match (findAdm s cid).filter (fun a => a.phase == .running && a.cmd.readsHost) with
  | none => .next s
  | some a =>
    let s := logUncorrectable s a.fn (readErrorBit err)
    if a.cmd.opcode ≠ 0x102 then .next (fail s cid stInternal)
    else
      let oid := a.p 32 4
      let t := target s a oid
      let off := a.p 40 8
      let bs := if bit (a.p 36 1) 0 then expandAll (charcoalPrefix (arrived.length / 24 + 1) arrived) [] else arrived
      let whole := if bit (a.p 36 1) 0 then none else some (a.p 56 8)
      let stop := off + bs.length
      let n := match whole with
        | some w => if w ≤ bs.length then w else (stop / granule * granule) - off
        | none => (stop / granule * granule) - off
      let s := countForeign s a t.noWrite
      if t.isMissing then .next (fail s cid stNoObject)
      else if writeBad a oid t off (whole.getD bs.length) then .next (fail s cid stInvalidParam)
      else match t with
      | .own o =>
        if !o.isData then .next (writeHostFail a s 0)
        else
          match writeData s oid off (bs.take n) (fun _ => false) (some cid) with
          | none => .next (writeHostFail a s 0)
          | some (s, k, _) => .next (writeHostFail a s k)
      | _ => .next (writeHostFail a s 0)

end Sys2Proof.Machine
end

