-- ==== Sys2Proof/Machine/SpindleOps.lean ====
section
/-! DEFINITION. Spindle segments (R205-R222): descriptors and their checks, outputs, queues and channel states, and the
rows of a channel (R211-R219). -/

namespace Sys2Proof.Machine
open Sys2Proof

/-- A segment descriptor's fields (R214). -/
structure Seg where
  op : Nat
  flags : Nat
  dim : Nat
  src : Nat
  off : Nat
  rows : Nat
  stride : Nat
  scaleOff : Nat
  normOff : Nat
  opnd : Nat
  opndOff : Nat
  dst : Nat
  knot : Nat
  dstOff : Nat

/-- The fields of 64 bytes (R214). -/
def segOf (d : List Byte) : Seg :=
  { op := field d 0 1, flags := field d 1 1, dim := field d 2 2, src := field d 4 4, off := field d 8 8, rows := field d 16 4
    stride := field d 20 2, scaleOff := field d 22 2, normOff := field d 24 2, opnd := field d 28 4, opndOff := field d 32 8
    dst := field d 40 4, knot := field d 44 4, dstOff := field d 48 8 }

def Seg.loads (x : Seg) : Bool := bit x.flags 0
def Seg.arrives (x : Seg) : Bool := bit x.flags 1

/-- Bytes of an operand with its scale and norm (R215). -/
def Seg.opndBytes (x : Seg) : Nat := x.dim + (if x.op = 1 then 8 else 4)

/-- Budget of a segment (R216). -/
def Seg.budget (x : Seg) : Nat := x.rows * x.stride + 4 * x.rows

/-- Bytes of a channel run (R207). -/
def runBytes : Nat := 524288

/-- What an object named by a descriptor is to a function (R128, R129). -/
def descTarget (s : State) (f oid : Nat) : Target :=
  match liveObj s oid with
  | some o => if o.fn = f then .own o else if o.grants.contains f then .granted o else .foreign
  | none => if oidFn oid = f then .missing else .foreign

/-- What an object is to a segment that runs (R136, R137): a destroyed object, and one whose grant has ended, stay what they
were to a function whose admitted command pins them. -/
def runTarget (s : State) (f oid : Nat) : Target :=
  match objOf s oid with
  | some o =>
    if o.fn = f then .own o
    else if o.grants.contains f || s.sched.admitted.any (fun a => a.cmd.fn == f && a.pins.any (·.1 == oid)) then .granted o
    else .foreign
  | none => if oidFn oid = f then .missing else .foreign

/-- The channel a segment runs on: that of its source run; none where source, operand or destination is outside the
rights (R216, R222). -/
def segChannel (s : State) (f : Nat) (x : Seg) : Option Nat :=
  if (descTarget s f x.src).isForeign || (x.loads && (descTarget s f x.opnd).isForeign) || (descTarget s f x.dst).noWrite then none
  else some (channelOf s x.src (x.off / granule))

/-- The channel of a descriptor's source run; none outside the rights. -/
def segSource (s : State) (f : Nat) (x : Seg) : Option Nat :=
  if (descTarget s f x.src).isForeign then none else some (channelOf s x.src (x.off / granule))

/-- Whether a descriptor meets an object or a knot outside the rights (R222). -/
def segForeign (s : State) (f : Nat) (x : Seg) : Bool :=
  (descTarget s f x.src).isForeign || (x.loads && (descTarget s f x.opnd).isForeign) || (descTarget s f x.dst).noWrite ||
  (x.arrives && !((knotOf s (x.knot % 65536)).any (fun k => k.fn == f)))

/-- Whether an own object of a descriptor is missing (item 1 of R131). -/
def segMissing (s : State) (f : Nat) (x : Seg) : Bool :=
  (descTarget s f x.src).isMissing || (x.loads && (descTarget s f x.opnd).isMissing) || (descTarget s f x.dst).isMissing

/-- Whether an object is of another kind than data or ends before a range. -/
def notData (t : Target) (off n : Nat) : Bool := t.bad (fun o => !o.isData || decide (verSize o o.current < off + n))

/-- Whether a range passes from one channel run into another. -/
def crossesRun (off n : Nat) : Bool := n != 0 && off / runBytes != (off + n - 1) / runBytes

/-- The checks of R216 on one descriptor; `used` says whether its channel has been used before it. The channel rule is that of an
own source and an own destination, whatever the operand is (R222). -/
def segOk (s : State) (f : Nat) (d : List Byte) (used : Nat → Bool) : Bool :=
  let x := segOf d
  let areas := [(0, x.dim / 2), (x.scaleOff, x.dim / 16)] ++ (if x.op = 1 then [(x.normOff, 4)] else [])
  let dstT := descTarget s f x.dst
  x.op ≤ 1 && x.flags < 4 && 32 ≤ x.dim && x.dim ≤ 4096 && x.dim % 32 == 0 && x.off % 16 == 0 && x.stride % 16 == 0 &&
  x.dstOff % 4 == 0 && zeroIn d 26 28 && x.knot < 65536 && zeroIn d 56 64 &&
  areas.all (fun r => decide (r.1 + r.2 ≤ x.stride)) && apart areas &&
  !notData (descTarget s f x.src) x.off (x.rows * x.stride) && !(x.loads && notData (descTarget s f x.opnd) x.opndOff x.opndBytes) &&
  (dstT.noWrite || !notData dstT x.dstOff (4 * x.rows)) && !crossesRun x.off (x.rows * x.stride) && (dstT.noWrite || !crossesRun x.dstOff (4 * x.rows)) &&
  x.budget ≤ 458752 &&
  (match segSource s f x with
   | some c => (x.rows == 0 || dstT.noWrite || channelOf s x.dst (x.dstOff / granule) == c) && (x.loads || used c)
   | none => x.loads)

/-- Source and operand ranges, and the destination range, of a descriptor as (object, offset, bytes). -/
def segReads (x : Seg) : List (Nat × Nat × Nat) :=
  (x.src, x.off, x.rows * x.stride) :: (if x.loads then [(x.opnd, x.opndOff, x.opndBytes)] else [])

/-- Whether a source or operand range of a sequence meets a destination range of it (R216). -/
def seqOverlaps (xs : List Seg) : Bool :=
  xs.any (fun d => (xs.flatMap segReads).any (fun r => r.1 == d.dst && meets (r.2.1, r.2.2) (d.dstOff, 4 * d.rows)))

/-- The checks of R214 and R216 on a whole sequence of a command. -/
def seqOk (s : State) (f : Nat) (ds : List (List Byte)) : Bool :=
  (ds.zipIdx).all (fun e => segOk s f e.1 (fun c =>
    (ds.take e.2).any (fun d => (segOf d).rows != 0 && segChannel s f (segOf d) == some c))) &&
  !seqOverlaps (ds.map segOf)

/-! ### Near granules (R217) -/

/-- A granule of a version brought Near: none where its channel or the near limit has no room (R162, R217). -/
def bringVersion (s : State) (oid ver g : Nat) : Option State :=
  match (objOf s oid).bind (fun o => (verOf o ver).bind (fun v => frameOf o v g)) with
  | none => some s
  | some fr =>
    if fr.tier == .near then some s
    else if nearRoom s oid g then
      let s := dropCached (dropMove s oid fr.ver g) (channelOf s oid g)
      some (reviewHint { updFrame s oid fr.ver g (fun x => { x with tier := .near }) with flash := unmap s.flash oid fr.ver g } oid)
    else none

/-- A granule of an object's current version brought Near. -/
def bringNear (s : State) (oid g : Nat) : Option State := bringVersion s oid ((objOf s oid).elim 0 (·.current)) g

/-- Whether a granule that is not Near would move onto a channel that holds ordinary requests (R209, R210). -/
def bringHeld (s : State) (oid g : Nat) : Bool :=
  chanHolds s (channelOf s oid g) &&
  ((objOf s oid).bind (fun o => (verOf o o.current).bind (fun v => frameOf o v g))).any (·.tier != .near)

/-- Granules brought Near in order. -/
def bringAll (s : State) : List (Nat × Nat) → Option State
  | [] => some s
  | (oid, g) :: gs => match bringNear s oid g with
    | some s => bringAll s gs
    | none => none

/-- Granules of the source runs and the destination range of segments that run on a channel (R217). -/
def segGranules (s : State) (f : Nat) (xs : List Seg) : List (Nat × Nat) :=
  (xs.filter (fun x => x.rows != 0 && (segChannel s f x).isSome)).flatMap (fun x =>
    ((List.range 8).map (fun i => (x.src, x.off / runBytes * 8 + i))) ++ (rangeGranules x.dstOff (4 * x.rows)).map (fun g => (x.dst, g))) |>.eraseDups

/-- Whether a granule to be brought Near is lost (R181, R217). -/
def granuleLost (s : State) (e : Nat × Nat) : Bool :=
  (objOf s e.1).any (fun o => (verOf o o.current).any (fun v => (frameOf o v e.2).any (·.lost)))

/-- Whether a source or operand range of a segment meets an uncorrectable block (R516). -/
def segEcc (s : State) (x : Seg) : Bool :=
  (segReads x).any (fun r => (objOf s r.1).any (fun o => eccRange o o.current r.2.1 r.2.2))

/-! ### Outputs (R215, R220) -/

/-- The operand of a segment: elements, scale, norm. With LOAD_OPERAND 0 the retained bytes are read at this descriptor's DIM
(DESIGN CHOICE, log entry 143). -/
def segOperand (x : Seg) (bs : List Byte) : List Int × Word × Word :=
  ((ints8 bs).take x.dim, BitVec.ofNat 32 (field bs x.dim 4), BitVec.ofNat 32 (field bs (x.dim + 4) 4))

/-- The output of one row (R30, R31, R220). -/
def segScore (x : Seg) (opnd row : List Byte) : Word :=
  let (q, sc, nq) := segOperand x opnd
  let d := dot30 q ((unpack4 row).take x.dim) ((elems 2 (x.dim / 32) (row.drop x.scaleOff)).map fp16.toF32) sc
  if x.op = 1 then dist31 d (BitVec.ofNat 32 (field row x.normOff 4)) nq else d

/-- Bytes a function reads of an object through a descriptor; zeros outside the rights (R222). -/
def descBytes (s : State) (f oid off n : Nat) : List Byte :=
  match (runTarget s f oid).obj? with
  | some o => (verBytes o o.current).readBytes off n
  | none => List.replicate n 0#8

/-- The outputs of a segment. -/
def segOutputs (s : State) (f : Nat) (x : Seg) (opnd : List Byte) : List Byte :=
  (records x.stride x.rows (descBytes s f x.src x.off (x.rows * x.stride))).flatMap (fun r => toLE 4 (segScore x opnd r).toNat)

/-- Outputs written into an own destination (R221); discarded outside the rights (R222). -/
def segWrite (s : State) (f : Nat) (x : Seg) (bs : List Byte) : State :=
  match runTarget s f x.dst with
  | .own _ => (granulePieces (bs.length / granule + 2) x.dstOff bs).foldl (fun s p => storeGranule s f x.dst p.1 p.2) s
  | _ => s

/-- A segment's arrival (R221). -/
def segArrive (s : State) (f : Nat) (x : Seg) : State := if x.arrives then arriveFor s f (x.knot % 65536) 1 else s

/-! ### Channels -/

/-- A channel changed. -/
def updChan (s : State) (c : Nat) (g : Chan → Chan) : State :=
  { s with stk := { s.stk with chans := AMap.insert s.stk.chans c (g (chanOf s c)) } }

/-- The number under which a channel keeps an owner's operand. -/
def ownerKey : Nat ⊕ Nat → Nat
  | .inl cid => 2 * cid
  | .inr no => 2 * no + 1

/-- The admission number of a sequence (R219). -/
def ownerSeq (s : State) : Nat ⊕ Nat → Nat
  | .inl cid => (findAdm s cid).elim 0 (·.seq)
  | .inr no => (AMap.get? s.prog.instances no).elim 0 (·.seq)

/-- The queued segment that starts next (R219): the first of the sequence next after the one served last. -/
def nextSegment (s : State) (c : Chan) : Option Segment :=
  let seqs := ascending' (c.queue.map (fun g => ownerSeq s g.owner))
  let turn := (seqs.find? (fun n => decide (c.lastSeq < n))).orElse (fun _ => seqs.head?)
  turn.bind (fun n => c.queue.find? (fun g => ownerSeq s g.owner == n))
where
  ascending' (vs : List Nat) : List Nat := sortBy (fun a b => decide (a < b)) vs.eraseDups

/-- A segment that runs on no channel: the node writes its outputs, then its arrival follows (R222). -/
def runOffChannel (s : State) (f : Nat) (x : Seg) : State :=
  let out := segOutputs s f x (descBytes s f x.opnd x.opndOff x.opndBytes)
  let s := match runTarget s f x.dst with
    | .own _ => nodeWrite s f x.dst x.dstOff out
    | .granted _ | .foreign | .missing => s
  segArrive s f x

/-- A segment enters its channel's queue. -/
def queueSegment (s : State) (c : Nat) (g : Segment) : State := updChan s c (fun x => { x with queue := x.queue ++ [g] })

/-- One descriptor of a checked sequence taken up (R219, R222): queued for its channel, without rows done at once, else left to
run on no channel. The number of segments queued and the descriptors left come back. -/
def takeSegment (s : State) (f : Nat) (owner : Nat ⊕ Nat) (index : Nat) (d : List Byte) : State × Nat × List (Nat × List Byte) :=
  let x := segOf d
  if x.rows = 0 then (segArrive s f x, 0, [])
  else match segChannel s f x with
    | some c => (queueSegment s c { desc := d, fn := f, owner := owner, index := index }, 1, [])
    | none => (s, 0, [(index, d)])

/-- Segments queued or running. -/
def segmentsOf (s : State) : List Segment := (AMap.vals s.stk.chans).flatMap (fun c => c.queue ++ c.running.toList)

/-- Whether two descriptors write to bytes in common. -/
def sameOutput (x y : Seg) : Bool := x.dst == y.dst && meets (x.dstOff, 4 * x.rows) (y.dstOff, 4 * y.rows)

/-- Of a sequence's descriptors that run on no channel, those that wait: an earlier descriptor whose destination they overlap is
still to write (R216). -/
def offWaiting (s : State) (cid : Nat) (ds : List (Nat × List Byte)) : List (Nat × List Byte) :=
  let ahead (e : Nat × List Byte) (g : Segment) : Bool :=
    g.owner == .inl cid && !g.scan && decide (g.index < e.1) && sameOutput (segOf g.desc) (segOf e.2)
  ds.foldl (fun w e =>
    if (segmentsOf s).any (ahead e) || w.any (fun v => sameOutput (segOf v.2) (segOf e.2)) then w ++ [e] else w) []

/-- A sequence changed. -/
def updSequence (s : State) (cid : Nat) (g : Sequence → Sequence) : State :=
  { s with stk := { s.stk with sequences := s.stk.sequences.map (fun q => if q.cid = cid then g q else q) } }

/-- A sequence moves on: descriptors that run on no channel and no longer wait write their outputs; with nothing left its command
ends (R221). COUNT counts their rows, those of a destination outside the rights too (DESIGN CHOICE, log entry 144). -/
def sequenceOn (s : State) (cid f : Nat) : State :=
  match s.stk.sequences.find? (fun q => q.cid == cid) with
  | none => s
  | some q =>
    let waits := offWaiting s cid q.off
    let go := q.off.filter (fun e => !waits.contains e)
    let rows := go.foldl (fun n e => n + (segOf e.2).rows) q.rows
    let s := go.foldl (fun s e => runOffChannel s f (segOf e.2)) s
    let s := updSequence s cid (fun q => { q with off := waits, rows := rows })
    if q.left = 0 && waits.isEmpty then finish s cid { count := BitVec.ofNat 32 rows } else s

/-- A segment of a sequence of SPINDLE_RUN has ended (R221). -/
def sequenceStep (s : State) (g : Segment) (rows : Nat) : State :=
  match g.owner with
  | .inr _ => s
  | .inl cid =>
    if g.scan then s
    else sequenceOn (updSequence s cid (fun q => { q with left := q.left - 1, rows := q.rows + rows })) cid g.fn

/-- The objects of a sequence that its command holds until it completes (R136, R169). -/
def segPins (s : State) (f : Nat) (xs : List Seg) : List (Nat × Nat) :=
  ((xs.flatMap (fun x => [x.src, x.opnd, x.dst])).filterMap (fun oid =>
    (descTarget s f oid).obj?.map (fun o => (oid, o.current)))).eraseDups

/-- R217: SPINDLE_RUN's descriptors are checked, its granules brought Near and its segments queued. -/
def startSequence (s : State) (a : Adm) (ds : List (List Byte)) : State :=
  let cid := a.cmd.cid
  let f := a.fn
  let xs := ds.map segOf
  let gs := segGranules s f xs
  if gs.any (fun e => bringHeld s e.1 e.2) then s
  else match bringAll s gs with
  | none => fail s cid stNoSpace
  | some s' =>
    if gs.any (granuleLost s) then tierFailed s a
    else if xs.any (fun x => (segChannel s f x).isSome && segEcc s x) then fail s cid stInternal
    else
      let (s, left, off) := (ds.zipIdx).foldl (fun (acc : State × Nat × List (Nat × List Byte)) d =>
        let (s, n, o) := takeSegment acc.1 f (.inl cid) d.2 d.1
        (s, acc.2.1 + n, acc.2.2 ++ o)) (s', 0, [])
      let s := updAdm s cid (fun a => { a with pins := (a.pins ++ segPins s f xs).eraseDups })
      let q : Sequence := { cid := cid, left := left, rows := 0, runs := (gs.map (fun e => (e.1, e.2 / 8))).eraseDups, off := off }
      sequenceOn (setPhase { s with stk := { s.stk with sequences := s.stk.sequences ++ [q] } } cid .waitSegments) cid f

/-- R214, R216: SPINDLE_RUN. -/
def execSpindleRun (cid : Nat) (s : State) : Out := withCmd s cid 0x507 (fun a =>
  let oid := a.p 32 4
  let t := target s a oid
  let n := a.p 36 4
  let ds := records 64 n a.carried
  let xs := ds.map segOf
  let s := countForeign s a (t.isForeign || xs.any (segForeign s a.fn))
  if t.isMissing || xs.any (segMissing s a.fn) then fail s cid stNoObject
  else if t.bad (fun o => !o.isData || beyond a oid o 0 (64 * n)) || !seqOk s a.fn ds then fail s cid stInvalidParam
  else if readFails .any a oid t 0 (64 * n) then readFailed s a (readFails .lost a oid t 0 (64 * n))
  else startSequence s a ds)

/-- Whether a segment's operand lies in part on a channel that holds ordinary requests, as its load is one (R209, R215). -/
def operandHeld (s : State) (g : Segment) : Bool :=
  let x := segOf g.desc
  !g.scan && x.loads && (runTarget s g.fn x.opnd).obj?.any (fun o => rangeHeld s x.opnd o.current x.opndOff x.opndBytes)

/-- The next queued segment enters a channel in memory mode (R209, R219), unless its stack is at thermal level 3 (R460) or its
operand's load is held; an owed refresh goes before it (R212) and its operand is loaded (R215). -/
def startSegment (s : State) (ch : Nat) : State :=
  let c := chanOf s ch
  if c.state != .memory || s.draught.levels.contains (.stack (ch / 32)) then s
  else match nextSegment s c with
    | none => s
    | some g =>
      let x := segOf g.desc
      let key := ownerKey g.owner
      if operandHeld s g then s
      else updChan s ch (fun c => { c with
        state := .entry, running := some g, queue := c.queue.erase g, lastSeq := ownerSeq s g.owner
        owed := false, refreshes := if c.owed then c.refreshes + 1 else c.refreshes
        operand := if x.loads && !g.scan then AMap.insert c.operand key (descBytes s g.fn x.opnd x.opndOff x.opndBytes) else c.operand })

/-- R219: the next queued segment starts. -/
def execSegmentStart (ch : Nat) (s : State) : Out := .next (startSegment s ch)

/-- R221: the running segment ends: its outputs are written, its knot receives its arrival, the channel begins exit. A scan writes
to no object (R219, R223). -/
def execSegmentEnd (ch : Nat) (s : State) : Out :=
  let c := chanOf s ch
  match c.running with
  | none => .next s
  | some g =>
    let x := segOf g.desc
    let s := if g.scan then s else segWrite s g.fn x (segOutputs s g.fn x (AMap.getD c.operand (ownerKey g.owner) []))
    let s := updChan s ch (fun c => { c with state := .exit, running := none })
    let s := charge { s with stk := { s.stk with segments := s.stk.segments + 1 } } g.fn (85 * ceilDiv x.budget 64) false
    .next (sequenceStep (if g.scan then s else segArrive s g.fn x) g x.rows)

/-- Values of a stopped segment's outputs, which are undefined (R218): free values. -/
def stoppedOutputs (s : State) (n : Nat) : List Byte :=
  (List.range n).flatMap (fun j => toLE 4 (Config.stoppedOutput (s.fresh + j)).toNat)

/-- R218: the running segment is stopped: its outputs are undefined, the rest of its sequence goes and its command ends with
INTERNAL. A segment that a program issued alone has no sequence: it makes no arrival, and its instance and that instance's other
segments go on (DESIGN CHOICE, log entry 145). -/
def execSegmentStop (ch : Nat) (s : State) : Out :=
  let c := chanOf s ch
  match c.running with
  | none => .next s
  | some g =>
    let x := segOf g.desc
    let s := if g.scan then s else segWrite { s with fresh := s.fresh + x.rows } g.fn x (stoppedOutputs s x.rows)
    let s := updChan s ch (fun c => { c with state := .exit, running := none, stopped := satAdd c.stopped 1 })
    let s := causeSnap { s with stk := { s.stk with stopped := satAdd s.stk.stopped 1 } } 2
    .next (match g.owner with
      | .inr _ => s
      | .inl cid =>
        let s := updSequence { s with stk := { s.stk with chans := s.stk.chans.map (fun e =>
          (e.1, { e.2 with queue := e.2.queue.filter (fun y => y.owner != g.owner) })) } } cid (fun q => { q with off := [] })
        if (findAdm s cid).any (fun a => !a.isDone) then fail s cid stInternal else s)

/-- R213: the exit ends and the gap begins: held requests are issued in arrival order, then an owed refresh, then those that were
stalled, which arrive in the gap (R210). -/
def execChannelExitEnd (ch holdNs : Nat) (s : State) : Out :=
  let c := chanOf s ch
  if c.state != .exit then .next s
  else
    let s := updChan s ch (fun c => { c with
      state := .gap, held := [], stalled := [], owed := false, refreshes := if c.owed then c.refreshes + 1 else c.refreshes })
    let s := if c.held.isEmpty then s else { s with stk := { s.stk with
      maxHold := BitVec.ofNat 16 (max s.stk.maxHold.toNat (min holdNs 65535)) } }
    .next (c.stalled.foldl serveStalled (c.held.foldl serveHeld s))

/-- R212: a refresh falls due: issued in memory mode, owed while a segment enters, runs or exits. -/
def execRefreshDue (ch : Nat) (s : State) : Out :=
  if chanHolds s ch then .next (updChan s ch (fun c => { c with owed := true }))
  else .next (updChan s ch (fun c => { c with refreshes := c.refreshes + 1 }))

/-- R213: the gap ends, and the next queued segment starts. -/
def execGapEnd (ch : Nat) (s : State) : Out :=
  if (chanOf s ch).state == .gap then .next (startSegment (updChan s ch (fun c => { c with state := .memory })) ch) else .next s

/-! ### Scans of the search path and of sequence models (R219, R223) -/

/-- Pieces of rows in one channel run each and within one segment's budget (R216, R223): channel, offset, rows. A row belongs to the
run in which it begins. -/
def scanParts (s : State) (oid off rows stride : Nat) : List (Nat × Nat × Nat) :=
  let cap := max 1 (458752 / (stride + 4))
  let firstIn (r : Nat) : Nat := min rows (ceilDiv (r * runBytes - off) (max 1 stride))
  let runs := if rows * stride = 0 then [] else
    (List.range ((off + rows * stride - 1) / runBytes + 1 - off / runBytes)).map (· + off / runBytes)
  runs.flatMap (fun r =>
    let lo := firstIn r
    let n := firstIn (r + 1) - lo
    (List.range (ceilDiv n cap)).map (fun i =>
      (channelOf s oid (r * 8), off + (lo + cap * i) * stride, min cap (n - cap * i))))

/-- Pieces of rows packed run by run, so that none crosses a run (R373). -/
def packedParts (s : State) (oid rows stride : Nat) : List (Nat × Nat × Nat) :=
  let cap := max 1 (458752 / (stride + 4))
  let per := max 1 (runBytes / max 1 stride)
  (List.range (ceilDiv rows per)).flatMap (fun r =>
    let n := min per (rows - r * per)
    (List.range (ceilDiv n cap)).map (fun i => (channelOf s oid (r * 8), runBytes * r + cap * i * stride, min cap (n - cap * i))))

/-- Whether a channel is busy for the search path (R219). -/
def chanBusy (s : State) (c : Nat) : Bool := decide (16 ≤ (chanOf s c).queue.length)

/-- Segments over pieces of an object's rows enter their channels' queues for a command. -/
def queueScan (s : State) (a : Adm) (oid stride : Nat) (parts : List (Nat × Nat × Nat)) : State :=
  parts.foldl (fun s p => queueSegment s p.1
    { desc := lay 64 [(4, 4, oid), (8, 8, p.2.1), (16, 4, p.2.2), (20, 2, stride)], fn := a.fn, owner := .inl a.cmd.cid, scan := true }) s

/-- Whether a segment queued or running keeps a granule Near: those of a program and scans (R217). -/
def segmentHolds (s : State) (oid g : Nat) : Bool :=
  (segmentsOf s).any (fun y =>
    let x := segOf y.desc
    (x.src == oid && x.off / runBytes == g / 8) || (!y.scan && x.dst == oid && x.dstOff / runBytes == g / 8))

/-- Whether queued or running segments would find another channel set in force in a changed state (R208). -/
def segmentsMeet (s s' : State) : Bool := (segmentsOf s).any (fun g => channelSet s g.fn != channelSet s' g.fn)

end Sys2Proof.Machine
end

