-- ==== Sys2Proof/Machine/Rank.lean ====
section
/-! DEFINITION. Ranking (R361, R362, R366-R378): layers, partial products, the sequence step, ranking parts to the other
members, their contributions, the feature cache and the RANK command. -/

namespace Sys2Proof.Machine
open Sys2Proof

/-! ### Layers (R366-R371) -/

/-- Format of a layer's weights and of its converted inputs (R366, R369). -/
def layerFmt (l : Layer) : Fmt := if l.fmt = 3 then bf16 else e4m3

/-- Weight row h of a layer. -/
def weightRow (m : Mem) (l : Layer) (h : Nat) : List Val :=
  let w := layerWidth l.fmt
  (elems w l.inp (imgData m (l.wOff + h * l.inp * w) (l.inp * w))).map (layerFmt l).decode

/-- Bias h of a layer. -/
def layerBias (m : Mem) (l : Layer) (h : Nat) : Word := BitVec.ofNat 32 (imgDataNat m (l.bOff + 4 * h) 4)

/-- The chains of a layer over an input, before bias (R231, R369, R371). -/
def layerChains (m : Mem) (l : Layer) (x : List Word) : List Word :=
  let f := layerFmt l
  let xs := x.map (fun v => f.decode (f.ofF32 v))
  (List.range l.out).map (fun h => chainFrom 0 (weightRow m l h) xs)

/-- Bias added once and the activation applied (R369, R372). -/
def layerEnd (m : Mem) (l : Layer) (y : List Word) : List Word :=
  (y.zipIdx).map (fun e => activation l.act (fadd e.1 (layerBias m l e.2)))

/-- The layers from number i on (R369, R375). -/
def runLayers (m : Mem) : Nat → Nat → List Word → List Word
  | 0, _, x => x
  | n + 1, i, x => runLayers m n (i + 1) (layerEnd m (layerOf m i) (layerChains m (layerOf m i) x))

/-! ### The sequence step (R373) -/

/-- Offset of row i of the sequence rows: s bytes a row, packed run by run. -/
def seqOff (stride i : Nat) : Nat :=
  let r := 524288 / stride
  524288 * (i / r) + stride * (i % r)

/-- Stride of a sequence row. -/
def seqStride (dim : Nat) : Nat := roundUp (dim / 2 + dim / 16) 16

/-- h' from h, the event e and the bytes of row i. -/
def seqStep (h e : List Word) (row : Nat → List Byte) : List Word :=
  let dim := e.length + h.length
  let (sc, q) := quantBlock fp32 127 (e ++ h)
  let dot (i : Nat) : Word :=
    let r := row i
    dot30 q ((unpack4 r).take dim) ((elems 2 (dim / 32) (r.drop (dim / 2))).map fp16.toF32) sc
  (h.zipIdx).map (fun x =>
    let g := activation 2 (dot x.2)
    let t := activation 3 (dot (h.length + x.2))
    fadd x.1 (fmul g (fsub t x.1)))

/-! ### A member's part (R362, R371) -/

/-- Table parameters that a member returns with its contribution (R361, R370); the layout is the model's. -/
def tblParams (t : Tbl) : List Byte := lay 32 [(0, 8, t.rows), (8, 4, t.columns), (12, 4, t.first), (16, 4, t.cols), (20, 1, t.fmt)]

/-- A member's partial products for candidates' rows (R371). -/
def partials (m : Mem) (rows : List (List Word)) : List Byte :=
  rows.flatMap (fun x => (layerChains m (layerOf m 0) x).flatMap (fun w => toLE 4 w.toNat))

/-- The table that a ranking part finds (R362): the lowest group of equal members that binds one. -/
def partTable (s : State) (f : Nat) (members : List Nat) : Option (Nat × Obj) :=
  let groups := s.space.objs.filter (fun e => e.2.fn == f && !e.2.destroyed &&
    (match e.2.kind with | .group ms _ => ms == members | _ => false))
  groups.findSome? (fun g => s.space.objs.find? (fun e => e.2.fn == f && !e.2.destroyed && (tblOf e.2).any (fun t => t.group == g.1)))

/-- The image by which a member forms its part: the function's live program of lowest ID whose first layer takes the
slice's columns. The manual does not say how a member finds it. -/
def partImage (s : State) (f cols : Nat) : Option Mem :=
  (s.space.objs.find? (fun e => e.2.fn == f && !e.2.destroyed && e.2.kind == .program && modelOk (verBytes e.2 0) cols)).map (fun e => verBytes e.2 0)

/-- A ranking part's bytes (R370): a mark that is no opcode, the members, the version, the row numbers. -/
def partBytesOf (members : List Nat) (ver : Nat) (rows : List Nat) : List Byte :=
  toLE 2 0xFFFF ++ toLE 2 members.length ++ toLE 4 ver ++ toLE 8 rows.length ++ members.flatMap (toLE 2) ++ rows.flatMap (toLE 8)

/-- What a member answers to a ranking part: a status, and its table's parameters with the partials (R370, R371). -/
def partAnswer (s : State) (f : Nat) (bs : List Byte) : Byte × List Byte :=
  let n := field bs 2 2
  let members := elems 2 n (bs.drop 16)
  let rows := elems 8 (field bs 8 8) (bs.drop (16 + 2 * n))
  let ver := field bs 4 4
  match partTable s f members with
  | none => (stNoObject, [])
  | some (_, o) =>
    match tblOf o with
    | none => (stNoObject, [])
    | some t =>
      if (verOf o ver).isNone then (stNoObject, [])
      else if rows.any (fun r => decide (t.rows ≤ r)) then (stInvalidParam, tblParams t)
      else if rows.any (fun r => rangeBad .lost o ver (t.rowOff r) t.rowBytes) then (stTierFail, [])
      else if rows.any (fun r => rangeBad .any o ver (t.rowOff r) t.rowBytes) then (stInternal, [])
      else match partImage s f t.cols with
        | none => (stInvalidParam, tblParams t)
        | some m => (stOk, tblParams t ++ partials m (rows.map (fun r => t.values ((verBytes o ver).readBytes (t.rowOff r) t.rowBytes))))

/-- A ranking part is answered by a Contribution of kind 5 (R370, R372). -/
def answerPart (s : State) (src f ctx : Nat) (bs : List Byte) : State :=
  let (st, data) := partAnswer s f bs
  let s := if st = stTierFail then countTierFail s f else s
  sendPlain (chargeNear s f data.length) 3 src f (fnOf s f).shareEpoch ctx (lay 16 [(0, 1, 5), (4, 8, data.length), (12, 4, st.toNat)]) data

/-! ### The coordinator -/

/-- What a RANK works with: the model, the pinned table and its version, candidates, members and this node's index. -/
structure RankOn where
  m : Mem
  tt : Target
  table : Nat
  cands : List Entry
  members : List Nat
  self : Nat

/-- Targets of a RANK (R145). -/
structure RankTargets where
  model : Target
  table : Target
  group : Option Target
  cand : Target
  ctx : Option Target

def rankTargets (s : State) (a : Adm) : RankTargets :=
  { model := target s a (a.p 32 4), table := target s a (a.p 36 4)
    group := if a.p 40 4 = 0 then none else some (target s a (a.p 40 4))
    cand := target s a (a.p 44 4), ctx := if a.p 56 4 = 0 then none else some (target s a (a.p 56 4)) }

/-- All targets in parameter order. -/
def RankTargets.all (t : RankTargets) : List Target := [t.model, t.table] ++ t.group.toList ++ [t.cand] ++ t.ctx.toList

/-- The coordinator's view. -/
def rankOn (a : Adm) (t : RankTargets) : RankOn :=
  let (ms, i) := match (t.group.bind (·.obj?)).map (·.kind) with
    | some (.group ms i) => (ms, i)
    | _ => ([0], 0)
  { m := t.model.obj?.elim [] (fun o => verBytes o 0), tt := t.table, table := a.p 36 4
    cands := (records 24 (a.p 48 4) (readTarget a (a.p 44 4) t.cand 0 (24 * a.p 48 4))).map Entry.ofBytes
    members := ms, self := i }

/-- Columns of the coordinator's slice; outside the rights those its model expects (R129). -/
def RankOn.cols (r : RankOn) : Nat := ((r.tt.obj?.bind tblOf).map (·.cols)).getD (layerOf r.m 0).inp

/-- FP32 elements of a row of the pinned table; zeros outside the rights. -/
def RankOn.row (r : RankOn) (a : Adm) (n : Nat) : List Word :=
  match r.tt.obj? with
  | some o => match tblOf o with
    | some t => t.values ((verBytes o (pinnedVer a r.table)).readBytes (t.rowOff n) t.rowBytes)
    | none => []
  | none => List.replicate r.cols 0

/-- Bytes of the context object, with the widths of the model where it is outside the rights (R374). -/
def ctxBytes (m : Mem) (a : Adm) (t : Option Target) : List Byte :=
  let n := 64 + 4 * (mdlUser m + mdlState m + mdlEvent m)
  match t with
  | none => []
  | some t => if t.isForeign then lay n [(0, 4, 0x54585443), (8, 2, mdlEvent m), (10, 2, mdlState m), (12, 4, mdlUser m)]
    else readTarget a (a.p 56 4) t 0 n

/-- Whether a context's own bytes disagree with the model (R374). -/
def ctxBad (m : Mem) (bs : List Byte) : Bool :=
  field bs 0 4 != 0x54585443 || field bs 8 2 != mdlEvent m || field bs 10 2 != mdlState m || field bs 12 4 != mdlUser m

/-- The object of the sequence rows: its ID and what it is to the function; 0 with a foreign context (R374). -/
def seqTarget (s : State) (f : Nat) (bs : List Byte) (foreign : Bool) : Nat × Target :=
  let oid := field bs 4 4
  (oid, if foreign then .foreign
    else match (liveObj s oid).filter (fun o => mayRead o f) with
      | some o => if o.fn = f then .own o else .granted o
      | none => if oidFn oid = f then .missing else .foreign)

/-- Bytes that the sequence rows take. -/
def seqBytes (m : Mem) : Nat :=
  let st := seqStride (mdlEvent m + mdlState m)
  if mdlState m = 0 then 0 else seqOff st (2 * mdlState m - 1) + st

/-- Whether a context or sequence object ends a RANK with INVALID_PARAM (R374). -/
def rankCtxBad (m : Mem) (a : Adm) (t : RankTargets) (bs : List Byte) (sq : Target) : Bool :=
  match t.ctx with
  | none => mdlUser m != 0 || mdlState m != 0
  | some tc => !tc.isForeign && (tc.bad (fun o => !o.isData || beyond a (a.p 56 4) o 0 (64 + 4 * (mdlUser m + mdlState m + mdlEvent m))) ||
      ctxBad m bs || (mdlSeq m && sq.bad (fun o => !o.isData || decide (verSize o o.current < seqBytes m))))

/-- The checks of a RANK against its objects (item 2 of R131; R145, R295, R361, R363, R367). -/
def rankBad (a : Adm) (t : RankTargets) (r : RankOn) (bs : List Byte) (sq : Target) : Bool :=
  t.model.bad (fun o => o.kind != .program) || t.table.bad (fun o => !o.isTable) ||
  (t.group.any (fun g => g.bad (fun o => match o.kind with | .group _ _ => false | _ => true))) ||
  (t.table.bad (fun o => (tblOf o).any (fun x => x.group != a.p 40 4)) && !(t.group.any (·.isForeign))) ||
  t.cand.bad (fun o => !o.isData || beyond a (a.p 44 4) o 0 (24 * a.p 48 4)) ||
  !modelOk r.m r.cols || !needsMet r.m a.features || (mdlSeq r.m && !a.has 13) ||
  (t.table.obj?.any (fun o => (tblOf o).any (fun x => x.group != 0)) && !a.has 10) || rankCtxBad r.m a t bs sq ||
  r.cands.any (fun e => t.table.bad (fun o => (tblOf o).any (fun x => decide (x.rows ≤ e.item))))

/-- Whether a source of a RANK cannot be read (R181, R516). -/
def rankBadRead (m : Bad) (a : Adm) (t : RankTargets) (r : RankOn) (sq : Target) : Bool :=
  readFails m a (a.p 44 4) t.cand 0 (24 * a.p 48 4) ||
  t.ctx.any (fun c => readFails m a (a.p 56 4) c 0 (64 + 4 * (mdlUser r.m + mdlState r.m + mdlEvent r.m))) ||
  (mdlSeq r.m && sq.obj?.any (fun o => rangeBad m o o.current 0 (seqBytes r.m))) ||
  r.cands.any (fun e => t.table.obj?.any (fun o => (tblOf o).any (fun x => rangeBad m o (pinnedVer a (a.p 36 4)) (x.rowOff e.item) x.rowBytes)))

/-- FP32 vectors of a context: user features, state, event (R374). -/
def ctxVectors (m : Mem) (bs : List Byte) : List Word × List Word × List Word :=
  let ws := (elems 4 (mdlUser m + mdlState m + mdlEvent m) (bs.drop 64)).map (BitVec.ofNat 32)
  (ws.take (mdlUser m), (ws.drop (mdlUser m)).take (mdlState m), ws.drop (mdlUser m + mdlState m))

/-- The state that layer 1 takes: h' after the sequence step, or h (R373, R375). -/
def rankState (m : Mem) (bs : List Byte) (sq : Target) : List Word :=
  let (_, h, e) := ctxVectors m bs
  if mdlSeq m then
    let st := seqStride (e.length + h.length)
    seqStep h e (fun i => match sq.obj? with
      | some o => (verBytes o o.current).readBytes (seqOff st i) st
      | none => List.replicate st 0#8)
  else h

/-- A candidate's score from the members' partials in member order (R372, R375). -/
def rankScore (m : Mem) (user state : List Word) (ps : List (List Word)) : Word :=
  let l := layerOf m 0
  let y := ps.foldl (fun acc p => (acc.zip p).map (fun e => fadd e.1 e.2)) (List.replicate l.out 0)
  (runLayers m (mdlLayers m - 1) 1 (layerEnd m l y ++ user ++ state)).headD 0

/-- Where one member's partials for the candidates come from. -/
inductive PartFrom where
  | here (bs : List Byte)
  | cache
  | wait
deriving DecidableEq

/-- A member's cached contribution for a row; +0 where there is none (R378). -/
def cachedPart (s : State) (f image member row h : Nat) : List Word :=
  ((s.fabric.features.find? (fun e => e.fn == f && e.image == image && e.member == member && e.row == row)).map (·.part)).getD (List.replicate h 0)

/-- Accepted contributions enter the feature cache, the most recent last; 1,048,576 entries are kept (R378). -/
def cacheParts (s : State) (f image member : Nat) (parts : List (Nat × List Word)) : State :=
  let put (fs : List Feature) (p : Nat × List Word) : List Feature :=
    fs.filter (fun e => !(e.fn == f && e.image == image && e.member == member && e.row == p.1)) ++ [⟨f, image, member, p.1, p.2⟩]
  let fs := parts.foldl put s.fabric.features
  { s with fabric := { s.fabric with features := fs.drop (fs.length - 1048576) } }

/-- Cached contributions that are used become the most recent (R378). -/
def touchParts (s : State) (f image member : Nat) (rows : List Nat) : State :=
  let used (e : Feature) : Bool := e.fn == f && e.image == image && e.member == member && rows.contains e.row
  { s with fabric := { s.fabric with features := s.fabric.features.filter (fun e => !used e) ++ s.fabric.features.filter used } }

/-- Whether the members' tables tile the columns and agree (R361); an absent member's parameters are not known. -/
def tilesOk (ps : List (Option (List Byte))) : Bool :=
  let known := ps.filterMap id
  let col (p : List Byte) : Nat × Nat := (field p 12 4, field p 16 4)
  known.all (fun p => known.all (fun q => field p 0 8 == field q 0 8 && field p 8 4 == field q 8 4 && field p 20 1 == field q 20 1)) &&
  ((ps.head?.bind id).all (fun p => (col p).1 == 0)) &&
  ((ps.getLast?.bind id).all (fun p => (col p).1 + (col p).2 == field p 8 4)) &&
  ((ps.zip ps.tail).all (fun e => match e with
    | (some p, some q) => (col q).1 == (col p).1 + (col p).2
    | _ => true))

/-- The record of a RANK's reduce. -/
def rankColl (s : State) (cid : Nat) : Option Coll := s.fabric.colls.find? (fun c => c.kind == 5 && c.cid == some cid)

/-- The record of a RANK's reduce removed. -/
def dropRank (s : State) (cid : Nat) : State :=
  { s with fabric := { s.fabric with colls := s.fabric.colls.filter (fun c => !(c.kind == 5 && c.cid == some cid)) } }

/-- A RANK ends with a status (R370, R376). -/
def rankFails (s : State) (cid : Nat) (st : Byte) : State := fail (dropRank s cid) cid st

/-- Where a member's partials come from now (R372, R378). -/
def partFrom (s : State) (c : Coll) (i : Nat) : PartFrom :=
  if i = c.self then .here c.own
  else match c.partOf i with
    | some bs => .here bs
    | none => if reachable s 1 (c.members.getD i 0) c.fn c.seq then .wait else .cache

/-- The result of a RANK from every member's partials (R375, R376). -/
def rankFinish (s : State) (a : Adm) (from' : List PartFrom) : State :=
  let cid := a.cmd.cid
  let t := rankTargets s a
  let r := rankOn a t
  let bs := ctxBytes r.m a t.ctx
  let (_, sq) := seqTarget s a.fn bs (t.ctx.any (·.isForeign))
  let h := mdlH r.m
  let image := a.p 32 4
  let rows := r.cands.map (·.item)
  let part (bs : List Byte) (j : Nat) : List Word := words (slice bs (32 + 4 * h * j) (4 * h))
  if !tilesOk (from'.map (fun p => match p with | .here bs => some (bs.take 32) | _ => none)) then rankFails s cid stInvalidParam
  else
    let (user, _, _) := ctxVectors r.m bs
    let st := rankState r.m bs sq
    let scored := (r.cands.zipIdx).map (fun e =>
      let ps := (from'.zipIdx).map (fun p => match p.1 with
        | .here bs => part bs e.2
        | _ => cachedPart s a.fn image p.2 e.1.item h)
      { e.1 with score := rankScore r.m user st ps })
    let s := (from'.zipIdx).foldl (fun s p => match p.1 with
      | .here _ => s
      | _ => touchParts s a.fn image p.2 rows) s
    let (v, bad) := validEntries scored
    let best := topK true true (a.p 52 4) v
    finish (dropRank (countSpill (countKeys s a.fn (2 * scored.length)) (a.p 52 4)) cid) cid
      { status := shortOr best.length (a.p 52 4), rflags := if from'.contains .cache then rfStale else 0
        count := BitVec.ofNat 32 best.length, invalid := BitVec.ofNat 32 bad
        version := BitVec.ofNat 32 (pinnedVer a (a.p 36 4)), data := entryBytes best }

/-- A RANK moves on: once every member has contributed or is unreachable, its result is formed (R372, R378). -/
def rankStep (s : State) (cid : Nat) : State :=
  match rankColl s cid, findAdm s cid with
  | some c, some a =>
    let from' := (List.range c.m).map (partFrom s c)
    if from'.contains .wait then s else rankFinish s a from'
  | _, _ => s

/-- Every RANK moves on (a destination has become unreachable). -/
def rankStepAll (s : State) : State :=
  (s.fabric.colls.filterMap (fun c => if c.kind = 5 then c.cid else none)).foldl rankStep s

/-- A ranking part goes to a member, under the epoch of the function's tenant share (R41, R370, R407). -/
def askPart (s : State) (c : Coll) (ver : Nat) (rows : List Nat) (i : Nat) : State :=
  sendPlain s 1 (c.members.getD i 0) c.fn (fnOf s c.fn).shareEpoch c.seq [] (partBytesOf c.members ver rows)

/-- Whether a RANK has a sequence step still to run on spindles (R223): its segments are not queued yet, or not all ended. -/
def seqOwed (s : State) (a : Adm) (m : Mem) (sq : Target) (used : Bool) : Bool :=
  used && mdlState m != 0 && sq.obj?.isSome && (a.work.isEmpty || scanning s a.cmd.cid)

/-- The sequence step of a RANK is queued on spindles (R217, R223): its rows are brought Near, and its segments enter their
channels' queues; once they have ended, the RANK goes on. Where a channel is busy or the rows find no place Near, a loom makes the
step (R46, R385). -/
def seqQueue (s : State) (a : Adm) (m : Mem) (oid : Nat) : State :=
  let stride := seqStride (mdlEvent m + mdlState m)
  let gs := (rangeGranules 0 (seqBytes m)).map (fun g => (oid, g))
  if scanning s a.cmd.cid || gs.any (fun e => bringHeld s e.1 e.2) then s
  else
    let parts := packedParts s oid (2 * mdlState m) stride
    let s := if parts.any (fun p => chanBusy s p.1) then s else (bringAll s gs).elim s (fun s => queueScan s a oid stride parts)
    updAdm s a.cmd.cid (fun b => { b with work := [(0, 0)] })

/-- R370-R378: RANK. Its sequence step runs, the own partials are formed, the other members are asked for theirs. -/
def execRank (cid : Nat) (s : State) : Out := withCmd s cid 0x403 (fun a =>
  let t := rankTargets s a
  let r := rankOn a t
  let bs := ctxBytes r.m a t.ctx
  let (sqId, sq) := seqTarget s a.fn bs (t.ctx.any (·.isForeign))
  let useSeq := mdlSeq r.m && t.ctx.isSome
  let s0 := s
  let s := countForeign s a (t.all.any (·.isForeign) || (useSeq && sq.isForeign))
  if t.all.any (·.isMissing) || (useSeq && modelOk r.m r.cols && !ctxBad r.m bs && sq.isMissing) then fail s cid stNoObject
  else if rankBad a t r bs sq then fail s cid stInvalidParam
  else if !largeFits s a.cmd.selectLarge then fail s cid stNoSpace
  else if rankBadRead .any a t r sq then readFailed s a (rankBadRead .lost a t r sq)
  else if seqOwed s0 a r.m sq useSeq then seqQueue s0 a r.m sqId
  else
    let rows := r.cands.map (·.item)
    let params := match t.table.obj?.bind tblOf with
      | some x => tblParams { x with first := if x.group = 0 then 0 else x.first, columns := if x.group = 0 then x.cols else x.columns }
      | none => tblParams ⟨0, 0, r.cols, 0, r.cols, 0⟩
    let own := params ++ partials r.m (rows.map (r.row a))
    let c : Coll := { fn := a.fn, members := r.members, seq := cid % 2 ^ 32, kind := 5, root := r.self, len := 32 + 4 * mdlH r.m * rows.length
                      k := 0, self := r.self, begun := true, own := own, cid := some cid }
    let s := chargeNear (setPhase { s with fabric := { s.fabric with colls := s.fabric.colls ++ [c] } } cid .waitCollective) a.fn own.length
    let s := ((List.range c.m).filter (· != c.self)).foldl (askPart · c (pinnedVer a (a.p 36 4)) rows) s
    rankStep s cid)

/-- A member's whole contribution, once accepted, enters the feature cache row by row (R378). -/
def cacheAccepted (s : State) (a : Adm) (member : Nat) : State :=
  match (rankColl s a.cmd.cid).bind (fun c => c.partOf member) with
  | none => s
  | some bs =>
    let r := rankOn a (rankTargets s a)
    let h := mdlH r.m
    cacheParts s a.fn (a.p 32 4) member ((r.cands.zipIdx).map (fun e => (e.1.item, words (slice bs (32 + 4 * h * e.2) (4 * h)))))

/-- A member's contribution to a RANK (R370, R372): its status, its epoch, its bytes. -/
def rankContribution (s : State) (src f ctx member : Nat) (epoch : Word) (offset : Nat) (head bs : List Byte) : State :=
  match s.fabric.colls.find? (fun c => c.kind == 5 && c.fn == f && c.seq == ctx && c.members[member]? == some src) with
  | none => s
  | some c =>
    match c.cid.bind (findAdm s) with
    | none => s
    | some a =>
      let st := field head 12 4
      if epoch ≠ (fnOf s f).shareEpoch then
        -- rejected and asked for again (R43, R407)
        askPart (countRejected s f (shareDomain f)) c (pinnedVer a (a.p 36 4)) ((rankOn a (rankTargets s a)).cands.map (·.item)) member
      else if st ≠ 0 then rankFails s a.cmd.cid (BitVec.ofNat 8 st)
      else if field head 4 8 ≠ c.len then rankFails s a.cmd.cid stInvalidParam
      else
        let s := { s with fabric := { s.fabric with colls := s.fabric.colls.map (fun x =>
          if x.kind == 5 && x.cid == c.cid then { x with parts := x.parts ++ [(member, offset, bs)] } else x) } }
        rankStep (cacheAccepted s a member) a.cmd.cid

end Sys2Proof.Machine
end

