-- ==== Sys2Proof/Machine/Tables.lean ====
section
/-! DEFINITION. The table commands beside RANK (R145, R358-R360, R363-R365, R379-R384). -/

namespace Sys2Proof.Machine
open Sys2Proof

/-- Whether a live table of the function is bound to a group (R360). -/
def groupBound (s : State) (f group : Nat) : Bool :=
  s.space.objs.any (fun e => e.2.fn == f && !e.2.destroyed && (tblOf e.2).any (fun t => t.group == group))

/-- R145, R360: TABLE_CREATE: a table slice of zeros at version 1. -/
def execTableCreate (cid : Nat) (s : State) : Out := withCmd s cid 0x400 (fun a =>
  let g := a.p 56 4
  let tg := target s a g
  let t : Tbl := ⟨a.p 52 1, a.p 32 8, a.p 40 4, a.p 44 4, a.p 48 4, g⟩
  let s := countForeign s a (g != 0 && tg.isForeign)
  if g != 0 && tg.isMissing then fail s cid stNoObject
  else if g != 0 && (tg.bad (fun o => !o.isGroup) || groupBound s a.fn g) then fail s cid stInvalidParam
  else created s a (.table t.fmt t.rows t.columns t.first t.cols g) 0 (Mem.ofBytes (t.header 1)) t.size (fun _ => false))

/-- R383, R384: TABLE_LOAD. -/
def execTableLoad (cid : Nat) (host : List Byte) (s : State) : Out :=
  withCmd s cid 0x401 (fun a => loadRun s a host Obj.isTable false)

/-- Row numbers that a command's object holds (R363). -/
def rowNumbers (a : Adm) (oid : Nat) (t : Target) (off n : Nat) : List Nat := elems 8 n (readTarget a oid t off (8 * n))

/-- Whether a row of the pinned version cannot be read (R181, R516). -/
def rowBad (m : Bad) (a : Adm) (oid : Nat) (o : Obj) (t : Tbl) (r : Nat) : Bool := rangeBad m o (pinnedVer a oid) (t.rowOff r) t.rowBytes

/-- The end of GATHER: rows to the host, or into an object (R145, R363). -/
def gatherEnd (s : State) (a : Adm) (rows : List Byte) (ver : Nat) (td : Target) : State :=
  let n := a.p 44 4
  let r : Result := { count := BitVec.ofNat 32 n, version := BitVec.ofNat 32 ver }
  if a.p 48 4 = 0 then
    if rows.length ≤ a.cmd.resultLen && (a.cmd.resultAddr != 0 || rows.isEmpty) then finish s a.cmd.cid { r with data := rows }
    else fail s a.cmd.cid stInvalidParam
  else match td with
    | .own _ =>
      match writeData s (a.p 48 4) (a.p 56 8) rows (fun _ => false) (some a.cmd.cid) with
      | none => fail s a.cmd.cid stNoSpace
      | some (s, k, whole) => if whole then finish s a.cmd.cid r else writeTierFail a s k
    | _ => finish s a.cmd.cid r

/-- R145, R363: GATHER of whole row records of the pinned version; outside the rights a table of zero-length rows. -/
def execGather (cid : Nat) (s : State) : Out := withCmd s cid 0x402 (fun a =>
  let toid := a.p 32 4
  let roid := a.p 40 4
  let n := a.p 44 4
  let hasDst := a.p 48 4 != 0
  let tt := target s a toid
  let tr := target s a roid
  let td := target s a (a.p 48 4)
  let s := countForeign s a (tt.isForeign || tr.isForeign || (hasDst && td.noWrite))
  if tt.isMissing || tr.isMissing || (hasDst && td.isMissing) then fail s cid stNoObject
  else if tt.bad (fun o => !o.isTable) || tr.bad (fun o => !o.isData || beyond a roid o 0 (8 * n)) ||
      (hasDst && !td.noWrite && td.bad (fun o => !o.isData)) then fail s cid stInvalidParam
  else
    let rs := rowNumbers a roid tr 0 n
    match tt.obj? with
    | none => gatherEnd s a [] 0 td
    | some o =>
      match tblOf o with
      | none => fail s cid stInvalidParam
      | some t =>
        if rs.any (fun r => decide (t.rows ≤ r)) ||
            (hasDst && !td.noWrite && td.bad (fun d => beyond a (a.p 48 4) d (a.p 56 8) (n * t.rowBytes))) then fail s cid stInvalidParam
        else if !hasDst && (a.cmd.resultLen < n * t.rowBytes || a.cmd.resultAddr == 0) then fail s cid stInvalidParam
        else if readFails .any a roid tr 0 (8 * n) || rs.any (rowBad .any a toid o t) then
          readFailed s a (readFails .lost a roid tr 0 (8 * n) || rs.any (rowBad .lost a toid o t))
        else
          let m := pinnedBytes a toid o
          let s := rs.foldl (fun s r => touchRange s toid (pinnedVer a toid) (t.rowOff r) t.rowBytes) s
          gatherEnd (chargeNear s a.fn (n * t.rowBytes)) a (rs.flatMap (fun r => m.readBytes (t.rowOff r) t.rowBytes)) (pinnedVer a toid) td)

/-- The row update of an own table (R379-R382). -/
def updateTable (s : State) (a : Adm) (o : Obj) (t : Tbl) (tg : Target) : State :=
  let cid := a.cmd.cid
  let oid := a.p 32 4
  let goid := a.p 36 4
  let n := a.p 40 4
  let lr : Word := BitVec.ofNat 32 (a.p 44 4)
  let len := n * t.gradBytes
  if tg.bad (fun x => beyond a goid x 0 len) || !isFinite32 lr then fail s cid stInvalidParam
  else if readFails .any a goid tg 0 len then readFailed s a (readFails .lost a goid tg 0 len)
  else
    let data := readTarget a goid tg 0 len
    let gs := t.grads data n
    if gs.any (fun g => decide (t.rows ≤ g.1) || g.2.any (fun x => !isFinite32 x)) then fail s cid stInvalidParam
    else
      let ada := a.p 48 1 == 1
      let e := (editOf o o.tip).updateRows t data n lr ada
      let k := (sumGrads t.cols gs).length
      let bad (m : Bad) : Bool := (sumGrads t.cols gs).any (fun g => rangeBad m o o.tip (t.rowOff g.1) t.rowBytes) || editFails m o o.tip e
      if bad .any then readFailed s a (bad .lost)
      else
        let s' := commitEdit (chargeNear s a.fn (2 * k * t.rowBytes)) a oid o e (.rows data n lr ada) k
        if (findAdm s' cid).any (fun b => b.switch.isSome) then
          { s' with reeds := { s'.reeds with updates := satAdd s'.reeds.updates 1, rows := satAdd s'.reeds.rows k } }
        else s'

/-- R379-R382: ROW_UPDATE, in its turn among the table's updates. -/
def execRowUpdate (cid : Nat) (s : State) : Out := withCmd s cid 0x404 (fun a =>
  let oid := a.p 32 4
  let ti := target s a oid
  let tg := target s a (a.p 36 4)
  if !mutationTurn s a oid then s
  else
    let s := countForeign s a (ti.noWrite || tg.isForeign)
    if ti.isMissing || tg.isMissing then fail s cid stNoObject
    else if ti.bad (fun o => !o.isTable) || tg.bad (fun o => !o.isData) then fail s cid stInvalidParam
    else match ti with
      | .own o =>
        match tblOf o with
        | some t => updateTable s a o t tg
        | none => fail s cid stInvalidParam
      | _ => finish s cid {})

/-- Stacks that hold channels of a function's set (R364). -/
def stacksOf (s : State) (f : Nat) : Nat := ((channelSet s f).map (· / 32)).eraseDups.length

/-- A hot-row set with its copies of each row: a row listed again counts once; one copy is no replication (R364). -/
def hotSet (s : State) (f : Nat) (rows : List Nat) (copies : Nat) : List (Nat × Nat) :=
  let n := min copies (stacksOf s f)
  if n ≤ 1 then [] else rows.eraseDups.map (fun r => (r, n))

/-- Whether a hot-row set fits the near tier and the function's near limit (R364). -/
def hotFits (s : State) (f oid : Nat) (o : Obj) (hot : List (Nat × Nat)) : Bool :=
  let s := putObj s oid { o with hotRows := hot }
  let lim := (fnOf s f).nearLimit.toNat
  nearUsed s ≤ nearTotal && (lim == 0 || chargedNear s f ≤ lim)

/-- R364: HOT_ROWS_SET. -/
def execHotRowsSet (cid : Nat) (s : State) : Out := withCmd s cid 0x405 (fun a =>
  let oid := a.p 32 4
  let roid := a.p 36 4
  let n := a.p 40 4
  let ti := target s a oid
  let tr := target s a roid
  let s := countForeign s a (ti.noWrite || tr.isForeign)
  if ti.isMissing || tr.isMissing then fail s cid stNoObject
  else if ti.bad (fun o => !o.isTable) || tr.bad (fun o => !o.isData || beyond a roid o 0 (8 * n)) then fail s cid stInvalidParam
  else
    let rs := rowNumbers a roid tr 0 n
    match ti with
    | .own o =>
      if rs.any (fun r => (tblOf o).any (fun t => decide (t.rows ≤ r))) then fail s cid stInvalidParam
      else if readFails .any a roid tr 0 (8 * n) then readFailed s a (readFails .lost a roid tr 0 (8 * n))
      else
        let hot := hotSet s a.fn rs (a.p 44 1)
        if hotFits s a.fn oid o hot then finish (updObj s oid (fun o => { o with hotRows := hot })) cid {}
        else fail s cid stNoSpace
    | _ => finish s cid {})

end Sys2Proof.Machine
end

