-- ==== Sys2Proof/Machine/Pcie.lean ====
section
/-! DEFINITION. The PCIe endpoint: link, functions, resets short of a device reset, configuration, DOE and SPDM
(R77-R98, R482, R505-R507). -/

namespace Sys2Proof.Machine
open Sys2Proof

/-! ### Ends of a function's work (R94) -/

/-- Step 2 of R94: every request of f ends, fabric requesters and the other members of its collectives receiving NO_OBJECT (R414); pins go and versions are freed. -/
def endRequests (s : State) (f : Nat) : State :=
  let told := (s.sched.admitted.filter (fun a => a.cmd.fn == f)).map (·.cmd) ++ (fnOf s f).fabQ
  let gone := (s.sched.admitted.filter (fun a => a.cmd.fn == f)).map (·.cmd.cid)
  let s := told.foldl (fun s c => match c.origin with
    | .fabric src ctx => sendReply s src f ctx (.bare stNoObject)
    | _ => s) s
  let s := (s.fabric.colls.filter (fun c => c.fn == f && c.begun && decide (c.kind ≤ 4))).foldl (fun s c => tellMembers s c stNoObject) s
  let s := updFn s f (fun x => { x with hostQ := [], fabQ := [], waiting := [], inflight := 0 })
  let s := leaveWindows s gone
  freeAll { s with
    sched := { s.sched with admitted := s.sched.admitted.filter (fun a => a.cmd.fn != f) }
    stk := { s.stk with
      sequences := s.stk.sequences.filter (fun q => !gone.contains q.cid)
      chans := s.stk.chans.map (fun e => (e.1, { e.2 with queue := e.2.queue.filter (fun g => g.fn != f) })) }
    fabric := { s.fabric with
      colls := s.fabric.colls.filter (fun c => c.fn != f), late := s.fabric.late.filter (fun l => l.1 != f)
      streams := s.fabric.streams.filter (fun c => c.fn != f)
      inbox := s.fabric.inbox.filter (fun c => c.fn != f)
      retained := s.fabric.retained.filter (fun r => r.fn != f || r.kind == 2 || (r.kind == 3 && (match r.em with
        | .packet _ _ _ _ _ _ _ _ _ _ _ data => field data 0 1 == 255
        | _ => false))) }
    reeds := { s.reeds with reeds := s.reeds.reeds.map (fun e => (e.1, { e.2 with
      queue := e.2.queue.filter (fun d => d.fn != f), running := e.2.running.filter (fun d => d.fn != f) })) } }

/-- Step 3 of R94: f's programs are told to stop at their next step boundary, 10 ms from now at the latest (R304). -/
def stopPrograms (s : State) (f : Nat) : State :=
  { s with prog := { s.prog with instances := s.prog.instances.map (fun e =>
      if e.2.fn = f then (e.1, { e.2 with stopping := true, stopBy := if e.2.stopping then e.2.stopBy else now s + 1000000 }) else e) } }

/-- What is left of f's programs, array work and knots goes, without an exit record (R94, R304). -/
def dropPrograms (s : State) (f : Nat) : State :=
  let mine := (s.prog.instances.filter (fun e => e.2.fn == f)).map (·.1)
  let s := (s.looms.looms.map (·.1)).foldl (fun s l => dropDescs s l (fun d => d.fn != f || d.pick.isSome)) s
  { s with
    prog := { s.prog with
      instances := s.prog.instances.filter (fun e => e.2.fn != f)
      shuttles := s.prog.shuttles.filter (fun e => !mine.contains e.2.inst)
      knots := s.prog.knots.filter (fun e => e.2.fn != f) } }

/-- Step 4 of R94: every object of f is destroyed and its pins are gone, those that the flash still keeps for a later stage 8
too (R96). -/
def destroyAll (s : State) (f : Nat) : State :=
  let s := (s.space.objs.filter (fun e => e.2.fn == f && !e.2.destroyed)).foldl (fun s e => destroyObj s e.1) s
  { s with boot := { s.boot with
    directory := s.boot.directory.filter (fun e => e.2.fn != f), dormantImage := s.boot.dormantImage.filter (fun e => e.2.fn != f) } }

/-- The end of a function-level reset (step 5 of R94): host-side state and the function's keys, energy and serials at
their reset values, LAST_RESET 3 whatever it was meanwhile (DESIGN CHOICE, log entry 107), READY 1 where the node is in
service. -/
def flrFinish (s : State) (f : Nat) : State :=
  let s := freeAll (eraseObjects (dropPrograms s f) f)
  let s := if f = 0 then { s with link := clearLinkCfg s.link } else s
  updFn s f (fun x => { hostSideReset x lrFlr with
    flr := false, kek := none, txKey := none, rxKeys := [], energyNj := 0, objSerial := 0, instSerial := 0
    ready := s.boot.serviceReady || s.boot.kindlingBolt.isSome })

/-- Every function-level reset in progress completes before a hot reset or link down applies (R96). -/
def flrFinishAll (s : State) : State :=
  (s.fns.filter (fun e => e.2.flr)).foldl (fun s e => flrFinish s e.1) s

/-! ### Rows -/

/-- R92, R93: link down acts on every function; the endpoint retrains. -/
def execLinkDown (s : State) : Out :=
  if s.link.up then
    let s := hotResetAll (flrFinishAll s) lrLinkDown
    .next { s with link := { s.link with up := false, training := true, l1 := false, downs24 := Hours.add s.link.downs24 } }
  else .next s

/-- R93: an in-band hot reset acts on every function; the endpoint retrains (R493). -/
def execHotReset (s : State) : Out :=
  if s.link.up then
    let s := hotResetAll (flrFinishAll s) lrHot
    .next { s with link := { s.link with up := false, training := true, l1 := false } }
  else .next s

/-- R94, R95: a function-level reset begins: READY 0, requests ended, programs told to stop, objects destroyed; of
function 0 it also clears VF Enable. A second one during the first is ignored (R96). -/
def execFunctionLevelReset (f : Fn) (s : State) : Out :=
  if exists' s f && !(fnOf s f).flr then
    let s := if f = 0 then vfOff s else s
    let s := updFn s f (fun x => { x with flr := true })
    .next (destroyAll (stopPrograms (endRequests s f) f) f)
  else .next s

/-- R94: the function-level reset ends. -/
def execFlrComplete (f : Fn) (s : State) : Out :=
  if (fnOf s f).flr then .next (flrFinish s f) else .next s

/-- R81: a write that sets VF Enable. -/
def execVfEnable (s : State) : Out := .next (vfOn s)

/-- R82: a write that clears VF Enable. -/
def execVfDisable (s : State) : Out := .next (vfOff s)

/-- R97: a write of PowerState. -/
def execPowerStateWrite (f : Fn) (v : BitVec 2) (s : State) : Out :=
  if exists' s f then .next (setPower s f v.toNat) else .next s

/-- R98: the link enters L1 when software has enabled it. -/
def execL1Entry (s : State) : Out :=
  if s.link.up && s.link.aspmL1 then .next { s with link := { s.link with l1 := true } } else .next s

/-- A read of the mailbox takes the response object out of it (R90). -/
def takeDoe (s s' : State) (f : Nat) : State :=
  match (fnOf s f).doe with
  | some bs => emit (updFn s' f (fun x => { x with doe := none })) (.doe f 0 bs)
  | none => s'

/-- R482: until stage 3 ends a configuration request is answered with Request Retry Status, then normally. -/
def execConfigRequest (f : Fn) (acc : CfgAccess) (s : State) : Out :=
  if !s.link.up || !exists' s f then .next s
  else if !s.boot.stages.contains 3 then .next (emit s (.config f none))
  else match acc with
    | .read fld =>
      let s' := emit s (.config f (some (cfgRead s f fld)))
      .next (if fld = .doeData then takeDoe s s' f else s')
    | .write fld v => .next (cfgWrite s f v fld)

/-- R91: a poisoned write is discarded and logged; other errors the endpoint meets as a receiver are logged, recovery being
the link's. -/
def execPoisonedTlp (f : Fn) (err : LinkError) (s : State) : Out :=
  if exists' s f then .next (match linkErrorBit err with
    | .inl b => logUncorrectable s f b
    | .inr b => logCorrectable s f b)
  else .next s

/-- The answer of DOE Discovery to an index (R90): vendor 1, the protocol (0 discovery, 1 CMA/SPDM), the next index. -/
def doeDiscovery (index : Nat) : List Byte :=
  if index = 0 then toLE 2 1 ++ [0, 1] else if index = 1 then toLE 2 1 ++ [1, 0] else toLE 2 0xFFFF ++ [0, 0]

/-- R90: a DOE request object is answered into the mailbox, one at a time; one longer than 64 KiB sets DOE Error and is
discarded. -/
def execDoeRequest (f : Fn) (len : Nat) (s : State) (obj : DoeObject := .cma) : Out :=
  if !exists' s f || (fnOf s f).doe.isSome then .next s
  else if 65536 < len then .next (updFn s f (fun x => { x with doeError := true }))
  else match obj with
    | .discovery index => .next (updFn s f (fun x => { x with doe := some (doeDiscovery index) }))
    | .cma => .next (updFn (freshen s) f (fun x => { x with doe := some (Config.spdmAnswer s.fresh) }))

/-- R90: DOE Abort drops the object in the mailbox and clears DOE Error. -/
def execDoeAbort (f : Fn) (s : State) : Out :=
  if exists' s f then .next (updFn s f (fun x => { x with doeError := false, doe := none })) else .next s

/-- The raw measurement blocks 3, 4 and 6 of R507, as they stand; the digests are a free value behind them. -/
def measured (s : State) (f : Nat) : List Byte :=
  let x := fnOf s f
  let bolts := x.bolts.foldl (fun n b => n + 2 ^ b) 0
  let stks := x.dedStacks.foldl (fun n b => n + 2 ^ b) 0
  toLE 4 s.glaesh.fwVersion.toNat ++ toLE 4 s.glaesh.fwSvn.toNat ++ toLE 4 s.glaesh.minSvn.toNat ++
  toLE 8 (s.boot.cause.toNat + 2 ^ 8 * b2n s.boot.kindling + 2 ^ 12 * s.boot.slotRun.toNat + 2 ^ 16 * b2n s.boot.trialFailed +
    2 ^ 24 * s.boot.failCount.toNat + 2 ^ 36 * s.boot.failStage.toNat) ++
  toLE 8 (s.boot.strapCode.toNat + 2 ^ 4 * b2n s.boot.strapOpen + 2 ^ 5 * b2n s.boot.strapShort + 2 ^ 6 * b2n s.boot.strapRsvd +
    2 ^ 16 * s.boot.strapRaw.toNat) ++
  toLE 1 (b2n x.isSealed) ++ toLE 2 bolts ++ toLE 4 stks ++ toLE 1 x.shaper.toNat

/-- R505, R507: a standard SPDM request: signed responses are remembered for `GET_PQ_SIG`, KEY_EXCHANGE and FINISH open
the function's one secured session, END_SESSION closes it. -/
def execSpdmRequest (f : Fn) (req : SpdmReq) (s : State) : Out :=
  if !exists' s f then .next s
  else
    let n := s.fresh
    let bytes := Config.spdmAnswer n
    let s := freshen s
    match req with
    | .challenge => .next (emit (updFn s f (fun x => { x with lastSigned := some n })) (.doe f 0 bytes))
    | .measurements true =>
      .next (emit (updFn s f (fun x => { x with lastSigned := some n })) (.doe f 0 (measured s f ++ bytes)))
    | .measurements false => .next (emit s (.doe f 0 (measured s f ++ bytes)))
    | .keyExchange =>
      if (fnOf s f).session then .next (emit s (.doe f 2 []))
      else .next (emit (updFn s f (fun x => { x with handshake := true })) (.doe f 0 bytes))
    | .finish =>
      if (fnOf s f).handshake then
        .next (emit (updFn s f (fun x => { x with handshake := false, session := true })) (.doe f 0 bytes))
      else .next (emit s (.doe f 1 []))
    | .endSession => .next (emit (updFn s f (fun x => { x with session := false, handshake := false })) (.doe f 0 bytes))
    | .other _ => .next (emit s (.doe f 0 bytes))

/-- R506: part of the SLH-DSA chain, at most 1,024 bytes of it. -/
def execGetPqCert (f : Fn) (offset length : Nat) (s : State) : Out :=
  if !exists' s f then .next s
  else if 1024 < length then .next (emit s (.doe f 2 []))
  else .next (emit s (.doe f 0 ((Config.pqChain.drop offset).take length)))

/-- R506: the SLH-DSA signature over what the last signed response covered; an error where none was signed. -/
def execGetPqSig (f : Fn) (s : State) : Out :=
  if !exists' s f then .next s
  else match (fnOf s f).lastSigned with
    | some n => .next (emit s (.doe f 0 (Config.pqSignature n)))
    | none => .next (emit s (.doe f 2 []))

/-- R506: `SET_KEK` in the function's own secured session installs its wrapping key. -/
def execSetKek (f : Fn) (secured : Bool) (key : BitVec 256) (s : State) : Out :=
  if !exists' s f then .next s
  else if secured && (fnOf s f).session then
    .next (emit (updFn s f (fun x => { x with kek := some key })) (.doe f 0 []))
  else .next (emit s (.doe f 1 []))

/-- R506: `SET_COMPOSITION_KEY` in a secured session on function 0. -/
def execSetCompositionKey (f : Fn) (secured : Bool) (key : BitVec 256) (s : State) : Out :=
  if !exists' s f then .next s
  else if f ≠ 0 then .next (emit s (.doe f 2 []))
  else if secured && (fnOf s 0).session then
    .next (emit (newKey { s with glaesh := { s.glaesh with compKey := some key } } compKeyFn 0) (.doe 0 0 []))
  else .next (emit s (.doe 0 1 []))

/-- R506: `SET_NODE_KEY` in a secured session on function 0. -/
def execSetNodeKey (f : Fn) (secured : Bool) (key : BitVec 256) (s : State) : Out :=
  if !exists' s f then .next s
  else if f ≠ 0 then .next (emit s (.doe f 2 []))
  else if secured && (fnOf s 0).session then
    .next (emit (newKey { s with glaesh := { s.glaesh with nodeKey := some key } } nodeKeyFn 0) (.doe 0 0 []))
  else .next (emit s (.doe 0 1 []))

/-- R54, R77, R92, R479: the trained link comes up at no more than the strap's rate, in flit mode at 64 GT/s and above and below
where the partner supports it; pending interrupts leave. -/
def execPcieLinkUp (rate width : Nat) (s : State) (partnerFlit : Bool := false) : Out :=
  if s.link.training && s.link.refclk then
    let r := min rate (strapRate s.boot)
    let s := { s with link := { s.link with
      up := true, training := false, rate := r, width := width, flit := decide (6 ≤ r) || partnerFlit } }
    .next ((s.fns.map (·.1)).foldl flushPba s)
  else .next s

end Sys2Proof.Machine
end

