-- ==== Sys2Proof/Machine/Window.lean ====
section
/-! DEFINITION. The command window, the reply ring and feature negotiation (R84, R99-R123), and interrupt coalescing
(R89). -/

namespace Sys2Proof.Machine
open Sys2Proof

/-! ### The command window -/

/-- A slot's record (R100). -/
def slotOf (s : State) (f k : Nat) : Slot := AMap.getD (fnOf s f).window k {}

/-- A slot changed. -/
def updSlot (s : State) (f k : Nat) (g : Slot → Slot) : State :=
  updFn s f (fun x => { x with window := AMap.insert x.window k (g (AMap.getD x.window k {})) })

/-- Dwords that a write of n bytes at a slot offset covers whole (R100). -/
def wholeDwords (off n : Nat) : List Nat :=
  (List.range 128).filter (fun d => decide (off ≤ 4 * d) && decide (4 * d + 4 ≤ off + n))

/-- The slot after an accepted write: whole dwords stored and recorded; a header with LENGTH 0 clears the record (R102). -/
def slotWrite (x : Slot) (off : Nat) (bs : List Byte) : Slot :=
  let ds := wholeDwords off bs.length
  let x := ds.foldl (fun x d => { x with
    bytes := x.bytes.write (4 * d) (slice bs (4 * d - off) 4)
    written := x.written ||| (1#128 <<< d) }) x
  if ds.contains 0 && x.bytes.nat 2 2 == 0 then { x with written := 0 } else x

/-- The length of the packet a slot commits (R101); none while the conditions do not hold together. -/
def slotReady (x : Slot) : Option Nat :=
  let n := x.bytes.nat 2 2
  if 64 ≤ n && n ≤ 512 && n % 32 == 0 && (List.range (n / 4)).all (fun d => x.written.getLsbD d) &&
    x.bytes.nat (n - 16) 2 == n && x.bytes.nat (n - 4) 4 == 0xC0A15EED then some n else none

/-- A packet commits: its bytes are copied, its deadline runs (R101, R103, R110); a committed command wakes a Banked
node (R471). -/
def commitSlot (s : State) (f k n : Nat) : State :=
  let x := slotOf s f k
  let pkt := x.bytes.readBytes 0 n
  let us := field pkt 8 4
  let c : Cmd := {
    cid := s.sched.nextCid, fn := f, origin := .host k, packet := pkt, commit := now s
    deadline := if us = 0 then none else some (now s + 100 * us) }
  let s := updSlot s f k (fun x => { x with busy := true })
  let s := updFn s f (fun x => { x with hostQ := x.hostQ ++ [c], inflight := x.inflight + 1 })
  { s with
    sched := { s.sched with nextCid := s.sched.nextCid + 1 }
    service := { s.service with mode := if s.service.mode = .banked then .leavingBanked else s.service.mode } }

/-- One slot's part of a window write (R100). -/
def windowPart (s : State) (f k off : Nat) (bs : List Byte) : State :=
  let x := fnOf s f
  if bs.isEmpty then s
  else if (slotOf s f k).busy || !x.ringEn || !x.ready then
    updFn s f (fun x => { x with cwDiscard := satAdd x.cwDiscard 1 })
  else
    let s := updSlot s f k (fun y => slotWrite y off bs)
    match slotReady (slotOf s f k) with
    | some n => commitSlot s f k n
    | none => s

/-- R100-R103: a write to the command window, taken slot by slot. -/
def execCommandWindowWrite (f : Fn) (offset : Nat) (data : List Byte) (s : State) : Out :=
  if !barLive s f then .next s
  else
    let stop := min 131072 (offset + data.length)
    .next ((List.range 256).foldl (fun s k =>
      let lo := max offset (512 * k)
      let hi := min stop (512 * k + 512)
      if lo < hi then windowPart s f k (lo - 512 * k) (slice data (lo - offset) (hi - lo)) else s) s)

/-! ### The reply ring -/

/-- A write of RING_CTL (R111, R112). -/
def writeRingCtl (x : FnState) (v : Nat) : FnState :=
  let en := bit v 0
  if x.ringEn then (if !en && x.inflight == 0 then { x with ringEn := false } else x)
  else
    let k := bits v 12 8
    let x := { x with ringLog2 := BitVec.ofNat 5 k }
    if en && 9 ≤ k && k ≤ 16 then { x with ringEn := true, ringHead := 0, ringTail := 0 } else x

/-- A write of RING_HEAD takes effect where TAIL - HEAD stays within the ring (R112). -/
def writeRingHead (x : FnState) (v : BitVec 32) : FnState :=
  if (x.ringTail - v).toNat ≤ 2 ^ x.ringLog2.toNat then { x with ringHead := v } else x

/-- R112: a write of RING_CTL that sets EN. -/
def execRingEnable (f : Fn) (value : BitVec 32) (s : State) : Out :=
  if barLive s f then .next (updFn s f (fun x => writeRingCtl x value.toNat)) else .next s

/-- R112: a write of RING_CTL that clears EN. -/
def execRingDisable (f : Fn) (value : BitVec 32) (s : State) : Out :=
  if barLive s f then .next (updFn s f (fun x => writeRingCtl x value.toNat)) else .next s

/-- R112: a write of RING_HEAD. -/
def execRingHeadWrite (f : Fn) (value : BitVec 32) (s : State) : Out :=
  if barLive s f then .next (updFn s f (fun x => writeRingHead x value)) else .next s

/-- Whether the ring has room for a record (R113). -/
def ringRoom (x : FnState) : Bool := x.ringEn && decide ((x.ringTail - x.ringHead).toNat < 2 ^ x.ringLog2.toNat)

/-- The address of the record TAIL names and its PHASE (R113, R114). -/
def ringSlot (x : FnState) : Nat × Nat :=
  let n := 2 ^ x.ringLog2.toNat
  (4096 * x.ringBase.toNat + x.ringTail.toNat % n * 32, (x.ringTail.toNat / n + 1) % 2)

/-- A record is written at TAIL as one 32-byte write (R113). -/
def writeRecord (s : State) (f : Nat) (fields : List (Nat × Nat × Nat)) (kind : Nat) : State :=
  let x := fnOf s f
  let (addr, ph) := ringSlot x
  let s := emit s (.dma f addr (lay 32 (fields ++ [(31, 1, 128 * ph + kind)])) false)
  chargePcie (updFn s f (fun x => { x with ringTail := x.ringTail + 1 })) f 32

/-- R490: KINDLING_EXIT restarts the node once its record, of this slot, is written or has been dropped. -/
def exitKindling (s : State) (slot : Option Nat) : State :=
  if s.boot.exitPending.isSome && (slot.isNone || s.boot.exitPending == slot) then deviceReset s 6 else s

/-- R113, R115: the next waiting record is written, its slot released, and vector 0 fires by R89. -/
def execReplyRecordWrite (f : Fn) (s : State) : Out :=
  let x := fnOf s f
  match x.waiting with
  | [] => .next (if s.sched.admitted.isEmpty then exitKindling s none else s)
  | w :: rest =>
    if !ringRoom x then .next s
    else
      let r := w.res
      let s := updFn s f (fun x => { x with waiting := rest, inflight := x.inflight - 1 })
      let s := writeRecord s f [(0, 2, w.slot), (2, 1, r.status.toNat), (3, 1, r.rflags.toNat), (4, 4, w.cookie.toNat),
        (8, 4, r.count.toNat), (12, 4, r.invalid.toNat), (16, 4, r.version.toNat), (20, 4, r.value.toNat),
        (24, 4, w.elapsed.toNat)] 0
      let s := updSlot s f w.slot (fun y => { y with busy := false, written := 0 })
      .next (exitKindling (recordWritten s f w.irqNow) (some w.slot))

/-- R116, R520: the oldest held event is written with the count of those not posted, and vector 1 fires (R88). -/
def execEventRecordWrite (f : Fn) (s : State) : Out :=
  let x := fnOf s f
  match x.events with
  | [] => .next s
  | e :: rest =>
    if !ringRoom x then .next s
    else
      let lost := x.eventsLost
      let s := updFn s f (fun x => { x with events := rest, eventsLost := 0 })
      let s := writeRecord s f [(0, 2, 0xFFFF), (2, 1, e.code.toNat), (4, 4, lost.toNat), (8, 4, e.arg0.toNat),
        (12, 4, e.arg1.toNat), (16, 8, e.arg2.toNat)] 1
      .next (raise s f 1)

/-- R89: MAX_DELAY has passed since the oldest unannounced record: vector 0 fires. -/
def execCoalesceTimeout (f : Fn) (s : State) : Out :=
  let x := fnOf s f
  if x.unannounced = 0 then .next s else .next (announce (advanceTo s x.announceBy) f)

/-- R89: the vector's mask bit is cleared, and its pending message leaves. -/
def execMsixUnmask (f : Fn) (vector : Nat) (s : State) : Out :=
  if !barLive s f || 8 ≤ vector then .next s
  else .next (flushPba (updFn s f (fun x => { x with
    msix := AMap.insert x.msix vector { AMap.getD x.msix vector {} with masked := false } })) f)

/-! ### Features -/

/-- Whether a bit's dependencies are in the set (R123). -/
def featDeps (m : BitVec 128) (b : Nat) : Bool :=
  let has (i : Nat) : Bool := m.getLsbD i
  match b with
  | 2 | 4 => has 0 || has 1
  | 3 | 7 | 8 => has 0
  | 10 => has 9 && has 17
  | 11 | 12 => has 9
  | 13 | 15 => has 14
  | 17 | 18 | 27 | 31 => has 16
  | 21 => has 20
  | 25 => has 24
  | 30 => has 27
  | _ => true

/-- One round of removals (R121). -/
def featRound (m : BitVec 128) : BitVec 128 :=
  (List.range 32).foldl (fun acc b => if m.getLsbD b && featDeps m b then acc ||| (1#128 <<< b) else acc) 0

/-- The active set: rounds until no bit is removed; chains of dependencies are at most four long (R121). -/
def featClose (m : BitVec 128) : BitVec 128 := featRound (featRound (featRound (featRound m)))

/-- A write of 1 to APPLY (R121). -/
def applyFeatures (kindling : Bool) (f : Nat) (x : FnState) : FnState :=
  if x.locked || x.inflight ≠ 0 then { x with rejected := true }
  else { x with featActive := featClose (x.featAccept &&& featOffer kindling f), locked := true, rejected := false }

/-- R121: a write of 1 to FEAT_CTL.APPLY. -/
def execApply (f : Fn) (s : State) : Out :=
  if barLive s f then .next (updFn s f (applyFeatures s.boot.kindling f)) else .next s

end Sys2Proof.Machine
end

