-- ==== Sys2Proof/Machine/Admission.lean ====
section
/-! DEFINITION. Admission, deadlines and completion of commands (R44, R107-R110, R115, R118, R250, R252, R435-R443,
R450). -/

namespace Sys2Proof.Machine
open Sys2Proof

/-- R435-R443, R107, R169: one admission decision: the candidate of the lowest start tag is admitted. -/
def execCommandAdmit (s : State) : Out :=
  let s := wakeAll s
  match chosen s with
  | none => .next s
  | some f =>
    match candidate s f with
    | none => .next s
    | some (c, host) => .next (wakeAll (enterPool (chargeAdmission (dequeue s f host) f c) c))

/-- What the counters take of a search's reply: searches, short, partial, widened (R334). A batch counts its blocks; where it ends
as a whole with another status, each of its queries with that status. -/
def searchTally (c : Cmd) (r : Result) : List (Byte × Byte) :=
  if c.opcode = 0x206 then [(r.status, r.rflags)]
  else if c.opcode = 0x207 then
    let w := 16 + 24 * c.p 40 4
    if r.data.isEmpty then List.replicate (c.p 96 4) (r.status, r.rflags)
    else (List.range (r.data.length / w)).map (fun i => (r.data.getD (w * i) 0, r.data.getD (w * i + 1) 0))
  else []

/-- The counters of searches and rankings at a command's end (R334, R386). -/
def countEnd (s : State) (c : Cmd) (r : Result) : State :=
  let q := searchTally c r
  let rank := b2n (c.opcode == 0x403)
  { s with reeds := { s.reeds with
    searches := satAdd s.reeds.searches q.length
    shorts := satAdd s.reeds.shorts (q.countP (fun e => e.1 == stShort))
    partials := satAdd s.reeds.partials (q.countP (fun e => e.1 == stPartial))
    widened := satAdd s.reeds.widened (q.countP (fun e => e.2 &&& rfWidened != 0))
    ranks := satAdd s.reeds.ranks rank
    stale := satAdd s.reeds.stale (rank * b2n (r.rflags &&& rfStale != 0)) } }

/-- Microseconds from commit, saturating (R115). -/
def elapsed (s : State) (c : Cmd) : BitVec 32 := satAdd 0 ((now s - c.commit) / 100)

/-- The reply of a command whose work has ended: its result data at once, its record in completion order (R89, R113,
R115); a carried command's Reply goes to its issuer (R149); one without an owed record leaves none (R93). -/
def replyTo (s : State) (c : Cmd) (r : Result) : State :=
  match c.origin with
  | .host slot =>
    let s := if r.data.isEmpty then s else chargePcie (emit s (.dma c.fn c.resultAddr r.data (fnOf s c.fn).cfg.relaxed)) c.fn r.data.length
    updFn s c.fn (fun x => { x with waiting := x.waiting ++ [⟨c.cid, slot, c.cookie, c.irqNow, c.fence, elapsed s c, r⟩] })
  | .fabric src ctx => sendReply s src c.fn ctx r
  | .silent => s

/-- What every end of a command does: counters, the trigger of an INTERNAL end (R522), the reply. -/
def endCommand (s : State) (c : Cmd) (r : Result) : State :=
  let s := countEnd s c r
  let s := if r.status = stInternal then causeSnap s 1 else s
  replyTo s c r

/-- R438: a waiting command whose deadline passes leaves its queue, with its earlier outcome of R118 or DEADLINE. -/
def execQueuedDeadline (cid : Nat) (s : State) : Out :=
  match s.fns.findSome? (fun e => (e.2.hostQ ++ e.2.fabQ).find? (fun c => c.cid == cid)) with
  | none => .next s
  | some c =>
    match c.deadline with
    | none => .next s
    | some d =>
      let s := advanceTo s d
      let st := (stepsOneTwo s c (featuresFor s c.fn c.origin)).getD stDeadline
      let s := updFn s c.fn (fun x => { x with
        hostQ := x.hostQ.filter (fun y => y.cid != cid), fabQ := x.fabQ.filter (fun y => y.cid != cid) })
      .next (endCommand s c (.bare st))

/-- What a command waits in is given up: its windows, its part of a collective or a ranking reduce, the reply packets
that have come (R250, R406). -/
def stopWaiting (s : State) (cid : Nat) : State :=
  let s := leaveWindows s [cid]
  { s with fabric := { s.fabric with
      colls := s.fabric.colls.filter (fun c => c.cid != some cid)
      inbox := s.fabric.inbox.filter (fun b => !(b.kind == 2 && b.ctx == cid % 2 ^ 32)) } }

/-- Whether a selection's source is there to be consumed (items 1 and 2 of R131). -/
def selectBad (s : State) (a : Adm) : Bool :=
  let t := target s a (a.p 32 4)
  t.isMissing || t.bad (fun o => !o.isData || beyond a (a.p 32 4) o (a.p 40 8) (a.p 48 4 * selectWidth a.cmd.opcode))

/-- The result of a command ended by its deadline, and the keys its reeds had accepted (R44, R322, R355, R357); none where the deadline no longer ends it. -/
def deadlineResult (s : State) (a : Adm) (consumed : List Nat) : Option (Result × Nat) :=
  match a.cmd.opcode with
  | 0x206 => searchDeadline s a false consumed
  | 0x207 => searchDeadline s a true consumed
  | 0x300 | 0x301 | 0x302 => some (if selectBad s a then (.bare stDeadline, 0) else selectEnded s a stDeadline consumed)
  | _ => some (.bare stDeadline, 0)

/-- Whether a command names a target outside its function's rights, for reading or, as a destination, for writing (R130). -/
def meetsForeign (s : State) (a : Adm) : Bool :=
  (namedObjects a.cmd).any (fun e => (target s a e.1).isForeign) ||
  (a.cmd.opcode == 0x402 && a.p 48 4 != 0 && (target s a (a.p 48 4)).noWrite) ||
  (a.cmd.opcode == 0x602 && a.p 44 4 != 0 && (target s a (a.p 44 4)).noWrite)

/-- R44, R110, R126: the deadline of an admitted command that changes no object passes while it works or waits. -/
def execDeadlineExpire (cid : Nat) (consumed : List Nat) (s : State) : Out :=
  match findAdm s cid with
  | none => .next s
  | some a =>
    match a.cmd.deadline with
    | none => .next s
    | some d =>
      if a.isDone || objChanging a.cmd a.carried then .next s
      else
        let s := advanceTo s d
        match deadlineResult s a consumed with
        | none => .next s
        | some (r, keys) => .next (stopWaiting (finish (countForeign (countKeys s a.fn keys) a (a.phase == .running && meetsForeign s a)) cid r) cid)

/-- The version a command owes becomes current (R39), and a grant or revocation takes effect (R137). The command's completion, or
VERSION_SWITCH before it, is the step boundary of the service plan that R39 names (DESIGN CHOICE, log entry 104). -/
def settle (s : State) (a : Adm) (r : Result) : State :=
  let s := match a.switch with
    | some n => switchTo s a.switchObj n
    | none => s
  if r.status = stOk then applyGrant s a else s

/-- The slot that FW_STAGE and FW_COMMIT write (R487, R499). -/
def stageSlot (s : State) : Nat :=
  if s.boot.kindling then
    (match s.boot.lastGood with
     | some 0 => 1
     | some _ => 0
     | none => 0)
  else if s.boot.slotRun = 0 then 1 else 0

/-- What the completion of a command brings to the whole node (R471, R490, R493): Banked is entered, and left at once where a
command has come meanwhile; an image that FW_COMMIT has verified becomes the trial image; KINDLING_EXIT restarts the node once its
record is written, or now where none is owed. -/
def nodeEnds (s : State) (c : Cmd) (r : Result) : State :=
  if c.opcode = 0x801 && r.status = stOk then
    { s with boot := { s.boot with trial := some (stageSlot s), trialFailed := false } }
  else if s.service.mode = .enteringBanked && c.opcode = 0x701 then
    let come := s.service.pressPending || s.fns.any (fun e => !e.2.hostQ.isEmpty || !e.2.fabQ.isEmpty)
    { s with service := { s.service with mode := if come then .leavingBanked else .banked, panel := 2 } }
  else if c.opcode = 0x708 && s.boot.exitPending.isSome && !c.origin.isHost then deviceReset s 6
  else s

/-- The version a reply reports where its command's work named none (R39, R115): that pinned of the object the command is
for, or of the first versioned object it pinned beside it; 0 where the object it is for is not in its pins. -/
def replyVersion (a : Adm) : Nat :=
  let main := if a.cmd.opcode = 0x403 then some (a.p 36 4) else (namedObjects a.cmd).head?.map (·.1)
  if a.pins.any (fun p => main == some p.1) then
    let own := main.elim 0 (pinnedVer a)
    if own = 0 then (a.pins.find? (fun p => p.2 != 0)).elim 0 (·.2) else own
  else 0

/-- What a result takes from the moment its command completes: the version its reply reports (R115), and the node time that
IDENTIFY reports (R132). -/
def atCompletion (s : State) (a : Adm) (r : Result) : Result :=
  { r with
    version := if r.version = 0 then BitVec.ofNat 32 (replyVersion a) else r.version
    data := if a.cmd.opcode = 0x001 && !r.data.isEmpty then r.data.take 48 ++ toLE 8 s.time.toNat ++ r.data.drop 56 else r.data }

/-- R115, R107, R40: an admitted command whose work has ended, with no program in flight that it waits for (R189),
completes: its pool entry, pins and windows go, its result data and reply leave. -/
def execCommandComplete (cid : Nat) (s : State) : Out :=
  match findAdm s cid with
  | none => .next s
  | some a =>
    match a.phase with
    | .done r =>
      if programWaits s.flash cid then .next s
      else
        let s := leaveWindows (settle s a r) [cid]
        let s := { s with
          sched := { s.sched with admitted := s.sched.admitted.filter (fun b => b.cmd.cid != cid) }
          stk := { s.stk with sequences := s.stk.sequences.filter (fun q => q.cid != cid) } }
        let s := observePhase s (.service a.fn a.cmd.opcode) a.energy (now s - a.admitted)
        .next (nodeEnds (endCommand (freeAll s) a.cmd (atCompletion s a r)) a.cmd r)
    | _ => .next s

/-- R443, R444: a refill of a slot at a count: the settings made before that count take effect (R451), and T becomes
min(T + RATE, BURST). -/
def refill (x : Shaper) (at' : Nat) : Shaper :=
  let x := (x.next.filter (fun p => decide (p.2.2 < at'))).foldl (fun x p => { x with rate := p.1, burst := p.2.1 }) x
  let x := { x with next := x.next.filter (fun p => decide (at' ≤ p.2.2)) }
  if x.rate = 0 then { x with tokens := 0 } else { x with tokens := min (x.tokens + x.rate.toNat) x.burst.toNat }

/-- R443: every slot is refilled, at the next multiple of 10,000 counts. -/
def execShaperRefill (s : State) : Out :=
  let s := recur s .refill
  .next { s with sched := { s.sched with shapers := s.sched.shapers.map (fun e => (e.1, refill e.2 (now s))) } }

/-- R450: every function's queue depth is sampled. -/
def sampleDepth (x : FnState) : FnState :=
  let d := x.hostQ.length + x.fabQ.length
  { x with
    samples := satAdd x.samples 1, depthSum := satAdd x.depthSum d
    maxDepth := if x.maxDepth.toNat < d then BitVec.ofNat 16 d else x.maxDepth }

/-- R450: QUEUE_SAMPLE, at the next multiple of 1,000 counts. -/
def execQueueSample (s : State) : Out := .next (mapFns (recur s .sample) (fun _ x => sampleDepth x))

end Sys2Proof.Machine
end

