-- ==== Sys2Proof/Machine/ArrayOps.lean ====
section
/-! DEFINITION. Array descriptors (R226-R245, R298): their checks, scores, outputs and completion, and the rows
RISE_ADMIT (R235, R457) and DESCRIPTOR_COMPLETE (R244). -/

namespace Sys2Proof.Machine
open Sys2Proof

/-- Bytes of streamed row r; zeros outside the rights (R245). -/
def arrRow (s : State) (d : ArrayDesc) (r : Nat) : List Byte :=
  let x := arrOf d.desc
  if srcForeign s d.fn x.src then List.replicate x.stride 0#8
  else (objOf s x.src).elim (List.replicate x.stride 0#8) (fun o => (verBytes o d.ver).readBytes (x.off + r * x.stride) x.stride)

/-- Rows that stream before the tile of a granule that cannot be read (R245, R516). -/
def arrReadable (m : Bad) (s : State) (d : ArrayDesc) : Nat :=
  let x := arrOf d.desc
  match (objOf s x.src).filter (fun _ => !srcForeign s d.fn x.src) with
  | none => x.rows
  | some o =>
    match (List.range (ceilDiv x.rows 128)).find? (fun t =>
        rangeBad m o d.ver (x.off + 128 * t * x.stride) (min 128 (x.rows - 128 * t) * x.stride)) with
    | some t => 128 * t
    | none => x.rows

/-- The stationary elements of query q, one number each (R240). -/
def arrQuery (x : Arr) (ws : Mem) (q : Nat) : List Nat :=
  let w := if x.mode = 3 then 2 else 1
  let slice (p : Nat) : List Nat := elems w (if x.mode = 3 then 32 else 64)
    (ws.readBytes (x.qry + (q / x.q * x.passes + p) * 4096 + 64 * (q % x.q)) 64)
  ((List.range x.passes).flatMap slice).take x.dim

/-- A column parameter of query q (R240). -/
def arrParam (x : Arr) (ws : Mem) (q o : Nat) : Word :=
  BitVec.ofNat 32 (ws.nat (x.qry + x.arrays * x.passes * 4096 + 16 * q + o) 4)

/-- The output of query q for a row's bytes (R229-R231). -/
def arrScore (x : Arr) (ws : Mem) (q : Nat) (row : List Byte) : Word :=
  let es := arrQuery x ws q
  let d : Word := match x.mode with
    | 0 => dot30 (es.map (signed 8)) ((unpack4 row).take x.dim) ((elems 2 (x.dim / 32) (row.drop x.scaleOff)).map fp16.toF32) (arrParam x ws q 0)
    | 1 => dot30 (es.map (signed 8)) ((ints8 row).take x.dim) ((elems 2 (x.dim / 32) (row.drop x.scaleOff)).map fp16.toF32) (arrParam x ws q 0)
    | 2 => chainFrom 0 (es.map e4m3.decode) ((elems 1 x.dim row).map e4m3.decode)
    | _ => chainFrom 0 (es.map bf16.decode) ((elems 2 x.dim row).map bf16.decode)
  if x.distance then dist31 d (BitVec.ofNat 32 (field row x.normOff 4)) (arrParam x ws q 4) else d

/-- Whether a score is strictly worse than a gate (R28, R242); a NaN gate drops nothing. -/
def Arr.worse (x : Arr) (score gate : Word) : Bool := if x.distance then flt gate score else flt score gate

/-- A 32-bit counter of the ring header moved up. -/
def bump (ws : Mem) (a : Nat) : Mem := ws.putNat a 4 ((ws.nat a 4 + 1) % 2 ^ 32)

/-- Codes of a streamed row's elements (R239). -/
def rowCodes (x : Arr) (row : List Byte) : List Nat :=
  match x.mode with
  | 0 => (List.range x.dim).map (fun e => (row.getD (e / 2) 0).toNat / 16 ^ (e % 2) % 16)
  | 1 => elems 1 x.dim row
  | 2 => elems 1 x.dim row
  | _ => elems 2 x.dim row

/-- What the bobbins of an array hold of a row that waits (R232, R233): bobbin d the elements of its row, pass by pass, 48 at
most. -/
def bobbinsOf (x : Arr) (row : List Byte) : List (List Nat) :=
  let w := if x.mode = 3 then 32 else 64
  let es := rowCodes x row
  (List.range w).map (fun d => ((List.range x.passes).filterMap (fun p => es[w * p + d]?)).take 48)

/-- One score put out (R241, R242): counted, gated or written; none where the ring is full. -/
def putScore (x : Arr) (ws : Mem) (gates : List Word) (row q : Nat) (score : Word) : Option Mem :=
  let tail := ws.nat x.out 4
  if isNan score then some (bump ws (x.out + 12))
  else if x.worse score (gates.getD q 0) then some (bump ws (x.out + 8))
  else if 2 ^ x.log2 ≤ (tail + 2 ^ 32 - ws.nat (x.out + 4) 4) % 2 ^ 32 then none
  else
    let ws := ws.write (x.out + 16 + 16 * (tail % 2 ^ x.log2))
      (lay 16 [(0, 4, score.toNat), (4, 2, q), (8, 8, x.list * 2 ^ 40 + x.first + row)])
    some (bump ws x.out)

/-- The array at the start of a tile (R237, R242): it reads its gates, and with more than 8 passes its slices anew. -/
def enterTile (x : Arr) (ws : Mem) (d : ArrayDesc) (t : Nat) : ArrayDesc :=
  if d.tile = some t then d
  else
    let slices := x.arrays * x.passes * 4096
    let inSlices (c : Host.Cell) : Bool := decide (x.qry ≤ c.1) && decide (c.1 < x.qry + slices)
    { d with
      tile := some t
      gates := (List.range x.cols).map (fun c => arrParam x ws c 8)
      bank := if 8 < x.passes then ws.filter inSlices ++ d.bank.filter (fun c => decide (x.qry + slices ≤ c.1)) else d.bank }

/-- The streamed row that the arrays stand in, fetched once (R227). -/
def rowAt (fetch : Nat → List Byte) (d : ArrayDesc) (r : Nat) : List Byte :=
  match d.row with
  | some (n, bs) => if n = r then bs else fetch r
  | none => fetch r

/-- Scores of a descriptor put out in order (row, then query) until none is left or the ring is full (R241): the weave store and
the descriptor. -/
def putScores (x : Arr) (fetch : Nat → List Byte) : Nat → Mem → ArrayDesc → Mem × ArrayDesc
  | 0, ws, d => (ws, { d with row := none })
  | n + 1, ws, d =>
    let r := d.done / x.cols
    let q := d.done % x.cols
    let d := enterTile x ws d (r / 128)
    let row := rowAt fetch d r
    match putScore x ws d.gates r q (arrScore x d.bank q row) with
    | some ws => putScores x fetch n ws { d with done := d.done + 1, row := if q + 1 = x.cols then none else some (r, row) }
    | none => (ws, { d with row := some (r, row) })

/-- Dense outputs of the readable rows (R243). -/
def putDense (x : Arr) (score : Nat → Nat → Word) (rows : Nat) (ws : Mem) : Mem :=
  (List.range rows).foldl (fun m r => (List.range x.cols).foldl (fun m q =>
    m.write (x.out + 4 * (q * x.rows + r)) (toLE 4 (score r q).toNat)) m) ws

/-! ### The queue -/

/-- A descriptor enters the loom's queue (R238), with the source version it reads. -/
def enqueueDesc (s : State) (loom f no : Nat) (task : Option Nat) (bad : Bool) (desc : List Byte) : State :=
  let x := arrOf desc
  let ver := if x.ver ≠ 0 then x.ver else (objOf s x.src).elim 0 (·.current)
  beginHead (updLoom s loom (fun l => { l with
    dq := l.dq ++ [{ desc := desc, fn := f, inst := no, task := task, ver := ver, bad := bad }] })) loom

/-- The descriptor at the head ends (R244): its completion word, its arrival, its task; arrays without work fall. -/
def descEnds (s : State) (loom : Nat) (d : ArrayDesc) (status rows : Nat) : State :=
  let x := arrOf d.desc
  let s := updLoom s loom (fun l => settleArrays { l with
    dq := l.dq.tail, bobbins := [], ws := if d.pick.isSome then l.ws else doneWord l.ws d.desc status rows })
  let s := beginHead s loom
  let s := if x.arrives then arriveFor s d.fn (x.knot % 65536) 1 else s
  match d.task with
  | some t => taskPart s d.inst t
  | none => s

/-- Energy of the streaming steps of a descriptor and of its rows' reads (R466). -/
def chargeArrays (s : State) (d : ArrayDesc) (rows : Nat) : State :=
  let x := arrOf d.desc
  let s := streamRange s x.src d.ver x.off (rows * x.stride)
  let steps := (if x.mode = 0 then ceilDiv rows 2 else rows) * x.passes
  let pj := [490, 470, 430, 520].getD x.mode 0
  let s' := charge s d.fn (pj * steps * x.arrays) true
  let s' := charge s' d.fn (60 * ceilDiv (x.qryBytes + 4 * rows * x.cols) 64) true
  let s' := charge s' d.fn (620 * ceilDiv (rows * x.stride) 64) false
  d.task.elim s' (fun t => meterTask s s' d.inst t d.fn)

/-- Whether a descriptor's streamed rows lie in part on a channel that holds ordinary requests (R209, R210). -/
def sourceHeld (s : State) (d : ArrayDesc) : Bool :=
  let x := arrOf d.desc
  !srcForeign s d.fn x.src && rangeHeld s x.src d.ver x.off (x.rows * x.stride)

/-- The scores of a descriptor that its arrays have taken up (R236, R241, R243, R245): it ends, or its record ring is full and it
waits in the row it stands in. -/
def descRun (s : State) (loom : Nat) (d : ArrayDesc) : State :=
  let x := arrOf d.desc
  let l := loomOf s loom
  let rows := arrReadable .any s d
  let status := if rows < x.rows then 3 else 0
  let ends (s : State) : State :=
    let s := if rows < x.rows && arrReadable .lost s d = rows then updFn s d.fn (fun y => { y with tierFail := satAdd y.tierFail 1 }) else s
    descEnds (chargeArrays s d rows) loom d status rows
  if x.dense then
    ends (updLoom s loom (fun l => { l with ws := putDense x (fun r q => arrScore x d.bank q (arrRow s d r)) rows l.ws }))
  else
    let (ws, d') := putScores x (arrRow s d) (rows * x.cols - d.done) l.ws d
    if d'.done < rows * x.cols then
      let held := (List.range (descArrays d.desc)).map (fun a => (a, bobbinsOf x (rowAt (arrRow s d) d' (d'.done / x.cols))))
      updLoom s loom (fun l =>
        let l := (List.range (descArrays d.desc)).foldl (fun l a =>
          if AMap.getD l.phase a .off == .drain then setPhaseOf l a .streaming else l) l
        { l with ws := ws, dq := d' :: l.dq.tail, bobbins := held })
    else ends (updLoom s loom (fun l => { l with ws := ws }))

/-- An error of a loom's weave store met by the descriptor at its head (R516): one beyond correction takes the loom out of service,
the searches of a pick there end with INTERNAL, and other picks queued there go. -/
def descError (s : State) (loom : Nat) (d : ArrayDesc) (e : Ecc) : State :=
  let s := if e = .uncorrectable then (d.pick.getD []).foldl (fun s m => if m.2 then fail s m.1 stInternal else s) s else s
  let s := weaveError s loom d.inst e
  if e = .uncorrectable then dropDescs s loom (fun d => d.pick.isNone) else s

/-- R236, R244, R250, R516: the descriptor at the head of the loom's queue completes, once its arrays have taken it up. Where its
record ring fills, the array waits and the row has put out what fitted (R241); while a channel holds its rows, it waits too. -/
def execDescriptorComplete (loom : Nat) (ecc : Ecc) (s : State) : Out :=
  match (loomOf s loom).dq with
  | [] => .next s
  | d :: _ =>
    let x := arrOf d.desc
    let s := descError s loom d ecc
    if ecc = .uncorrectable then .next s
    else if d.pick.isNone && descRejected s d then .next (descEnds s loom d 1 0)
    else if descIdle s d then .next (descEnds s loom d 0 0)
    else if d.deserted then .next (descEnds s loom d 2 0)
    else if !d.started || sourceHeld s d then .next s
    else if d.pick.isSome then .next (descEnds s loom d 0 x.rows)
    else .next (descRun s loom d)

/-- Rises begun in the last 100 ns, in the node and in a bolt: a rise time holds its count in bits 4 up and its bolt (R457). -/
def risesNow (s : State) (bolt : Nat) : Nat × Nat :=
  let near := s.looms.riseTimes.filter (fun t => decide (now s < t / 16 + 10))
  (near.length, near.countP (fun t => t % 16 == bolt))

/-- R235, R457, R460, R461: a waiting rise is admitted where grant, rise limits, thermal level and droop allow it, and begins; else
the delay is counted, once a rise. An array that still falls completes its fall first (R252). -/
def execRiseAdmit (loom array : Nat) (power : Bool) (s : State) : Out :=
  let l := loomOf s loom
  if !l.waitRise.contains array || AMap.getD l.phase array .off == .fall then .next s
  else
    let (node, bolt) := risesNow s (loom / 8)
    let blocked := decide (now s < AMap.getD s.looms.boltBlocked (loom / 8) 0) || s.draught.levels.contains .die2
    if !power || blocked || 8 ≤ node || 2 ≤ bolt then
      if l.delayed.contains array then .next s
      else .next (updLoom { s with draught := { s.draught with riseDelayed := satAdd s.draught.riseDelayed 1 } } loom
        (fun l => { l with delayed := array :: l.delayed }))
    else
      let f := l.dq.head?.elim 0 (·.fn)
      let pj := l.dq.head?.elim 0 (fun d => [490, 470, 430, 520].getD (field d.desc 0 1) 0)
      let s := updLoom s loom (fun l => setPhaseOf { l with
        waitRise := l.waitRise.filter (· != array), delayed := l.delayed.filter (· != array) } array .rise)
      let s := startHead (charge s f (96 * pj) true) loom
      .next { s with looms := { s.looms with
        riseTimes := (now s * 16 + loom / 8) :: s.looms.riseTimes.filter (fun t => decide (now s < t / 16 + 10)) } }

end Sys2Proof.Machine
end

