-- ==== Sys2Proof/Machine/Pins.lean ====
section
/-! DEFINITION. What the rack sees at the single-ended contacts (R50-R53) and on the front panel (R524): views of the
state. -/

namespace Sys2Proof.Machine
open Sys2Proof

/-- The single-ended contacts (R51). -/
inductive Pin where
  | prsntN | perstN | cfgSel | trigIn | smbClk | smbDat | pwrGood | thermTripN | alertN | trigOut
  | tck | tms | tdi | trstN | tdo
deriving DecidableEq, Repr

/-- How the module holds a contact: at ground, pulled low by an output, let go with or without a pull-up of 50 kOhm, or with
the strap's 10 kOhm to 1.8 V. -/
inductive Hold where
  | ground | low | pulledUp | released | strap
deriving DecidableEq, Repr

/-- Whether the always-on controller has set up its pins and no reset is in force (R51). -/
def pinsSetUp (b : Board) : Bool := b.configured && !b.resetting

/-- An open-drain output of the module: low, or let go, with its pull-up until set-up (R51). -/
def openDrain (b : Board) (isLow : Bool) : Hold := if isLow then .low else if pinsSetUp b then .released else .pulledUp

/-- How the module holds each contact (R51, R53). TDO is driven only while shifting, and TRIG_OUT only for its pulse. -/
def contact (b : Board) (p : Pin) : Hold :=
  match p with
  | .prsntN => .ground
  | .pwrGood => if b.powered then openDrain b (!b.pwrGood) else .low
  | .thermTripN => if b.powered then openDrain b (!b.thermTripN) else .released
  | .alertN => if b.powered then openDrain b (!b.alertN) else .released
  | .trigOut => if b.powered then openDrain b false else .released
  | .smbClk => if b.powered then openDrain b false else .released
  | .smbDat => if b.powered then openDrain b false else .released
  | .perstN => if b.powered then .pulledUp else .released
  | .trigIn => if b.powered then .pulledUp else .released
  | .tck => if b.powered then .pulledUp else .released
  | .tms => if b.powered then .pulledUp else .released
  | .tdi => if b.powered then .pulledUp else .released
  | .trstN => if b.powered then .pulledUp else .released
  | .cfgSel => if b.powered && !pinsSetUp b then .strap else .released
  | .tdo => .released

/-- How a light shows (R524): its blinks by their frequency in units of 0.5 Hz. -/
inductive Light where
  | off | steady | blink (halfHz : Nat)
deriving DecidableEq, Repr

/-- The power LED by panel state (R524). -/
def powerLed (s : State) : Light :=
  if !s.board.powered then .off
  else match s.service.panel.toNat with
    | 1 => .steady
    | 4 => .steady
    | 2 => .blink 1
    | 5 => .off
    | _ => .blink 2

/-- The attention LED by panel state (R524). -/
def attentionLed (s : State) : Light :=
  if !s.board.powered then .off
  else match s.service.panel.toNat with
    | 4 => .blink 4
    | 5 => .steady
    | _ => .off

/-- The fault LED (R64, R70, R524): steady for a health fault bit, a rail fault or a thermal trip; blinking in Kindling. -/
def faultLed (s : State) : Light :=
  if !s.board.powered then .off
  else if s.service.faults != 0 || s.board.status.getLsbD sbRailFault || s.board.status.getLsbD sbThermTrip then .steady
  else if s.boot.kindling then .blink 2 else .off

/-- The locate LED (R524). -/
def locateLed (s : State) : Light := if s.board.powered && s.service.locate then .blink 8 else .off

end Sys2Proof.Machine
end

