-- ==== Sys2Proof/Machine/Smbus.lean ====
section
/-! DEFINITION. The SMBus side of the always-on domain: packet error checking, the readings and writes of the management
endpoint at 0x2A, and the inventory EEPROM at 0x50 (R68, R71-R75). -/

namespace Sys2Proof.Machine
open Sys2Proof

/-! ### Packet error checking (R71; the code is SMBus 3.1's) -/

/-- One bit step of the CRC-8 with polynomial x^8 + x^2 + x + 1. -/
def pecBit (c : BitVec 8) : BitVec 8 := if c.getLsbD 7 then (c <<< 1) ^^^ 0x07 else c <<< 1

/-- The code over the bytes of a transaction, address bytes included. -/
def pecOf (bs : List Byte) : Byte :=
  bs.foldl (fun c b => (List.range 8).foldl (fun c _ => pecBit c) (c ^^^ b)) 0

/-- The endpoint's address byte of a write and of a read. -/
def mgmtWrite : Byte := 0x54
def mgmtRead : Byte := 0x55

/-- Whether a write's PEC byte is right, or absent (R71). -/
def pecOk (code : Byte) (data : List Byte) (pec : Option Byte) : Bool :=
  pec.all (· == pecOf (mgmtWrite :: code :: data))

/-! ### The inlet temperature in use (R68) -/

/-- In 1/160,000 C: the rack's value for 10 s, else `PLATE_TEMP` less 0.0035 K/W of the input power. -/
def inletE4 (s : State) : Int :=
  let b := s.board
  let estimate := 10000 * b.plateX16 - 56 * (b.pin100Mw : Int)
  match b.inlet with
  | some t => if (now s : Int) < b.inletAt + 1000000000 then 10000 * t else estimate
  | none => estimate

/-- As `INLET_TEMP` reads, in 1/16 C; the rounding is a free value. -/
def inletReading (s : State) : Int :=
  let e := inletE4 s
  e / 10000 + (if e % 10000 ≠ 0 && Config.inletRoundsUp s.fresh then 1 else 0)

/-- The derating of R67 is active above 40 C: `THERM_WARN`. -/
def warnInlet (s : State) : State := if 6400000 < inletE4 s then setStatus s sbThermWarn else s

/-! ### Reads (R72) -/

/-- The content of a command code; none for an undefined code or one that is not read. -/
def mgmtContent (s : State) (code : Byte) : Option (List Byte) :=
  let b := s.board
  let word (v : Int) : List Byte := toLE 2 (unsigned 16 v)
  if code = 1 then some (toLE 2 b.status.toNat)
  else if code = 2 then some (word b.vinMv)
  else if code = 3 then some (word b.iin10Ma)
  else if code = 4 then some (word b.pin100Mw)
  else if code = 5 then some (word b.plateX16)
  else if code = 6 then some (word b.hotX16)
  else if code = 7 then some [b.railFault]
  else if code = 9 then some (word (inletReading s))
  else none

/-- The answer to a read, with a PEC byte where one is asked for (R71). -/
def mgmtAnswer (s : State) (code : Byte) (pec : Bool) : Option (List Byte) :=
  (mgmtContent s code).map (fun d => if pec then d ++ [pecOf (mgmtWrite :: code :: mgmtRead :: d)] else d)

/-! ### The inventory EEPROM (R75), in the IPMI FRU storage format -/

/-- A text as a type/length byte and its characters. -/
def fruText (s : String) : List Byte := BitVec.ofNat 8 (0xC0 + s.length) :: s.toList.map (fun c => BitVec.ofNat 8 c.toNat)

/-- The zero checksum of an area. -/
def fruSum (bs : List Byte) : Byte := 0 - bs.foldl (· + ·) 0

/-- An area: version 1, its length in units of 8 bytes, its content, the end mark, zero padding and the checksum. -/
def fruArea (content : List Byte) : List Byte :=
  let n := roundUp (content.length + 4) 8
  let body := [1, BitVec.ofNat 8 (n / 8)] ++ content ++ [0xC1]
  let padded := body ++ List.replicate (n - 1 - body.length) 0
  padded ++ [fruSum padded]

/-- The serial number's field: at most 63 characters. -/
def fruSerialField : List Byte :=
  let t := Config.fruSerial.take 63
  BitVec.ofNat 8 (0xC0 + t.length) :: t

/-- Board area: language, manufacturing date, manufacturer, and a serial number; no product name, part number or file. -/
def fruBoard : List Byte :=
  fruArea ([0x19] ++ toLE 3 Config.fruDate.toNat ++ fruText "Kilbuward Silicon Works" ++ [0xC0] ++ fruSerialField ++ [0xC0, 0xC0])

/-- Product area: language, no manufacturer, product name, part number, module revision; no serial, asset tag or file. -/
def fruProduct : List Byte :=
  fruArea ([0x19, 0xC0] ++ fruText "Turith SN-20" ++ fruText "KSW-SN20-A1" ++ [0x01, Config.moduleRev] ++ [0xC0, 0xC0, 0xC0])

/-- Common header: format 1, the offsets of the board and product areas in units of 8 bytes. -/
def fruHeader : List Byte :=
  let h : List Byte := [1, 0, 0, 1, BitVec.ofNat 8 (1 + fruBoard.length / 8), 0, 0]
  h ++ [fruSum h]

/-- The header and the two areas. -/
def fruAreas : List Byte := fruHeader ++ fruBoard ++ fruProduct

/-- A byte of the 8 KiB; what lies beyond the areas is a free value. -/
def fruByte (i : Nat) : Byte := fruAreas.getD i (Config.fruRest i)

/-- A read from an offset, which wraps at 8 KiB. -/
def fruRead (offset length : Nat) : List Byte := (List.range length).map (fun i => fruByte ((offset + i) % 8192))

end Sys2Proof.Machine
end

