-- ==== Sys2Proof/Machine/Board.lean ====
section
/-! DEFINITION. The board: resets, rails, input power, heat trip, SMBus and boundary scan (R48-R76). Every row but the
power-on reset needs the always-on domain (R61). -/

namespace Sys2Proof.Machine
open Sys2Proof

/-- A row of the always-on domain: with neither input present nothing happens (R53, R61). -/
def whenPowered (s t : State) : Out := .next (if s.board.powered then t else s)

/-! ### Device resets -/

/-- R61, R477: the always-on domain powers up from neither input: a device reset of cause 1 that clears STATUS, latches and
the snapshot store; the pins wait for configuration and the strap is measured (R57). PERST_N and the sensors are as they
are. While an input is present, or a hold-up runs, there is no such event. -/
def execPowerOnReset (conv : List Nat) (s : State) (vstby : Bool := true) : Out :=
  if s.board.powered && (s.board.band != .absent || s.board.rails != 0 || s.board.holdUp) then .next s
  else
    let s := deviceReset s 1
    .next { s with
      board := { ({} : Board) with
        stby := vstby, perstLow := s.board.perstLow, plateX16 := s.board.plateX16, hotX16 := s.board.hotX16 }
      boot := measureStrap s.boot conv
      service := {} }

/-- A device reset of cause 2 begins: PERST_N low, the strap measured (R56, R57). -/
def pinReset (s : State) (conv : List Nat) : State :=
  let s := deviceReset s 2
  { s with board := { s.board with perstLow := true, restart := 0 }, boot := measureStrap s.boot conv }

/-- R56, R477: a pin reset; after reset release a device reset of cause 2, before it only a delay of that release,
during hold-up kept until it ends (R66). From Dormant the main rails restart (R472). -/
def execPinReset (conv : List Nat) (s : State) : Out :=
  whenPowered s (
    if s.board.holdUp then { s with board := { s.board with heldPerst := true } }
    else if s.service.mode = .dormant then startIfReady (pinReset s conv)
    else if s.boot.released then pinReset { s with flash := holdUp s.flash } conv
    else { s with board := { s.board with perstLow := true } })

/-- The node time at which reset is released at the earliest (R56, R477): 100 ms after PWR_GOOD has risen, or 10 ms after a
restart of cause 5 or 6. -/
def releaseDue (s : State) : Nat :=
  if 5 ≤ s.boot.cause.toNat then 1000000 else (s.board.goodAt + 10000000).toNat

/-- R54-R58, R76, R458: reset release, once the rails are good: a strap not measured yet is measured, the pins leave their reset
state, EXTEST acts as BYPASS, the start sequence begins, and the endpoint trains where its clock is stable (R55). -/
def execResetRelease (s : State) (conv : List Nat := List.replicate 8 1023) : Out :=
  whenPowered s (
    if s.board.pwrGood && !s.boot.released then
      let s := advanceTo s (releaseDue s)
      let b := measureOwed s.boot conv
      { s with
        board := { s.board with
          perstLow := false, resetting := false, driven := false
          tap := if s.board.tap = .extest then .bypass else s.board.tap }
        boot := { b with released := true, releasedAt := s.time, starting := true, stages := [] }
        draught := { s.draught with vFloorMv := BitVec.ofNat 12 (max 650 s.draught.ageFloorMv.toNat) }
        link := { s.link with training := s.link.refclk } }
    else s)

/-- R51: the pins are configured. -/
def execPinConfiguration (s : State) : Out :=
  whenPowered s { s with board := { s.board with configured := true } }

/-- R51, R58, R522: a pulse on TRIG_IN is recognised after configuration and outside resets, and fires the trigger when SRC
bit 0 is set. -/
def execTrigIn (s : State) : Out :=
  whenPowered s (if pinsSetUp s.board && s.service.snapSrc.getLsbD 0 then fireSnapshot s 1 else s)

/-- R55, R54: the reference clock is stable; an endpoint that waited for it after reset release begins training. -/
def execRefclkStable (s : State) : Out :=
  .next { s with link := { s.link with refclk := true, training := s.link.training || (s.boot.released && !s.link.up) } }

/-! ### Input power and the switch -/

/-- The band of an input voltage (R59). -/
def bandOf (mv : Nat) : Band :=
  if mv < 47000 then .absent else if mv < 50000 then .low else if mv ≤ 60000 then .normal else .high

/-- VIN stands at a voltage (R59): in the low band the current is limited and VIN_LOW is set, in the high band VIN_HIGH. -/
def takeBand (s : State) (mv : Nat) : State :=
  let band := bandOf mv
  let s := if band = .low then setStatus s sbVinLow else if band = .high then setStatus s sbVinHigh else s
  { s with board := { s.board with vinMv := mv, band := band, currentLimit := band == .low } }

/-- R63, R66, R70: VIN has met the turn-on threshold. Where it had been removed, a rail fault's latch and a locked-open switch
end and a trip latch is told of the restored input; the main rails start unless something holds them. -/
def execVinTurnOn (vinMv : Nat) (s : State) : Out :=
  whenPowered s (
    if s.board.holdUp then { s with board := { s.board with heldVin := true, vinMv := vinMv } }
    else if s.board.rails ≠ 0 || bandOf vinMv = .absent then s
    else
      let b := s.board
      let s := if b.band = .absent
        then { s with
          board := { b with railLatch := false, lockedOpen := false, restored := true }
          service := { s.service with mode := if s.service.mode = .safe then .service else s.service.mode } }
        else s
      startIfReady (takeBand s vinMv))

/-- R59, R73, R74: VIN enters another band: its STATUS bit is set, and in the low band the current is limited to 48 A. Below
the low band and above the high band other rows act. -/
def execInputBandChange (vinMv : Nat) (s : State) : Out :=
  whenPowered s (
    if s.board.band = .absent || vinMv < 47000 || 63000 < vinMv || bandOf vinMv = s.board.band then s
    else takeBand s vinMv)

/-- R59, R73: in the low band the 48 A limiting becomes active and IIN_LIMIT is set. -/
def execIinLimit (s : State) : Out :=
  whenPowered s (
    if s.board.band = .low then setStatus { s with board := { s.board with iin10Ma := 4800 } } sbIinLimit else s)

/-- R65, R66: input loss; during hold-up it ends a return of VIN that waits. -/
def execInputLoss (s : State) : Out :=
  whenPowered s (inputLost { s with board := { s.board with
    band := .absent, vinMv := 0, currentLimit := false, heldVin := false } })

/-- The switch opens (R60): an input loss. -/
def openSwitch (s : State) (onCurrent : Bool) : State :=
  inputLost { s with board := { s.board with
    switchClosed := false, openedOnCurrent := onCurrent, openedAt := now s, currentLimit := false } }

/-- R59, R60: overvoltage opens the switch, sets VIN_HIGH, and is handled as an input loss. -/
def execOvervoltageSwitchOff (s : State) : Out :=
  whenPowered s (
    if s.board.switchClosed then
      openSwitch (setStatus { s with board := { s.board with band := .high } } sbVinHigh) false
    else s)

/-- The openings on current of the last 60 s (R60). -/
def recentOpenings (s : State) : List Int := s.board.openings.filter (fun t => decide ((now s : Int) < t + 6000000000))

/-- R60: a current trip opens the switch, sets OC_TRIP, and is handled as an input loss; the third opening on current
within 60 s keeps it open. -/
def execOcTrip (s : State) : Out :=
  whenPowered s (
    if s.board.switchClosed then
      let recent := recentOpenings s ++ [(now s : Int)]
      openSwitch (setStatus { s with board := { s.board with
        openings := recent, lockedOpen := decide (3 ≤ recent.length) } } sbOcTrip) true
    else s)

/-- R60, R66: the bus side has stayed in range: the switch closes again, not while locked open or during hold-up, after an
opening on current 1 s later at the earliest, and the main rails restart. -/
def execSwitchReclose (s : State) (busMv : Nat := 54000) : Out :=
  whenPowered s (
    if s.board.switchClosed || s.board.lockedOpen || s.board.holdUp || busMv < 49000 || 60000 < busMv then s
    else
      let s := if s.board.openedOnCurrent then advanceTo s (s.board.openedAt + 100000000).toNat else s
      startIfReady (takeBand { s with board := { s.board with switchClosed := true } } busMv))

/-- R61: VSTBY falls below 11.4 V: with VIN in range STBY_LOST is set and the node keeps running; with VIN gone and no
hold-up running the always-on domain has no input left. -/
def execStbyLost (s : State) : Out :=
  whenPowered s (
    let s := { s with board := { s.board with stby := false } }
    if s.board.band != .absent then setStatus s sbStbyLost else if s.board.holdUp then s else powerLost s)

/-! ### Rails, hold-up and heat -/

/-- R63: the next rail of the order is enabled; with VLOOM, the last, every rail is in regulation and PWR_GOOD is
released. -/
def execRailEnable (s : State) : Out :=
  if s.board.railsWanted && 1 ≤ s.board.rails && s.board.rails < 10 then
    let n := s.board.rails + 1
    .next { s with board := { s.board with
      rails := n, pwrGood := n == 10, goodAt := if n = 10 then (now s : Int) else s.board.goodAt } }
  else .next s

/-- R64: a rail fault: PWR_GOOD low, the rails off, the code of the first faulted rail recorded, RAIL_FAULT set. The
restart that R64 lets end it clears the latch and keeps the code, which the next fault replaces (DESIGN CHOICE, log entry
100). A hold-up sequence runs to its end (R66). -/
def execRailFault (code : Nat) (s : State) : Out :=
  if s.board.rails = 0 then .next s
  else
    let s := setStatus (if s.board.holdUp then s else railsOff s) sbRailFault
    .next { s with board := { s.board with
      railFault := if s.board.railLatch then s.board.railFault else BitVec.ofNat 8 code, railLatch := true } }

/-- R57, R66, R526: the hold-up sequence has ended and the last rail is off. With VAON kept a PERST_N level or a POWER_CYCLE that
came meanwhile takes effect and the restart is a device reset of cause 3, begun where VIN is back; without it the always-on
domain is down. A forced removal goes on to its safe state instead. -/
def execHoldUpEnd (vaonKept vinBack : Bool) (conv : List Nat) (s : State) : Out :=
  whenPowered s (
    if !s.board.holdUp then s
    else if !vaonKept then powerLost s
    else
      let forced := s.service.mode = .removal
      let b := s.board
      let s := railsOff s
      let back := vinBack || b.heldVin
      let s := { s with board := { s.board with
        heldPerst := false, heldVin := false, heldCycle := false, perstLow := b.perstLow || b.heldPerst
        cyclePending := b.heldCycle, restart := if b.heldCycle then 4 else 3
        railLatch := b.railLatch && !b.heldCycle, lockedOpen := b.lockedOpen && !b.heldCycle
        restored := b.restored || b.heldCycle
        band := if back && b.band == .absent then .normal else b.band } }
      if forced && !b.heldCycle then { s with service := { s.service with mode := .safe, panel := 5 } }
      else restartIfReady s conv)

/-- R70: a thermal trip at 115 C: THERM_TRIP_N low, the rails off where they are up, latched, THERM_TRIP set. A hold-up
sequence runs to its end (R66). -/
def execThermTrip (tempX16 : Int) (s : State) : Out :=
  whenPowered s (
    if tempX16 < tripX16 then s
    else
      let s := setStatus (if s.board.holdUp || s.board.rails = 0 then s else railsOff s) sbThermTrip
      { s with board := { s.board with thermTripN := false, tripLatch := true, restored := false, hotX16 := tempX16 } })

/-- R70, R477: every sensor reads below 90 C and VIN has been restored or POWER_CYCLE written: the latch releases and the
rails restart, as cause 4 after POWER_CYCLE, whose second runs on, and else as cause 3. -/
def execTripLatchRelease (s : State) (hotX16 : Int := 0) : Out :=
  whenPowered s (
    if s.board.tripLatch && s.board.restored && hotX16 < coolX16 then
      startIfReady { s with board := { s.board with
        tripLatch := false, thermTripN := true, restored := false, hotX16 := hotX16 } }
    else s)

/-- R63, R70: every sensor reads below 90 C: rails that waited for that after a power-on reset begin. -/
def execJunctionSensorsCool (s : State) (hotX16 : Int := 0) : Out :=
  whenPowered s (
    if s.board.coolWait && hotX16 < coolX16 then startIfReady { s with board := { s.board with hotX16 := hotX16 } } else s)

/-! ### Board management -/

/-- The main rails go off, to restart after 1 s; a rail fault's latch, a locked-open switch and Dormant end (R60, R64, R72,
R472). Ignored while a trip is latched and a sensor reads 90 C or above; during hold-up kept until it ends (R66). -/
def powerCycle (s : State) : State :=
  if s.board.tripLatch && coolX16 ≤ s.board.hotX16 then s
  else if s.board.holdUp then { s with board := { s.board with heldCycle := true } }
  else
    let s := railsOff s
    { s with board := { s.board with
      cyclePending := true, railLatch := false, lockedOpen := false, restored := true, restart := 4 } }

/-- An SMBus write to the management endpoint (R68, R71-R73): without effect and not acknowledged with a wrong PEC byte, a
wrong length or an undefined code. -/
def mgmtPut (s : State) (code : Byte) (data : List Byte) (pec : Option Byte) : State :=
  let refuse := emit s (.smbus none)
  if !pecOk code data pec then refuse
  else match data with
    | [v] =>
      if code = 8 then (if v = 0xA5 then powerCycle s else s) else refuse
    | [lo, hi] =>
      let v : BitVec 16 := hi ++ lo
      if code = 1 then { s with board := { s.board with status := s.board.status &&& ~~~v } }
      else if code = 9 then warnInlet { s with board := { s.board with inlet := some v.toInt, inletAt := now s } }
      else refuse
    | _ => refuse

/-- R72: POWER_CYCLE with 0xA5; other values are ignored. -/
def execPowerCycle (value : Byte) (s : State) (pec : Option Byte := none) : Out := whenPowered s (mgmtPut s 8 [value] pec)

/-- R73: a write of STATUS clears every bit written as 1. -/
def execStatusWrite (value : BitVec 16) (s : State) (pec : Option Byte := none) : Out :=
  whenPowered s (mgmtPut s 1 (toLE 2 value.toNat) pec)

/-- R68, R72: the rack's inlet temperature; above 40 C the derating is active and THERM_WARN is set (R73). -/
def execInletTemp (value : BitVec 16) (s : State) (pec : Option Byte := none) : Out :=
  whenPowered s (mgmtPut s 9 (toLE 2 value.toNat) pec)

/-- R68: 10 s after the last write the plate-based estimate is used. -/
def execInletTempTimeout (s : State) : Out :=
  whenPowered s (
    if s.board.inlet.isNone then s
    else
      let s := advanceTo s (s.board.inletAt + 1000000000).toNat
      { s with board := { s.board with inlet := none } })

/-- R71-R75: the node answers on the SMBus. The Alert Response Address is answered with 0x2A while ALERT_N is asserted,
which releases it; a read of the endpoint with its reading; a read of the EEPROM with its bytes; a write to the EEPROM,
which is write-protected, is not acknowledged. The table gives reads no row of their own: this row has them (DESIGN CHOICE,
log entry 101). -/
def execAlertResponse (s : State) (q : SmbusQuery := .alert) : Out :=
  whenPowered s (match q with
    | .alert => if s.board.alertN then s else emit { s with board := { s.board with alertN := true } } (.smbus (some [0x2A]))
    | .read code pec => emit (freshen s) (.smbus (mgmtAnswer s code pec))
    | .write code data pec => mgmtPut s code data pec
    | .eepromRead offset length => emit s (.smbus (some (fruRead offset length)))
    | .eepromWrite _ _ => emit s (.smbus none))

/-- R57, R72, R477: 1 s after POWER_CYCLE the rails restart as a device reset of cause 4, where nothing else holds them. -/
def execPowerCycleRestart (conv : List Nat) (s : State) : Out :=
  whenPowered s (
    if s.board.cyclePending then restartIfReady { s with board := { s.board with cyclePending := false } } conv else s)

/-! ### Boundary scan (R76) -/

/-- R76: the port is reset: IDCODE selected, no contact driven. -/
def execTapReset (s : State) : Out :=
  whenPowered s { s with board := { s.board with tap := .idcode, driven := false } }

/-- The one-bit bypass register, which captures 0, stands between TDI and TDO. -/
def tapBypass (s : State) : State :=
  emit { s with board := { s.board with tap := .bypass, driven := false } } (.tdo 1 0)

/-- A pass through the boundary register: the captured contacts are shifted out and the bits shifted in are loaded. The
captured levels are a free value: the order of the register and the levels of the inputs are not in the manual. -/
def tapBoundary (s : State) (bits : BitVec 15) (instr : TapInstr) : State :=
  emit (freshen { s with board := { s.board with tap := instr, boundary := bits, driven := instr == .extest } })
    (.tdo 15 (Config.boundaryCapture s.fresh).toNat)

/-- R76: BYPASS. -/
def execBypass (s : State) : Out := whenPowered s (tapBypass s)

/-- R76, R540: IDCODE shifts out 0x1520_0FDB. -/
def execIdcode (s : State) : Out :=
  whenPowered s (emit { s with board := { s.board with tap := .idcode, driven := false } } (.tdo 32 0x15200FDB))

/-- R76: SAMPLE/PRELOAD captures and loads the boundary register and drives no contact. -/
def execSamplePreload (bits : BitVec 15) (s : State) : Out := whenPowered s (tapBoundary s bits .sample)

/-- R76: EXTEST drives the contacts while PERST_N is low; while it is high it acts as BYPASS. -/
def execExtest (s : State) (bits : BitVec 15 := 0) : Out :=
  whenPowered s (if s.board.perstLow then tapBoundary s bits .extest else tapBypass s)

end Sys2Proof.Machine
end

