-- ==== Sys2Proof/Machine/Health.lean ====
section
/-! DEFINITION. The health record (R519) and the reports to the run-time (R402, R411, R525, R526, R528). -/

namespace Sys2Proof.Machine
open Sys2Proof

/-- The low 16 bits of a signed reading. -/
def low16 (i : Int) : Nat := unsigned 16 i

/-- The 64-byte health record (R519); in Kindling bytes 8 to 39 read zero. -/
def healthRecord (s : State) : List Byte :=
  let v := s.service
  let k := s.boot.kindling
  lay 64 ([(0, 1, v.score.toNat), (1, 1, v.state.toNat), (2, 2, v.faults.toNat), (4, 2, unitsOut s), (6, 2, portsActive s)] ++
    (if k then [] else
      [(8, 4, Hours.total v.ce24), (12, 4, Hours.total v.ue24), (16, 4, Hours.total v.soft24), (20, 2, s.flash.dies.countP (·.2.failed)),
       (22, 2, (eraseSpread s.flash).1), (24, 4, s.flash.headroom.toNat), (28, 4, Hours.total v.retrains24), (32, 4, Hours.total v.replays24), (36, 4, Hours.total s.link.downs24)]) ++
    [(40, 2, s.draught.ageMin.toNat), (42, 2, s.draught.ageFloorMv.toNat), (44, 2, low16 s.board.hotX16), (46, 1, thermLevel s),
     (47, 1, v.panel.toNat), (48, 4, s.draught.hours.toNat), (56, 8, s.time.toNat)])

/-- The 16-byte header of a report (R528). -/
def reportHeader (s : State) (kind : Nat) : List Byte :=
  lay 16 [(0, 1, kind), (4, 4, s.fabric.rseq.toNat), (8, 8, s.time.toNat)]

/-- The payload of a report that one packet holds: the header and the body (R528). -/
def reportBytes (s : State) (kind : Nat) (body : List Byte) : List Byte := reportHeader s kind ++ body

/-- A report goes to RUNTIME_NODE, split over packets that each begin with the header, the last marked LAST (R402, R528). -/
def sendReport (s : State) (kind : Nat) (body : List Byte) : State :=
  if s.fabric.runtime = 0xFFFF then s
  else
    let s' := sendPlain s 9 s.fabric.runtime.toNat 0 0 0 (reportHeader s kind) body
    { s' with fabric := { s'.fabric with rseq := s'.fabric.rseq + 1 } }

/-- A checkpoint entry for each live versioned object, in ascending function and ID (R528). -/
def checkpoint (s : State) : List Byte :=
  (s.space.objs.filter (fun e => !e.2.destroyed && e.2.kind.versioned)).flatMap (fun e =>
    lay 16 [(0, 1, e.2.fn), (1, 1, e.2.kind.code), (2, 1, b2n (persists s e.1 e.2)), (4, 4, e.1), (8, 4, e.2.current),
      (12, 4, e.2.epoch.toNat)])

end Sys2Proof.Machine
end

