-- ==== Sys2Proof/Machine/Power.lean ====
section
/-! DEFINITION. The power, health and diagnostic commands (R151, R452-R475, R488-R490, R517-R522, R531, R532). -/

namespace Sys2Proof.Machine
open Sys2Proof

/-- R151, R453: POWER_CAP sets the host cap, which enters the next allocation. -/
def execPowerCap (cid : Nat) (s : State) : Out := withCmd s cid 0x700 (fun a =>
  finish { s with draught := { s.draught with hostCap := a.p 32 4 } } cid {})

/-- Whether any other command is admitted on the node or any instance lives (R151, R471); a removal also excludes the
low-power states (R533). -/
def notAlone (s : State) (cid : Nat) : Bool :=
  s.sched.admitted.any (fun b => b.cmd.cid != cid) || !s.prog.instances.isEmpty || s.service.mode != .service

/-- A channel's state put on every channel. -/
def allChannels (s : State) (st : ChanState) : State :=
  { s with stk := { s.stk with chans := (List.range 640).map (fun c => (c, { chanOf s c with state := st })) } }

/-- R471: ENTER_BANKED: arrays stop, stacks go to self-refresh, the translation journal is written; admission is closed. -/
def execEnterBanked (cid : Nat) (s : State) : Out := withCmd s cid 0x701 (fun _ =>
  if notAlone s cid then fail s cid stBusyMode
  else
    let s := allChannels s .selfRefresh
    let s := { s with
      looms := { s.looms with looms := s.looms.looms.map (fun e => (e.1, { e.2 with phase := [], steps := [], waitRise := [], delayed := [] })) }
      flash := { s.flash with journalFlash := s.flash.journalFlash ++ s.flash.journal, journal := [] }
      service := { s.service with mode := .enteringBanked } }
    finish s cid {})

/-- Near granules of the node. -/
def nearFrames (s : State) : List (Nat × Nat × Nat) :=
  s.space.objs.flatMap (fun e => (e.2.frames.filter (fun fr => fr.tier == .near)).map (fun fr => (e.1, fr.ver, fr.gran)))

/-- An object as the dormant image keeps it (R472): every live version, every granule in the Peat state. -/
def dormantObj (o : Obj) : Obj :=
  { o with
    building := [], mutations := [], hotRows := [], overridden := false
    frames := o.frames.map (fun fr => { fr with tier := .peat }) }

/-- Objects that the dormant image holds: groups are lost (R491). -/
def dormantObjs (s : State) : AMap Obj :=
  (s.space.objs.filter (fun e => !e.2.destroyed && (match e.2.kind with | .group _ _ => false | _ => true))).map
    (fun e => (e.1, dormantObj e.2))

/-- R472: ENTER_DORMANT evicts every Near granule, writes the dormant image and its mark. -/
def execEnterDormant (cid : Nat) (s : State) : Out := withCmd s cid 0x702 (fun _ =>
  if notAlone s cid then fail s cid stBusyMode
  else
    let ns := nearFrames s
    if s.flash.capacity.toNat < peatUsed s + ns.length || ((s.flash.headroom < 4096 || !flashRoom s.flash) && !ns.isEmpty) then fail s cid stNoSpace
    else
      let fl := holdUp (ns.foldl (fun fl n => flashStart fl n.1 n.2.1 n.2.2 none) s.flash)
      let evict (e : Nat × Obj) : Nat × Obj := (e.1, { e.2 with frames := e.2.frames.map (fun fr => { fr with tier := .peat }) })
      let s := { s with
        flash := { fl with mapFlash := fl.map, journalFlash := [] }
        space := { s.space with moves := [], objs := s.space.objs.map evict } }
      let s := { s with
        boot := { s.boot with dormantMark := true, dormantImage := dormantObjs s }
        service := { s.service with mode := .enteringDormant } }
      finish s cid {})

/-- R151, R464, R465: PRIV_PARTITION; a function in two partitions is INVALID_PARAM; a changed mask or a partition
disabled empties its table. -/
def execPrivPartition (cid : Nat) (s : State) : Out := withCmd s cid 0x703 (fun a =>
  let p := a.p 32 1
  let en := bit (a.p 33 1) 0
  let mask := BitVec.ofNat 256 (a.p 64 32)
  let others := (List.range 4).filter (fun q => q != p && (AMap.getD s.draught.parts q {}).en)
  if en && others.any (fun q => (AMap.getD s.draught.parts q {}).mask &&& mask != 0) then fail s cid stInvalidParam
  else
    let x := AMap.getD s.draught.parts p {}
    let x := { x with en := en, mask := mask, phases := if en && x.en && x.mask = mask then x.phases else [] }
    finish { s with draught := { s.draught with parts := AMap.insert s.draught.parts p x } } cid {})

/-- R467: ENERGY_READ: the function's account in whole uJ, and node time. -/
def execEnergyRead (cid : Nat) (s : State) : Out := withCmd s cid 0x704 (fun a =>
  finish s cid { data := toLE 8 ((fnOf s a.fn).energyNj / 1000) ++ toLE 8 (now s) })

/-- R519: HEALTH_READ. -/
def execHealthRead (cid : Nat) (s : State) : Out := withCmd s cid 0x705 (fun _ => finish s cid { data := healthRecord s })

/-- R522: SNAPSHOT_FIRE fires the trigger; VALUE is the number of the snapshot held. -/
def execSnapshotFire (cid : Nat) (s : State) : Out := withCmd s cid 0x706 (fun _ =>
  let s := fireSnapshot s 0
  finish s cid { value := s.service.snapSeq })

/-! ### Self-test (R531, R532) -/

/-- The block of TEST_MASK in which a measurement entry lies (R335, R532). -/
def testBlock (i : Nat) : Nat :=
  if i < 128 then i / 8 else if i < 144 then i - 128 else if i < 156 then 18 else if i < 796 then 16 else if i < 1148 then 17 else 19

/-- Whether an entry's block passes: a value of 1.0 or more fails (R532). -/
def entryPasses (w : Word) : Bool := flt w 0x3F800000

/-- The blocks of a mask all of whose entries pass (R532). -/
def blocksPassed (mask : Nat) (es : List Word) : Nat :=
  (List.range 20).foldl (fun n b =>
    n + 2 ^ b * b2n (bit mask b && ((List.range 1152).zip es).all (fun e => testBlock e.1 != b || entryPasses e.2))) 0

/-- The 1,152 entries: those measured of tested blocks, minus infinity elsewhere (R532). -/
def measurements (mask : Nat) (got : List (Nat × BitVec 32)) : List Word :=
  (List.range 1152).map (fun i =>
    if bit mask (testBlock i) then ((got.find? (·.1 == i)).map (·.2)).getD 0xFF800000 else 0xFF800000)

/-- R531, R532: SELF_TEST: the test record; in Kindling the measurements go into object 1 and say which blocks pass. -/
def execSelfTest (cid : Nat) (passed : BitVec 32) (us : Nat) (measured : List (Nat × BitVec 32)) (s : State) : Out :=
  withCmd s cid 0x707 (fun a =>
    let mask := a.p 32 4
    if !testRuns s mask then fail s cid stBusyMode
    else
      let es := measurements mask measured
      let worst := (argmaxOf ((List.range 1152).zip es)).elim 0 (·.1)
      let s := if s.boot.kindling then putBytes s 1 0 (es.flatMap (fun w => toLE 4 w.toNat)) else s
      let good := if s.boot.kindling then blocksPassed mask es else (BitVec.ofNat 32 mask &&& passed).toNat
      finish s cid { data := lay 64 [(0, 4, mask), (4, 4, good), (8, 4, us), (12, 4, worst)] })

/-- R490, R493: KINDLING_EXIT: outside Kindling BUSY_MODE; it waits for FW_STAGE and SELF_TEST, clears the failed-start
count, and the node restarts once its record is written. -/
def execKindlingExit (cid : Nat) (s : State) : Out := withCmd s cid 0x708 (fun a =>
  if !s.boot.kindling then fail s cid stBusyMode
  else if s.sched.admitted.any (fun b => b.cmd.opcode == 0x800 || b.cmd.opcode == 0x707) then s
  else
    let slot := match a.cmd.origin with
      | .host k => k
      | _ => 256
    finish { s with boot := { s.boot with failCount := 0, exitPending := some slot } } cid {})

end Sys2Proof.Machine
end

