-- ==== Sys2Proof/Machine/Regs.lean ====
section
/-! DEFINITION. The BAR 2 registers: reads with their clearing fields and writes (R15-R17, R86, R87, R111, R120, R180,
R204, R225, R253, R306, R334, R357, R386, R416, R434, R450, R476, R494, R515, R534-R543). -/

namespace Sys2Proof.Machine
open Sys2Proof

/-- A 64-bit value from fields (low bit, value). -/
def pack (fs : List (Nat × Nat)) : Nat := fs.foldl (fun n f => n + f.2 * 2 ^ f.1) 0

/-- Granules whose content is lost and not yet rewritten (R204). -/
def peatLost (s : State) : Nat := s.flash.lost.length

/-- Shuttles granted to live instances (R306). -/
def shuttlesGranted (s : State) : Nat :=
  (AMap.vals s.prog.instances).foldl (fun n i => n + i.looms.length * i.shuttles) 0

/-- `SEAL_SHAPE_f` (R515). -/
def sealShape (x : FnState) : Nat := pack [(0, x.sealStacks.toNat), (8, x.sealBolts.toNat)]

/-- The aligned 64-bit word of a function's registers below 0x1_0000 (R86, R87, R111, R120, R541). -/
def fnReg (s : State) (f off : Nat) : Nat :=
  let x := fnOf s f
  let w32 (v : BitVec 128) (n : Nat) : Nat := v.toNat / 2 ^ (64 * n) % 2 ^ 64
  if off = 0 then pack [(0, f), (8, b2n (f != 0)), (16, b2n s.boot.kindling), (24, 1), (32, 0x1E7A),
    (48, if f = 0 then 0x5200 else 0x5201)]
  else if off = 8 then pack [(0, b2n (x.ready && !x.flr)), (1, b2n x.isSealed), (4, x.lastReset.toNat)]
  else if off = 0x100 || off = 0x108 then w32 (featOffer s.boot.kindling f) ((off - 0x100) / 8)
  else if off = 0x110 || off = 0x118 then w32 x.featAccept ((off - 0x110) / 8)
  else if off = 0x120 || off = 0x128 then w32 x.featActive ((off - 0x120) / 8)
  else if off = 0x130 then pack [(1, b2n x.locked), (2, b2n x.rejected)]
  else if off = 0x200 then x.ringBase.toNat * 4096
  else if off = 0x208 then pack [(0, b2n x.ringEn), (8, x.ringLog2.toNat)]
  else if off = 0x210 then pack [(0, x.ringHead.toNat), (32, x.ringTail.toNat)]
  else if off = 0x218 then pack [(0, x.cwDiscard.toNat), (32, x.inflight)]
  else if 0x300 ≤ off && off < 0x320 then
    let n := (off - 0x300) / 8
    pack [(0, b2n (x.apEn.getLsbD n)), (30, (AMap.getD x.apBase n 0).toNat)]
  else if off = 0x400 then pack [(0, x.maxCount.toNat), (16, x.maxDelay.toNat)]
  else if 0x2000 ≤ off && off < 0x2080 then
    let e := AMap.getD x.msix ((off - 0x2000) / 16) {}
    if off % 16 = 0 then e.addr.toNat else pack [(0, e.data.toNat), (32, b2n e.masked)]
  else if off = 0x3000 then x.pba.toNat
  else 0

/-- Capacity, peat, spindle, pick, program, search, reed and ranking registers (R180, R204, R225, R253, R306, R334,
R357, R386). -/
def devRegA (s : State) (off : Nat) : Nat :=
  let f := (off - 0x12000) / 32
  if off = 0x11F00 then nearTotal - nearUsed s
  else if off = 0x11F08 then s.flash.capacity.toNat - peatUsed s
  else if 0x12000 ≤ off && off < 0x14000 then
    (match (off - 0x12000) % 32 with
     | 0 => chargedNear s f
     | 8 => chargedPeat s f
     | 16 => (fnOf s f).tierFail.toNat
     | _ => 0)
  else if off = 0x14000 then pack [(0, (eraseSpread s.flash).2), (16, (eraseSpread s.flash).1)]
  else if off = 0x14008 then s.flash.retired.toNat
  else if off = 0x14010 then s.flash.capacity.toNat
  else if off = 0x14018 then s.flash.rebuilds.toNat
  else if off = 0x14020 then peatLost s
  else if 0x14040 ≤ off && off < 0x14080 then
    let n := (off - 0x14040) / 8
    (List.range 64).foldl (fun v i => v + b2n (dieOf s.flash (64 * n + i)).failed * 2 ^ i) 0
  else if off = 0x15000 then s.stk.segments.toNat
  else if off = 0x15008 then pack [(0, s.stk.stopped.toNat), (16, s.stk.maxHold.toNat)]
  else if off = 0x16000 then pack [(0, s.looms.minMembers.toNat), (16, s.looms.windowUs.toNat), (32, s.looms.reserveUs.toNat)]
  else if off = 0x16008 then pack [(0, s.looms.picks.toNat), (32, s.looms.members.toNat)]
  else if off = 0x16010 then pack [(0, s.looms.spindle.toNat), (32, s.looms.small.toNat)]
  else if off = 0x17000 then pack [(0, shuttlesGranted s), (16, s.prog.instances.length), (32, 65536 - s.prog.knots.length)]
  else if off = 0x17008 then s.prog.faults.toNat
  else if off = 0x18000 then pack [(0, s.reeds.searches.toNat), (32, s.reeds.shorts.toNat)]
  else if off = 0x18008 then pack [(0, s.reeds.widened.toNat), (32, s.reeds.partials.toNat)]
  else if off = 0x19000 then (reedMode s).toNat
  else if off = 0x19008 then s.reeds.keys.toNat
  else if off = 0x19010 then pack [(0, s.reeds.weave.toNat), (32, s.reeds.large.toNat)]
  else if off = 0x1A000 then pack [(0, s.reeds.ranks.toNat), (32, s.reeds.stale.toNat)]
  else if off = 0x1A008 then pack [(0, s.reeds.updates.toNat), (32, s.reeds.rows.toNat)]
  else 0

/-- Fabric, scheduling, draught, reset, Glaesh and service registers (R416, R434, R450, R476, R494, R515, R534). -/
def devRegB (s : State) (off : Nat) : Nat :=
  if off = 0x1B000 then pack [(0, s.fabric.node.toNat), (16, s.fabric.runtime.toNat), (32, s.fabric.cseq.toNat)]
  else if off = 0x1B008 then pack [(0, s.fabric.rejected.toNat), (32, s.fabric.unreachableCount.toNat)]
  else if off = 0x1C000 then pack [(0, s.fabric.coded.toNat), (32, s.fabric.raw.toNat)]
  else if off = 0x1C008 then pack [(0, txKeysHeld s), (16, rxKeysHeld s)]
  else if 0x1D000 ≤ off && off < 0x1F000 then
    let x := fnOf s ((off - 0x1D000) / 32)
    (match (off - 0x1D000) % 32 with
     | 0 => pack [(0, x.depthSum.toNat), (32, x.maxDepth.toNat)]
     | 8 => pack [(0, x.delaySumUs.toNat), (32, x.maxDelayUs.toNat)]
     | 16 => pack [(0, x.samples.toNat), (32, x.admittedCount.toNat)]
     | _ => 0)
  else if 0x1F000 ≤ off && off < 0x1F200 then
    let sh := AMap.getD s.sched.shapers ((off - 0x1F000) / 8) {}
    if off = 0x1F000 || sh.rate = 0 then 0 else unsigned 32 sh.tokens
  else if off = 0x1F200 then s.sched.vtime.toNat
  else if off = 0x20000 then pack [(0, b2n s.draught.pace), (16, s.draught.paceMinUs.toNat), (32, s.draught.privMaxW.toNat)]
  else if off = 0x20008 then s.draught.order.toNat
  else if off = 0x20010 then pack [(0, s.draught.vFloorMv.toNat), (12, thermLevel s), (16, s.draught.vloomMv.toNat),
    (32, s.draught.paceSlackUs.toNat), (48, s.draught.capW.toNat)]
  else if off = 0x20018 then pack [(0, s.draught.riseDelayed.toNat), (32, s.draught.droops.toNat)]
  else if off = 0x20020 then s.draught.energyUj.toNat
  else if off = 0x20028 then pack [(0, b2n s.draught.ageWarn), (8, s.draught.ageMin.toNat), (24, s.draught.ageFloorMv.toNat),
    (40, s.draught.hours.toNat)]
  else if 0x20048 ≤ off && off < 0x20080 then
    let d := (off - 0x20040) / 8
    pack [(0, (AMap.getD s.draught.powers d 0).toNat), (16, (AMap.getD s.draught.grants d 0).toNat)]
  else if 0x20080 ≤ off && off < 0x200A0 then
    let p := AMap.getD s.draught.parts ((off - 0x20080) / 8) {}
    pack [(0, p.usedW.toNat), (16, p.shareW.toNat)]
  else if off = 0x21000 then pack [(0, s.boot.cause.toNat), (8, b2n s.boot.kindling), (12, s.boot.slotRun.toNat),
    (16, b2n s.boot.trialFailed), (24, s.boot.failCount.toNat), (36, s.boot.failStage.toNat)]
  else if off = 0x21008 then pack [(0, s.boot.strapCode.toNat), (4, b2n s.boot.strapOpen), (5, b2n s.boot.strapShort),
    (6, b2n s.boot.strapRsvd), (16, s.boot.strapRaw.toNat)]
  else if 0x22000 ≤ off && off < 0x22800 then sealShape (fnOf s ((off - 0x22000) / 8))
  else if off = 0x22800 then pack [(0, b2n (s.fns.any (·.2.isSealed))), (1, b2n s.glaesh.katPass),
    (2, b2n s.glaesh.compKey.isSome), (3, b2n s.glaesh.nodeKey.isSome), (16, s.glaesh.fwSvn.toNat % 65536), (32, s.glaesh.minSvn.toNat)]
  else if off = 0x23000 then pack [(0, s.service.score.toNat), (8, s.service.state.toNat), (16, s.service.faults.toNat)]
  else if off = 0x23008 then pack [(0, s.service.ce.toNat), (32, s.service.ue.toNat)]
  else if off = 0x23010 then s.service.snapSrc.toNat
  else if off = 0x23018 then pack [(0, b2n s.service.frozen), (1, b2n s.service.valid), (8, s.service.snapSource.toNat),
    (16, s.service.missed.toNat), (32, s.service.snapSeq.toNat)]
  else if off = 0x23020 then s.service.snapTime.toNat
  else if off = 0x23028 then pack [(0, b2n s.service.locate), (8, s.service.panel.toNat)]
  else if 0x24000 ≤ off && off < 0x32100 then (if s.service.valid then Mem.nat s.service.store (off - 0x24000) 8 else 0)
  else 0

/-- Identification, status, scratch and violation registers (R542, R543). -/
def devRegC (s : State) (off : Nat) : Nat :=
  if off = 0x10000 then pack [(0, 0x15200FDB), (32, 0x1E7A), (48, 0x20)]
  else if off = 0x10008 then Config.serial.toNat
  else if off = 0x10010 then pack [(0, 1), (8, Config.moduleRev.toNat), (16, Config.romVersion.toNat), (32, s.glaesh.fwVersion.toNat)]
  else if off = 0x10018 then s.time.toNat
  else if off = 0x10020 then pack [(0, b2n s.boot.serviceReady), (8, nodeState s),
    (24, if s.link.vfEnable then s.link.numVfs else 0), (32, s.sched.admitted.length)]
  else if 0x10040 ≤ off && off < 0x10060 then (AMap.getD s.service.scratch ((off - 0x10040) / 8) 0).toNat
  else if 0x10800 ≤ off && off < 0x11000 then (fnOf s ((off - 0x10800) / 8)).violations.toNat
  else if 0x11000 ≤ off && off < 0x11020 then
    let n := (off - 0x11000) / 8
    (List.range 64).foldl (fun v i => v + b2n ((fnOf s (64 * n + i)).violations != 0) * 2 ^ i) 0
  else 0

/-- The aligned 64-bit word of f's BAR 2 at an offset (R86, R535). -/
def reg64 (s : State) (f off : Nat) : Nat :=
  if off < 0x10000 then fnReg s f off
  else if f ≠ 0 then 0
  else if off < 0x11F00 then devRegC s off
  else if off < 0x1B000 then devRegA s off
  else devRegB s off

/-- Reading clears the RC fields that lie wholly in the part read (R15, R537): `lo` and `hi` say which halves. -/
def regClear (s : State) (f off : Nat) (lo hi : Bool) : State :=
  let z (b : Bool) (v : BitVec 32) : BitVec 32 := if b then 0 else v
  if off = 0x218 then (if lo then updFn s f (fun x => { x with cwDiscard := 0 }) else s)
  else if off < 0x10000 || f ≠ 0 then s
  else if 0x12000 ≤ off && off < 0x14000 && (off - 0x12000) % 32 = 16 then
    (if lo then updFn s ((off - 0x12000) / 32) (fun x => { x with tierFail := 0 }) else s)
  else if off = 0x14018 then { s with flash := { s.flash with rebuilds := z lo s.flash.rebuilds } }
  else if off = 0x15008 then (if lo then { s with stk := { s.stk with stopped := 0, maxHold := 0 } } else s)
  else if off = 0x16008 then { s with looms := { s.looms with picks := z lo s.looms.picks, members := z hi s.looms.members } }
  else if off = 0x16010 then { s with looms := { s.looms with spindle := z lo s.looms.spindle, small := z hi s.looms.small } }
  else if off = 0x17008 then { s with prog := { s.prog with faults := z lo s.prog.faults } }
  else if off = 0x18000 then { s with reeds := { s.reeds with searches := z lo s.reeds.searches, shorts := z hi s.reeds.shorts } }
  else if off = 0x18008 then { s with reeds := { s.reeds with widened := z lo s.reeds.widened, partials := z hi s.reeds.partials } }
  else if off = 0x19010 then { s with reeds := { s.reeds with weave := z lo s.reeds.weave, large := z hi s.reeds.large } }
  else if off = 0x1A000 then { s with reeds := { s.reeds with ranks := z lo s.reeds.ranks, stale := z hi s.reeds.stale } }
  else if off = 0x1A008 then { s with reeds := { s.reeds with updates := z lo s.reeds.updates, rows := z hi s.reeds.rows } }
  else if off = 0x1B008 then { s with fabric := { s.fabric with rejected := z lo s.fabric.rejected, unreachableCount := z hi s.fabric.unreachableCount } }
  else if off = 0x1C000 then { s with fabric := { s.fabric with coded := z lo s.fabric.coded, raw := z hi s.fabric.raw } }
  else if 0x1D000 ≤ off && off < 0x1F000 && (off - 0x1D000) % 32 = 16 then
    updFn s ((off - 0x1D000) / 32) (fun x => { x with
      maxDepth := 0, depthSum := 0, maxDelayUs := 0, delaySumUs := 0, admittedCount := 0, samples := 0 })
  else if off = 0x20018 then { s with draught := { s.draught with riseDelayed := z lo s.draught.riseDelayed, droops := z hi s.draught.droops } }
  else if off = 0x23008 then { s with service := { s.service with ce := z lo s.service.ce, ue := z hi s.service.ue } }
  else if off = 0x23018 then (if lo then { s with service := { s.service with missed := 0 } } else s)
  else s

/-- A BAR 2 read: naturally aligned 32 or 64 bits, zero otherwise (R87). -/
def readReg (s : State) (f off size : Nat) : State :=
  if !barReady s f then s
  else if !barLive s f || !(size == 8 || size == 4) || off % size ≠ 0 || (if f = 0 then 2 ^ 24 else 65536) ≤ off then
    emit s (.readData f (List.replicate size 0#8))
  else
    let v := reg64 s f (off - off % 8)
    let part := if size = 8 then v else if off % 8 = 4 then v / 2 ^ 32 else v
    regClear (emit s (.readData f (toLE size part))) f (off - off % 8) (size == 8 || off % 8 == 0) (size == 8 || off % 8 == 4)

/-! ### Writes -/

/-- The word a write of `size` bytes at `off` leaves, over the old aligned word. -/
def mergeWord (old off size v : Nat) : Nat :=
  if size = 8 then v % 2 ^ 64
  else if off % 8 = 4 then old % 2 ^ 32 + v % 2 ^ 32 * 2 ^ 32
  else old / 2 ^ 32 * 2 ^ 32 + v % 2 ^ 32

/-- Whether an order is an arrangement of the codes 1 to 7 (R456). -/
def isOrder (v : Nat) : Bool := (List.range 7).all (fun c => (List.range 7).any (fun i => bits v (4 * i + 3) (4 * i) == c + 1))

/-- A write of a function's register below 0x1_0000 (R87, R89, R111, R112, R120, R121, R538). -/
def fnWrite (s : State) (f off size v : Nat) : State :=
  let w := mergeWord (fnReg s f (off - off % 8)) off size v
  let base := off - off % 8
  let lo := size = 8 || off % 8 = 0
  let hi := size = 8 || off % 8 = 4
  if base = 0x110 || base = 0x118 then
    updFn s f (fun x => if x.locked then x else
      let k := (base - 0x110) / 8
      { x with featAccept := BitVec.ofNat 128 ((if k = 0 then x.featAccept.toNat / 2 ^ 64 * 2 ^ 64 else x.featAccept.toNat % 2 ^ 64) + w * 2 ^ (64 * k)) })
  else if base = 0x130 then (if lo && bit w 0 then updFn s f (applyFeatures s.boot.kindling f) else s)
  else if base = 0x200 then
    (if size = 8 then updFn s f (fun x => if x.ringEn then x else { x with ringBase := BitVec.ofNat 52 (w / 4096) }) else s)
  else if base = 0x208 then (if lo then updFn s f (fun x => writeRingCtl x w) else s)
  else if base = 0x210 then (if lo then updFn s f (fun x => writeRingHead x (BitVec.ofNat 32 w)) else s)
  else if 0x300 ≤ base && base < 0x320 then
    let n := (base - 0x300) / 8
    updFn s f (fun x => { x with
      apEn := if lo then (x.apEn &&& ~~~(1#4 <<< n)) ||| (BitVec.ofNat 4 (w % 2) <<< n) else x.apEn
      apBase := if size = 8 then AMap.insert x.apBase n (BitVec.ofNat 20 (bits w 49 30)) else x.apBase })
  else if base = 0x400 then
    (if lo then updFn s f (fun x => { x with maxCount := BitVec.ofNat 16 w, maxDelay := BitVec.ofNat 16 (w / 65536) }) else s)
  else if 0x2000 ≤ base && base < 0x2080 then
    let n := (base - 0x2000) / 16
    flushPba (updFn s f (fun x =>
      let e := AMap.getD x.msix n {}
      let e := if base % 16 = 0 then { e with addr := BitVec.ofNat 64 w }
        else { e with data := BitVec.ofNat 32 w, masked := if hi then bit w 32 else e.masked }
      { x with msix := AMap.insert x.msix n e })) f
  else s

/-- A write of a device register whose block answers (R253, R456, R465, R476, R515, R534, R542, R538). -/
def devWrite (s : State) (off size v : Nat) : State :=
  let base := off - off % 8
  let w := mergeWord (reg64 s 0 base) off size v
  let lo := size = 8 || off % 8 = 0
  let hi := size = 8 || off % 8 = 4
  if 0x10040 ≤ base && base < 0x10060 then
    (if size = 8 then { s with service := { s.service with
        scratch := AMap.insert s.service.scratch ((base - 0x10040) / 8) (BitVec.ofNat 64 w) } } else s)
  else if base = 0x16000 then
    let win := bits w 31 16
    let mn := bits w 8 0
    if 1 ≤ win && win ≤ 2000 && 1 ≤ mn && mn ≤ 256 then
      { s with looms := { s.looms with reserveUs := BitVec.ofNat 16 (bits w 47 32), windowUs := BitVec.ofNat 16 win, minMembers := BitVec.ofNat 9 mn } }
    else s
  else if base = 0x20000 then
    { s with draught := { s.draught with
      pace := if lo then bit w 0 else s.draught.pace
      paceMinUs := if lo then BitVec.ofNat 16 (bits w 31 16) else s.draught.paceMinUs
      privMaxW := if hi && bits w 47 32 ≤ 2000 then BitVec.ofNat 16 (bits w 47 32) else s.draught.privMaxW } }
  else if base = 0x20008 then
    (if lo && isOrder w then { s with draught := { s.draught with order := BitVec.ofNat 28 (bits w 27 0) } } else s)
  else if 0x22000 ≤ base && base < 0x22800 then
    let bo := bits w 11 8
    let st := bits w 3 0
    if lo && 1 ≤ bo && bo ≤ 12 && 1 ≤ st then
      updFn s ((base - 0x22000) / 8) (fun x => { x with sealBolts := BitVec.ofNat 4 bo, sealStacks := BitVec.ofNat 4 st })
    else s
  else if base = 0x23010 then
    (if lo then
      let s := { s with service := { s.service with snapSrc := BitVec.ofNat 6 w } }
      if bit w 7 then { s with service := { s.service with frozen := false, valid := false } } else s
    else s)
  else if base = 0x23028 then (if lo then { s with service := { s.service with locate := bit w 0 } } else s)
  else s

/-- Registers that accept writes through every start and in Kindling (R539). -/
def alwaysWritable (off : Nat) : Bool :=
  decide (0x10040 ≤ off ∧ off < 0x10060) || decide (0x23010 ≤ off ∧ off < 0x23018) || decide (0x23028 ≤ off ∧ off < 0x23030)

/-- Registers of the loom core, whose writes in Banked wait until Banked is left (R539). -/
def coreRegister (off : Nat) : Bool := decide (0x16000 ≤ off ∧ off < 0x16008)

/-- Whether the node is in Banked or on its way in or out (R471). -/
def inBanked (s : State) : Bool :=
  match s.service.mode with
  | .enteringBanked | .banked | .leavingBanked => true
  | _ => false

/-- A BAR 2 write (R87, R538, R539). -/
def writeReg (s : State) (f off size v : Nat) : State :=
  if !barLive s f || !(size == 8 || size == 4) || off % size ≠ 0 then s
  else if off < 0x10000 then fnWrite s f off size v
  else if f ≠ 0 then s
  else if alwaysWritable off then devWrite s off size v
  else if !s.boot.serviceReady then s
  else if inBanked s && coreRegister off then
    { s with service := { s.service with deferred := s.service.deferred ++ [(off, size, BitVec.ofNat 64 v)] } }
  else devWrite s off size v

/-- R15, R537: a read of a BAR 2 register. -/
def execReadClear (f : Fn) (offset size : Nat) (s : State) : Out := .next (readReg s f offset size)

/-- R450, R537: a read of QSAMPLE_COUNT_f of the target clears its three registers. -/
def execQsampleCountRead (target : Fn) (s : State) : Out :=
  if target < 256 then .next (readReg s 0 (0x1D010 + 32 * target) 8) else .next s

/-- R538, R87: a BAR 2 write. -/
def execRegisterWrite (f : Fn) (offset size : Nat) (value : DWord) (s : State) : Out :=
  .next (writeReg s f offset size value.toNat)

/-- R522: a write of 1 to REARM clears FROZEN and VALID. -/
def execRearm (s : State) : Out := .next { s with service := { s.service with frozen := false, valid := false } }

end Sys2Proof.Machine
end

