-- ==== Sys2Proof/Machine/Draught.lean ====
section
/-! DEFINITION. The draught controller (R25, R452-R473): the effective cap and its allocation, monitors, droop, the loom
supply, energy attribution, ageing, heat, pacing, interface rates, and the ways out of the low-power states. -/

namespace Sys2Proof.Machine
open Sys2Proof

/-! ### The effective cap (R452) -/

/-- The inlet derating of R67 in watts, at a temperature in 1/160,000 C: 80 W per degree above 40 C, to 2,000 W. -/
def inletCap (e4 : Int) : Nat := if e4 ≤ 6400000 then 2400 else max 2000 (2400 - ceilDiv (e4 - 6400000).toNat 2000)

/-- The effective cap (R452): the lowest of its five figures. -/
def effectiveCap (s : State) : Nat :=
  let amps := if s.board.band = .low then 46 else 50
  min (min (min 2400 s.draught.hostCap) (inletCap (inletE4 s))) (min (amps * s.board.vinMv / 1000) s.draught.junctionCap)

/-! ### Allocation (R455), in mW -/

/-- The floors of the seven domains in watts (R454). -/
def domainFloor (d : Nat) : Nat := [0, 120, 25, 60, 25, 30, 0, 0].getD d 0

/-- Phases of a partition's functions that are running or admitted (R464). -/
def phasesNow (s : State) (mask : BitVec 256) : List PhaseKey :=
  s.prog.instances.flatMap (fun e =>
    if mask.getLsbD e.2.fn then (e.2.running.map (fun t => .program e.2.fn e.2.image e.2.plan t.1)) else []) ++
  (s.sched.admitted.filter (fun a => mask.getLsbD a.cmd.fn && !a.isDone)).map (fun a => .service a.cmd.fn a.cmd.opcode)

/-- An estimate in mW; 25 W for a key without one (R464). -/
def estimate (ps : List (PhaseKey × Nat)) (k : PhaseKey) : Nat := (ps.find? (·.1 == k)).elim 25000 (·.2)

/-- The predicted power of a partition in mW (R464). -/
def predicted (s : State) (x : Partition) : Nat := 11 * (phasesNow s x.mask).foldl (fun n k => n + estimate x.phases k) 0 / 10

/-- A table whose named keys have just been used. -/
def touchPhases (ps : List (PhaseKey × Nat)) (ks : List PhaseKey) : List (PhaseKey × Nat) :=
  ps.filter (fun e => ks.contains e.1) ++ ps.filter (fun e => !ks.contains e.1)

/-- Shares of the partitions, with what is left of the power (R455). -/
def allocateShares (s : State) (b : Nat) : List Nat × Nat :=
  (List.range 4).foldl (fun (acc : List Nat × Nat) p =>
    let x := AMap.getD s.draught.parts p {}
    let given := acc.1.foldl (· + ·) 0
    let sh := if x.en then min (predicted s x) (min (1000 * s.draught.privMaxW.toNat - given) acc.2) else 0
    (acc.1 ++ [sh], acc.2 - sh)) ([], b)

/-- Grants of the domains in priority order (R455). -/
def allocateGrants (order : BitVec 28) (demand : List Nat) (b : Nat) : List (Nat × Nat) :=
  ((List.range 7).foldl (fun (acc : List (Nat × Nat) × Nat) i =>
    let d := bits order.toNat (4 * i + 3) (4 * i)
    let fl := 1000 * domainFloor d
    let extra := min (1000 * demand.getD (d - 1) 0 - fl) acc.2
    (acc.1 ++ [(d, fl + extra)], acc.2 - extra)) ([], b)).1

/-- The loom supply that the controller asks for (R458): the floor or 0.650 V at thermal level 2; else a setting of
5 mV steps between floor and 0.900 V, whose value rests on rates measured at manufacture: a free value. -/
def vloomWanted (s : State) (floor : Nat) : Nat :=
  if s.draught.levels.contains .die2 || s.boot.kindling || !s.boot.serviceReady then max 650 floor
  else max floor (min 900 (5 * (Config.vloomDemand s.fresh s.draught.paceCut / 5)))

/-- The readings of R72 are refreshed; a node back in the operating range has left the low or the high band (R59). -/
def takeReadings (s : State) (inp : DraughtInput) : State :=
  let b := s.board
  let back := (b.band == .low || b.band == .high) && b.switchClosed && bandOf inp.vinMv == .normal
  { s with board := { b with
    vinMv := inp.vinMv, iin10Ma := inp.iin10Ma, pin100Mw := inp.pin100Mw, plateX16 := inp.plateX16, hotX16 := inp.hotX16
    band := if back then .normal else b.band, currentLimit := b.currentLimit && !back } }

/-- R452-R455, R458, R463, R464, R469: an allocation. The demand operand gives the seven domains and then the four
partitions, whose unused share is lent for the round; the use operand the power over the last 1 ms in the same order. -/
def execDraughtAllocation (inp : DraughtInput) (s : State) : Out :=
  if !s.board.powered then .next s else
  let s := warnInlet (takeReadings (freshen (recur s .allocation)) inp)
  let cap := effectiveCap s
  let plan := if s.draught.levels.contains .die2 then none else s.draught.planPending
  let age := plan.getD s.draught.ageFloorMv.toNat
  let floor := match plan with
    | some a => max s.draught.vDroopMv a
    | none => s.draught.vFloorMv.toNat
  let b := s.draught.etaMilli * cap - 50000 - 260000
  let (shares, left) := allocateShares s b
  let lent := (shares.zipIdx).foldl (fun n e => n + (e.1 - min e.1 (1000 * inp.demandW.getD (7 + e.2) 0))) 0
  let grants := allocateGrants s.draught.order inp.demandW (left + lent)
  let part (p : Nat) : Nat × Partition :=
    let x := AMap.getD s.draught.parts p {}
    (p, { x with
      phases := if x.en then touchPhases x.phases (phasesNow s x.mask) else x.phases
      shareW := BitVec.ofNat 16 (shares.getD p 0 / 1000), usedW := BitVec.ofNat 16 (inp.usedW.getD (7 + p) 0) })
  let slack := s.draught.paceGroups.any (fun g => decide (now s < g.last + 1000000) && decide (2 * g.slack < s.draught.paceMinUs.toNat))
  .next { s with
    draught := { s.draught with
      capW := BitVec.ofNat 16 cap
      grants := (grants.foldl (fun m g => AMap.insert m g.1 (BitVec.ofNat 16 (g.2 / 1000))) [])
      powers := (List.range 7).map (fun d => (d + 1, BitVec.ofNat 16 (inp.usedW.getD d 0)))
      parts := (List.range 4).map part
      paceCut := if !s.draught.pace || slack then 0 else s.draught.paceCut
      planPending := if plan.isSome then none else s.draught.planPending, planned := s.draught.planned || plan.isSome
      ageFloorMv := BitVec.ofNat 16 age, vFloorMv := BitVec.ofNat 12 floor
      vloomTarget := vloomWanted s floor } }

/-! ### Monitors, droop and the supply -/

/-- R25: the monitors are sampled; a bolt's rate is the lowest reading of its looms and reed. -/
def execMonitorSample (readings : List Nat) (s : State) : Out :=
  let low (b : Nat) : Nat := ((List.range 8).map (fun i => readings.getD (8 * b + i) 0)).foldl min (readings.getD (128 + b) 0)
  let s := recur s .monitors
  .next { s with looms := { s.looms with monitors := readings, boltRate := (List.range 16).map (fun b => (b, low b)) } }

/-- R461: more than 30 mV below the setting: the bolt admits no rise for 2 us, and one event is counted. -/
def execDroopEvent (bolt depthMv : Nat) (s : State) : Out :=
  if depthMv ≤ 30 then .next s
  else .next { s with
    looms := { s.looms with boltBlocked := AMap.insert s.looms.boltBlocked bolt (now s + 200) }
    draught := { s.draught with droops := satAdd s.draught.droops 1, deepest := max s.draught.deepest depthMv } }

/-- R461: V_droop from the deepest droop measured since the last time, rounded up to a step, and V_FLOOR, which stays as it is
before the first margin plan of a start (R458). -/
def execDroopFloor (s : State) : Out :=
  let s := recur s .droop
  let v := roundUp (610 + s.draught.deepest) 5
  .next { s with draught := { s.draught with
    vDroopMv := v, deepest := 0
    vFloorMv := if s.draught.planned then BitVec.ofNat 12 (max v s.draught.ageFloorMv.toNat) else s.draught.vFloorMv } }

/-- R455: the conversion efficiency is measured. -/
def execEfficiencyMeasure (etaMilli : Nat) (s : State) : Out :=
  let s := recur s .efficiency
  .next { s with draught := { s.draught with etaMilli := etaMilli } }

/-- R458, R62: one 5 mV step toward the setting asked for, within V_FLOOR and 0.900 V; none in Banked, where VLOOM is off
(R471). -/
def execVloomStep (s : State) : Out :=
  if inBanked s then .next s else
  let s := recur s .supply
  let v := s.draught.vloomMv.toNat
  let goal := max s.draught.vFloorMv.toNat (min 900 s.draught.vloomTarget)
  let v' := if v < goal then min goal (v + 5) else max goal (v - 5)
  .next { s with draught := { s.draught with vloomMv := BitVec.ofNat 16 v' } }

/-! ### Energy (R467) -/

/-- Shares of an energy in nJ in proportion to the functions' activities: cumulative, so that they sum to it exactly. -/
def apportion (total input : Nat) : Nat → AMap Nat → List (Nat × Nat)
  | _, [] => []
  | before, (f, d) :: rest => (f, input * (before + d) / total - input * before / total) :: apportion total input (before + d) rest

/-- R467: the interval's input energy goes to the functions by their dynamic energy, all of it to function 0 without any. -/
def execEnergyInterval (inputNj : Nat) (s : State) : Out :=
  let s := recur s .energy
  let acts := s.draught.activityPj
  let total := acts.foldl (fun n e => n + e.2) 0
  let parts := if total = 0 then [(0, inputNj)] else apportion total inputNj 0 acts
  let s := parts.foldl (fun s e => updFn s e.1 (fun x => { x with energyNj := x.energyNj + e.2 })) s
  let rest := s.draught.energyRestNj + inputNj
  .next { s with draught := { s.draught with
    activityPj := [], energyUj := s.draught.energyUj + BitVec.ofNat 64 (rest / 1000), energyRestNj := rest % 1000 } }

/-! ### Ageing (R468-R470) -/

/-- The 24-hour counters begin another hour (R517). -/
def rollHours (s : State) : State :=
  let die (e : Nat × Die) : Nat × Die := (e.1, { e.2 with retired24 := Hours.roll e.2.retired24 })
  { s with
    service := { s.service with
      ce24 := Hours.roll s.service.ce24, ue24 := Hours.roll s.service.ue24, soft24 := Hours.roll s.service.soft24
      retrains24 := Hours.roll s.service.retrains24, replays24 := Hours.roll s.service.replays24 }
    link := { s.link with downs24 := Hours.roll s.link.downs24 }
    flash := { s.flash with dies := s.flash.dies.map die } }

/-- R468, R470: a powered hour: AGE_MIN is the lowest bolt ratio, and AGE_WARN says whether it is below 0.93. -/
def execAgeingHour (ratios : List Nat) (s : State) : Out :=
  let low := ratios.foldl min (ratios.headD 0)
  let s := rollHours s
  .next { s with draught := { s.draught with
    hours := satAdd s.draught.hours 1, ageMin := BitVec.ofNat 16 low, ageWarn := decide (100 * low < 93 * 32768) } }

/-- R469: a re-plan is due after 720 powered hours, on a change of AGE_MIN of more than 1 %, and in each start (R481). -/
def planDue (s : State) : Bool :=
  let a := s.draught.ageMin.toNat
  let p := s.draught.agePlanned
  s.boot.starting || !s.draught.planned || decide (s.draught.planHours + 720 ≤ s.draught.hours.toNat) || decide (p < 100 * (max a p - min a p))

/-- R469: the margin plan, in effect from the next allocation. -/
def execMarginReplan (floorMv : Nat) (s : State) : Out :=
  if !planDue s then .next s
  else .next { s with draught := { s.draught with
    planPending := some floorMv, agePlanned := s.draught.ageMin.toNat, planHours := s.draught.hours.toNat } }

/-! ### Heat (R460) -/

/-- The entry point of a level in 1/16 C. -/
def entryPoint : ThermLevel → Int
  | .die1 => 1600
  | .die2 => 1728
  | .stack _ => 1520
  | .flash _ => 1280

/-- The reading of a level's sensor kept where the node keeps it. -/
def noteTemp (s : State) (l : ThermLevel) (t : Int) : State :=
  match l with
  | .die1 | .die2 => { s with board := { s.board with hotX16 := max s.board.hotX16 t } }
  | .stack k => { s with stk := { s.stk with tempX16 := AMap.insert s.stk.tempX16 k t } }
  | .flash _ => s

/-- R460, R522: a sensor reaches a level's entry point: the level is in force. -/
def execThermalLevelEntry (level : ThermLevel) (tempX16 : Int) (s : State) : Out :=
  if tempX16 < entryPoint level || s.draught.levels.contains level then .next s
  else
    let s := noteTemp s level tempX16
    let s := { s with draught := { s.draught with levels := s.draught.levels ++ [level] } }
    if level = .die2 then
      .next (causeSnap { s with draught := { s.draught with vloomTarget := max 650 s.draught.vFloorMv.toNat } } 4)
    else .next s

/-- R460: 5 K below the entry point for 10 ms: the level is left. -/
def execThermalLevelExit (level : ThermLevel) (tempX16 : Int) (s : State) : Out :=
  if entryPoint level - 80 < tempX16 || !s.draught.levels.contains level then .next s
  else
    let s := noteTemp s level tempX16
    .next { s with draught := { s.draught with levels := s.draught.levels.filter (· != level) } }

/-- R460: a second: the junction cap falls by 100 W at level 1, is held at level 2, and rises by 50 W otherwise. -/
def execJunctionCapStep (s : State) : Out :=
  let s := recur s .junction
  let c := s.draught.junctionCap
  let c' := if s.draught.levels.contains .die2 then c
    else if s.draught.levels.contains .die1 then max 1200 (c - 100) else min 2400 (c + 50)
  .next { s with draught := { s.draught with junctionCap := c' } }

/-- R463: a millisecond: with every group of the last 10 ms slack, the loom rate demand falls by 2 %, to 20 % at most. -/
def execPaceStep (s : State) : Out :=
  let s := recur s .pace
  let gs := s.draught.paceGroups.filter (fun g => decide (now s < g.last + 1000000))
  if s.draught.pace && gs.all (fun g => decide (s.draught.paceMinUs.toNat < g.slack)) then
    .next { s with draught := { s.draught with paceCut := min 20 (s.draught.paceCut + 2) } }
  else .next s

/-! ### Interface rates (R459) -/

/-- R459, R460: the stack I/O rate changes once no channel is in entry, segment or exit and no request is held; at level
3 of the stack only to level 2. -/
def execIoRateChange (stack level : Nat) (s : State) : Out :=
  let quiet := (List.range 32).all (fun i => !chanHolds s (32 * stack + i) && (chanOf s (32 * stack + i)).held.isEmpty)
  if !quiet || 2 < level || (s.draught.levels.contains (.stack stack) && level ≠ 2) then .next s
  else .next { s with stk := { s.stk with ioLevel := AMap.insert s.stk.ioLevel stack level } }

/-- R459, R460: the flash rate of a channel changes with no operation in progress on it; at level 4 only to level 2. -/
def execFlashRateChange (channel level : Nat) (s : State) : Out :=
  let quiet := (List.range 16).all (fun i =>
    let d := dieOf s.flash (16 * channel + i)
    d.programs.isEmpty)
  if !quiet || 2 < level || (s.draught.levels.contains (.flash channel) && level ≠ 2) then .next s
  else .next { s with flash := { s.flash with rateLevel := AMap.insert s.flash.rateLevel channel level } }

/-! ### Ways out of the low-power states -/

/-- An orderly removal begins (R525 step 1); its press came at `removalSince`. -/
def beginRemoval (s : State) : State :=
  let s := { s with service := { s.service with mode := .removal, panel := 4, pressPending := false } }
  sendReport (postEvent s 0 4 0 0 s.time) 3 (checkpoint s)

/-- R471, R539: Banked is left: VLOOM at 0.650 V or V_FLOOR, stacks out of self-refresh, the register writes that waited
take effect, admission resumes; a press goes on to removal. -/
def execBankedExit (s : State) : Out :=
  if s.service.mode ≠ .leavingBanked then .next s
  else
    let s := allChannels s .memory
    let waited := s.service.deferred
    let s := { s with
      draught := { s.draught with vloomMv := BitVec.ofNat 16 (max 650 s.draught.vFloorMv.toNat) }
      service := { s.service with mode := .service, panel := 1, deferred := [] } }
    let s := waited.foldl (fun s w => devWrite s w.1 w.2.1 w.2.2.toNat) s
    .next (if s.service.pressPending then beginRemoval s else s)

/-- R472: 100 ms after the reply of ENTER_DORMANT the main rails go off. -/
def execDormantRailsOff (s : State) : Out :=
  if s.service.mode ≠ .enteringDormant || !s.sched.admitted.isEmpty then .next s
  else
    let s := railsOff s
    .next { s with service := { s.service with mode := .dormant } }

end Sys2Proof.Machine
end

