-- ==== Sys2Proof/Machine/FabricIn.lean ====
section
/-! DEFINITION. Packets on their way in (R393-R396, R422, R429, R430), composition (R397-R401, R530), placement domains
and the move of one to another node (R41, R409-R411). -/

namespace Sys2Proof.Machine
open Sys2Proof

/-! ### Acceptance -/

/-- The extended sequence number of SEQ nearest to the highest accepted one (R430). -/
def extend (high q : Nat) : Nat :=
  let v := high / 2 ^ 32 * 2 ^ 32 + q
  if high + 2 ^ 31 < v && 2 ^ 32 ≤ v then v - 2 ^ 32 else if v + 2 ^ 31 < high then v + 2 ^ 32 else v

/-- The highest number accepted from a source under a key, if any was (R430). -/
def highOf (s : State) (f key src : Nat) : Option Nat :=
  (s.fabric.recvKeys.find? (fun e => e.1 == f && e.2.1 == key && e.2.2.1 == src)).map (·.2.2.2)

/-- The window of a source with a number taken in: its most recent 4,096 (R395). -/
def windowWith (w : List Nat) (n : Nat) : List Nat :=
  let top := (n :: w).foldl max 0
  (n :: w).filter (fun x => decide (top < x + 4096))

/-- A packet's number tested against the window of its source and taken in; none for a duplicate (R395, R430). -/
def takeSeq (s : State) (f key src : Nat) (seq : BitVec 32) : Option State :=
  let (ext, w) := match highOf s f key src with
    | none => (extend 0 seq.toNat, [])
    | some h => (extend h seq.toNat, AMap.getD s.fabric.recv src [])
  let top := w.foldl max 0
  if w.contains ext || ext + 4096 ≤ top then none
  else
    let high := max ext ((highOf s f key src).getD 0)
    some { s with fabric := { s.fabric with
      recv := AMap.insert s.fabric.recv src (windowWith w ext)
      recvKeys := s.fabric.recvKeys.filter (fun e => !(e.1 == f && e.2.1 == key && e.2.2.1 == src)) ++ [(f, key, src, high)] } }

/-- An Ack of a packet (R395). -/
def ackPacket (s : State) (src f : Nat) (seq : BitVec 32) : State := sendPacket s 6 src f 0 0 0 true false [seq.toNat] []

/-- A packet of a function's key (R394, R395, R397, R422, R429): dropped and counted without the key or compressed where its kind
may not be, acknowledged again where it is a duplicate, left unacknowledged where there is no room for it. -/
def withPacket (s : State) (p : Packet) (compressible : Bool) (room : Bool) (act : State → State) : Out :=
  if s.fabric.node = 0xFFFF then .next s
  else if !((fnOf s p.fn).rxKeys.any (·.1 == p.keyId)) || (p.compressed && !compressible) then
    .next (updPort s p.port (fun x => { x with tagDrops := satAdd x.tagDrops 1 }))
  else match takeSeq s p.fn p.keyId p.src p.seq with
    | none => .next (ackPacket s p.src p.fn p.seq)
    | some s' => if room then .next (act (ackPacket s' p.src p.fn p.seq)) else .next s

/-- A packet of the node key (R429). -/
def withNodePacket (s : State) (src : Nat) (seq : BitVec 32) (act : State → State) : Out :=
  if s.fabric.node = 0xFFFF || s.glaesh.nodeKey.isNone then .next s
  else match takeSeq s nodeKeyFn 0 src seq with
    | none => .next (ackPacket s src 0 seq)
    | some s' => .next (act (ackPacket s' src 0 seq))

/-- A Composition packet (R397, R429); a node without a number takes it too. -/
def withComposition (s : State) (src : Nat) (seq : BitVec 32) (act : State → State) : Out :=
  if s.glaesh.compKey.isNone then .next s
  else match takeSeq s compKeyFn 0 src seq with
    | none => .next (ackPacket s src 0 seq)
    | some s' => .next (act (ackPacket s' src 0 seq))

/-- A message on its way in with another packet (R403). -/
def putInbox (s : State) (kind : Nat) (p : Packet) (extra : List Nat) : State × Inbox :=
  let is (b : Inbox) : Bool := b.kind == kind && b.fn == p.fn && b.src == p.src && b.ctx == p.ctx
  let b := (s.fabric.inbox.find? is).getD { kind := kind, fn := p.fn, src := p.src, ctx := p.ctx }
  let b := { b with
    parts := b.parts ++ [(p.offset, p.compressed, p.payload)]
    last := if p.last then some (p.offset + p.payload.length) else b.last
    extra := if p.last then extra else b.extra }
  ({ s with fabric := { s.fabric with inbox := s.fabric.inbox.filter (fun b => !is b) ++ [b] } }, b)

/-- A message taken out. -/
def dropInbox (s : State) (b : Inbox) : State :=
  { s with fabric := { s.fabric with inbox := s.fabric.inbox.filter (fun x => !(x.kind == b.kind && x.fn == b.fn && x.src == b.src && x.ctx == b.ctx)) } }

/-- The bytes of a message once all of it is here. -/
def Inbox.whole? (b : Inbox) : Option (List Byte) := Stream.whole? { fn := b.fn, id := b.ctx, parts := b.parts, last := b.last }

/-! ### Placement domains (R41, R398, R409-R411) -/

/-- A domain's new epoch and node, owed a report of the former epoch (R410, R411). -/
def noteDomain (s : State) (f id : Nat) (epoch : BitVec 32) (node : BitVec 16) (old : BitVec 32) : State :=
  let d : Domain := { fn := f, id := id, epoch := epoch, node := node, old := old, learned := now s, owed := true }
  { s with fabric := { s.fabric with domains := s.fabric.domains.filter (fun d => !(d.fn == f && d.id == id)) ++ [d] } }

/-- The searches of a domain issue again, under its present epoch, the lists and steps outside their merged sets (R42, R332). -/
def reissue (s : State) (f id : Nat) : State :=
  let e := domainEpoch s f id
  { s with sched := { s.sched with admitted := s.sched.admitted.map (fun a =>
    if a.cmd.fn == f && a.cmd.isSearch && a.p 32 4 == id then
      { a with work := a.work.map (fun w => if a.merged.contains w.1 then w else (w.1, e)) }
    else a) } }

/-- A domain's new epoch and node take effect (R398, R410); the former epoch is owed a report (R411). -/
def learnEpoch (s : State) (f id : Nat) (epoch : BitVec 32) (node : BitVec 16) : State :=
  let old := domainEpoch s f id
  if epoch.toNat ≤ old.toNat then s
  else
    let s := reissue (noteDomain s f id epoch node old) f id
    if id = shareDomain f then
      let s := updFn s f (fun x => { x with shareEpoch := epoch })
      -- contributions of the old epoch are rejected, so they go out again under the new one (R407)
      (s.fabric.colls.filter (fun c => c.fn == f && c.begun && c.kind ≤ 4)).foldl sendParts s
    else updObj s id (fun o => { o with epoch := epoch })

/-! ### Composition (R397-R400, R530) -/

/-- Whether a message's sequence lets it apply; `always` is the host's under bit 30 (R397, R398, R530). -/
def cseqOk (s : State) (cseq : BitVec 32) (always : Bool) : Bool := always || decide (s.fabric.cseq.toNat < cseq.toNat)

/-- The last-applied CSEQ after a message (R397, R530). -/
def setCseq (s : State) (cseq : BitVec 32) (always : Bool) : State :=
  { s with fabric := { s.fabric with cseq := if always then s.fabric.cseq + 1 else cseq } }

/-- NODE. -/
def applyNode (s : State) (number runtime : BitVec 16) (reportMs : BitVec 32) : State :=
  { s with fabric := { s.fabric with node := number, runtime := runtime, reportMs := reportMs } }

/-- ROUTE (R399): destinations that a live port now serves become reachable again (R396). -/
def applyRoute (s : State) (first count : Nat) (mask : BitVec 16) : State :=
  let ds := (List.range count).map (· + first)
  let s := { s with fabric := { s.fabric with routes := ds.foldl (fun m d => AMap.insert m d mask) s.fabric.routes } }
  { s with fabric := { s.fabric with unreachable := s.fabric.unreachable.filter (fun d => !(ds.contains d && !(routePorts s d).isEmpty)) } }

/-- TENANT (R400). -/
def applyTenant (s : State) (f : Nat) (features : BitVec 32) : State := updFn s f (fun x => { x with tenant := some features })

/-- DRAIN and UNDRAIN of a function, or of every one (R397). -/
def applyDrain (s : State) (fn : Option Nat) (on : Bool) : State :=
  match fn with
  | some f => updFn s f (fun x => { x with drained := on })
  | none => mapFns s (fun _ x => { x with drained := on })

/-- The 64 bytes of a composition message applied (R397): its range checks have passed. -/
def applyMessage (s : State) (m : List Byte) : State :=
  let every : Option Nat := if bit (field m 9 1) 0 then none else some (field m 8 1)
  match field m 0 1 with
  | 1 => applyNode s (BitVec.ofNat 16 (field m 8 2)) (BitVec.ofNat 16 (field m 10 2)) (BitVec.ofNat 32 (field m 12 4))
  | 2 => applyRoute s (field m 8 2) (field m 10 2) (BitVec.ofNat 16 (field m 12 2))
  | 3 => applyTenant s (field m 8 1) (BitVec.ofNat 32 (field m 12 4))
  | 4 => learnEpoch s (field m 8 1) (field m 12 4) (BitVec.ofNat 32 (field m 16 4)) (BitVec.ofNat 16 (field m 20 2))
  | 5 => applyDrain s every true
  | 6 => applyDrain s every false
  | _ => s

/-- A composition message from the host or the fabric (R397, R398, R530). -/
def compose (s : State) (m : List Byte) (always : Bool) : State :=
  let cseq := BitVec.ofNat 32 (field m 4 4)
  if !composeOk m then s
  else if field m 0 1 == 4 && cseq == 0 && !always then applyMessage s m
  else if !cseqOk s cseq always then s
  else setCseq (applyMessage s m) cseq always

/-- The carried packet as it is sent (R149): the issuer's RESULT_LEN, no RESULT_ADDR. -/
def carriedOut (a : Adm) : List Byte :=
  let bs := slice a.carried 0 (max 64 a.carried.length)
  bs.take 16 ++ toLE 8 0 ++ toLE 4 a.cmd.resultLen ++ bs.drop 28

/-- The deadline left of a command, in microseconds rounded up, 0 for none (R403). -/
def remainingUs (s : State) (a : Adm) : Nat := a.cmd.deadline.elim 0 (fun d => max 1 (ceilDiv (d - now s) 100))

/-- The packet of a FABRIC_REQUEST goes to a node under an epoch, and its command waits for the Reply; INTERNAL where the node
is unreachable (R41, R149, R403). -/
def sendCarried (s : State) (a : Adm) (dst : Nat) (epoch : BitVec 32) : State :=
  let ctx := a.cmd.cid % 2 ^ 32
  if !reachable s 1 dst a.fn ctx then fail s a.cmd.cid stInternal
  else setPhase (sendPacket s 1 dst a.fn epoch ctx 0 true false [remainingUs s a] (carriedOut a)) a.cmd.cid (.waitReply dst)

/-- The EPOCH message that a node originates (R398, R409). -/
def epochMessage (f id : Nat) (epoch : BitVec 32) (node : BitVec 16) : List Byte :=
  lay 64 [(0, 1, 4), (8, 1, f), (12, 4, id), (16, 4, epoch.toNat), (20, 2, node.toNat)]

/-! ### The node's own copy of a domain (R409) -/

/-- Parameters of a kind as numbers, and back; the layout of the copy is the model's. -/
def kindFields (k : ObjKind) : List Nat :=
  match k with
  | .data | .bitmap | .program => []
  | .listIndex d sim n => [d, b2n sim, n]
  | .graphIndex d sim n => [d, b2n sim, n]
  | .table fmt rows cols first n g => [fmt, rows, cols, first, n, g]
  | .group _ _ => []

def kindFrom (code : Nat) (v : List Nat) : ObjKind :=
  let x (i : Nat) : Nat := v.getD i 0
  match code with
  | 1 => .data
  | 2 => .bitmap
  | 3 => .listIndex (x 0) (x 1 == 1) (x 2)
  | 4 => .graphIndex (x 0) (x 1 == 1) (x 2)
  | 5 => .table (x 0) (x 1) (x 2) (x 3) (x 4) (x 5)
  | _ => .program

/-- A version in the copy: a 96-byte header and its bytes. -/
def copyRecord (oid : Nat) (o : Obj) (v : Version) : List Byte :=
  lay 96 ([(0, 4, oid), (4, 4, v.num), (8, 8, v.size), (16, 1, o.kind.code), (17, 1, o.hint.toNat), (18, 1, b2n (v.num == o.current)),
    (20, 4, o.next)] ++ ((kindFields o.kind).zipIdx).map (fun e => (24 + 8 * e.2, 8, e.1))) ++ v.bytes.readBytes 0 v.size

/-- The objects of a domain on this node. -/
def domainObjs (s : State) (f id : Nat) : List (Nat × Obj) :=
  s.space.objs.filter (fun e => e.2.fn == f && !e.2.destroyed && (if id = shareDomain f then !e.2.isGroup
    else e.1 == id))

/-- Every live version of the domain's objects, in ascending ID and number. -/
def copyBytes (s : State) (f id : Nat) : List Byte :=
  (domainObjs s f id).flatMap (fun e => e.2.versions.flatMap (copyRecord e.1 e.2))

/-- The versions of a copy: object, version, its place in the object, content. -/
structure Copied where
  oid : Nat
  num : Nat
  size : Nat
  kind : ObjKind
  hint : Nat
  current : Bool
  next : Nat
  bytes : List Byte

/-- The versions that the bytes of a copy hold. -/
def copiedFrom : Nat → List Byte → List Copied
  | 0, _ => []
  | n + 1, bs =>
    if bs.length < 96 then []
    else
      let size := field bs 8 8
      { oid := field bs 0 4, num := field bs 4 4, size := size, kind := kindFrom (field bs 16 1) ((List.range 6).map (fun i => field bs (24 + 8 * i) 8))
        hint := field bs 17 1, current := field bs 18 1 == 1, next := field bs 20 4, bytes := (bs.drop 96).take size } ::
        copiedFrom n (bs.drop (96 + size))

/-- A version of a copy taken in: an object for its first version, then the others behind it. -/
def installOne (s : State) (f : Nat) (epoch : BitVec 32) (c : Copied) : Option State :=
  let n := granules c.size
  let v : Version := { num := c.num, size := c.size, bytes := Mem.ofBytes c.bytes, origin := c.num }
  let o : Obj := (objOf s c.oid).getD {
    fn := f, kind := c.kind, hint := BitVec.ofNat 8 c.hint
    base := if c.kind.addressed then granule * lowestRange s f (2 ^ 33) n else 0, span := if c.kind.addressed then n else 0 }
  let o := { o with
    versions := o.versions ++ [v], epoch := epoch, next := c.next, tip := max o.tip c.num
    current := if c.current then c.num else o.current }
  -- the range is that of the current version (R154)
  let o := if c.current && c.kind.addressed then { o with base := granule * lowestRange s f c.oid n, span := n } else o
  let full : FullTest := if o.isIndex then ixFull v.bytes else fun _ => false
  let s := updFn (putObj s c.oid o) f (fun x => { x with objSerial := max x.objSerial (oidSerial c.oid) })
  placeAll s c.oid c.num none ((List.range n).map (fun g => (g, full g)))

/-- A whole copy installed; none where an ID is taken or a tier or limit has no room (R409). -/
def installCopy (s : State) (f : Nat) (epoch : BitVec 32) (cs : List Copied) : Option State :=
  if cs.any (fun c => (objOf s c.oid).isSome) then none
  else cs.foldl (fun s c => s.bind (fun s => installOne s f epoch c)) (some s)

/-- The number under which a domain's copy is held among the streams. -/
def copyId (id : Nat) : Nat := 2 ^ 32 + id

/-- The target's answer to a copy: OK or NO_SPACE (R409). -/
def answerCopy (s : State) (src f id : Nat) (st : Byte) : State :=
  sendPacket s 2 src f 0 id 0 true false [st.toNat, 0, 0, 0, 0, 0] []

/-- The cutover order reaches the target with the whole copy (R409): the domain is installed under its new epoch. -/
def installDomain (s : State) (src f id : Nat) (epoch : BitVec 32) : State :=
  match streamFor s f (copyId id) with
  | none => s
  | some st =>
    match st.whole? with
    | none => s
    | some bs =>
      let s := dropStream s f (copyId id)
      match installCopy s f epoch (copiedFrom bs.length bs) with
      | none => answerCopy s src f id stNoSpace
      | some s =>
        let s := noteDomain (if id = shareDomain f then updFn s f (fun x => { x with shareEpoch := epoch }) else s) f id epoch s.fabric.node 0
        answerCopy (postEvent s f 2 (BitVec.ofNat 32 id) epoch (s.fabric.node.setWidth 64)) src f id stOk

end Sys2Proof.Machine
end

