-- ==== Sys2Proof/Machine/FabricCmd.lean ====
section
/-! DEFINITION. The fabric commands beside COLLECTIVE (R147-R150, R397, R403, R409, R415, R530). -/

namespace Sys2Proof.Machine
open Sys2Proof

/-- R147, R148: GROUP_CREATE; the member at SELF_INDEX must be this node. -/
def execGroupCreate (cid : Nat) (s : State) : Out := withCmd s cid 0x600 (fun a =>
  let ms := memberList a.cmd
  let i := a.p 34 2
  if ms.getD i 65536 != s.fabric.node.toNat then fail s cid stInvalidParam
  else created s a (.group ms i) 0 [] 0 (fun _ => false))

/-- R129, R147: GROUP_DESTROY. -/
def execGroupDestroy (cid : Nat) (s : State) : Out := withCmd s cid 0x601 (fun a =>
  let t := target s a (a.p 32 4)
  let s := countForeign s a t.noWrite
  match t with
  | .missing => fail s cid stNoObject
  | .own o => if o.isGroup then finish (destroyObj s (a.p 32 4)) cid {} else fail s cid stInvalidParam
  | _ => finish s cid {})

/-- R149, R403: FABRIC_REQUEST sends the packet copied at admission and waits for its Reply. -/
def execFabricRequest (cid : Nat) (s : State) : Out := withCmd s cid 0x603 (fun a =>
  let oid := a.p 36 4
  let off := a.p 40 8
  let dst := a.p 32 2
  let t := target s a oid
  let n := a.carried.length
  let s := countForeign s a t.isForeign
  if t.isMissing then fail s cid stNoObject
  else if t.bad (fun o => !o.isData || beyond a oid o off n) then fail s cid stInvalidParam
  else if readFails .any a oid t off n then readFailed s a (readFails .lost a oid t off n)
  else sendCarried s a dst (domainEpoch s a.fn (field a.carried 32 4)))

/-- R397, R530: COMPOSE applies a message; with bit 30 whatever its sequence. -/
def execCompose (cid : Nat) (s : State) : Out := withCmd s cid 0x604 (fun a =>
  let m := slice (a.cmd.packet.drop 32) 0 64
  if composeOk m then finish (compose s m (a.has 30)) cid {} else fail s cid stInvalidParam)

/-- Whether an object is of the kind that MIGRATE names (R147). -/
def domainKindOk (k : Nat) (o : Obj) : Bool := (k == 0 && o.isIndex) || (k == 1 && o.isTable)

/-- Whether an admission before MIGRATE is still to change what it copies (R409). -/
def migrateBusy (s : State) (a : Adm) : Bool :=
  s.sched.admitted.any (fun b => decide (b.seq < a.seq) && b.cmd.opcode != 0x605 && migrating s b.cmd)

/-- R150, R409: MIGRATE pushes the domain's live versions to the target and sends the cutover order; it ends at cutover. It waits for changes
admitted before it. -/
def execMigrate (cid : Nat) (s : State) : Out := withCmd s cid 0x605 (fun a =>
  let id := a.p 32 4
  let f := oidFn id
  let k := a.p 36 1
  let dst := a.p 38 2
  let epoch := BitVec.ofNat 32 (a.p 40 4)
  if migrateBusy s a then s
  else if k ≠ 2 && (liveObj s id).isNone then fail s cid stNoObject
  else if (k ≠ 2 && (liveObj s id).any (fun o => !domainKindOk k o)) || (k == 2 && oidSerial id != 0) ||
      epoch.toNat ≤ (domainEpoch s f id).toNat then fail s cid stInvalidParam
  else if !reachable s 5 dst f id then fail s cid stInternal
  else
    let s := sendBytes s 5 dst f epoch id true (copyBytes s f id)
    setPhase (sendPacket s 7 dst f epoch id 0 true false [f, id, epoch.toNat, dst] []) cid .waitMigrate)

/-- R415: PORT_STATUS. -/
def execPortStatus (cid : Nat) (s : State) : Out := withCmd s cid 0x606 (fun _ =>
  finish s cid { data := (List.range 12).flatMap (fun p => portEntry (portOf s p)) })

/-- R409: the target has acknowledged: the domain leaves this node under its new epoch, every node in the route table is
told, and MIGRATE ends. -/
def execCutover (cid : Nat) (s : State) : Out :=
  match findAdm s cid with
  | none => .next s
  | some a =>
    if a.phase != .waitMigrate || a.cmd.opcode != 0x605 then .next s
    else
      let id := a.p 32 4
      let f := oidFn id
      let dst := a.p 38 2
      let epoch := BitVec.ofNat 32 (a.p 40 4)
      let s := learnEpoch s f id epoch (BitVec.ofNat 16 dst)
      let s := (domainObjs s f id).foldl (fun s e => destroyObj s e.1) s
      let s := (s.fabric.routes.map (·.1)).foldl (fun s d =>
        sendPacket s 8 d f 0 0 0 true false [] (epochMessage f id epoch (BitVec.ofNat 16 dst))) s
      .next (finish (postEvent s f 2 (BitVec.ofNat 32 id) epoch (BitVec.ofNat 64 dst)) cid {})

end Sys2Proof.Machine
end

