-- ==== Sys2Proof/Machine/FabricRows.lean ====
section
/-! DEFINITION. The events of ports and packets (R387-R413): training, flits, credits, the packets of the fabric,
retransmission, probes and reports. -/

namespace Sys2Proof.Machine
open Sys2Proof

/-! ### Ports (R388, R389) -/

/-- A port's state changed. -/
def setPortState (s : State) (p : Nat) (st : PortState) : State := updPort s p (fun x => { x with state := st })

/-- A port goes Down (R388, R389): no lane in use; what waits to leave by it takes another port of its route mask. -/
def portDown (s : State) (p : Nat) : State :=
  let s := updPort s p (fun x => { x with state := .down, width := 0, peer := 0xFFFF, since := now s })
  (outQueue s p).foldl (fun s r =>
    let r' := movePort s r
    if r'.port = p then s
    else sendWaiting (updRetained (wakeEgress s r'.port r) r (fun x => { x with port := r'.port })) r'.port) s

/-- The work that an unreachable destination ends (R149, R396): requests to it with INTERNAL; rankings go on. -/
def unreachableEnds (s : State) (dst : Nat) : State :=
  let s := { s with sched := { s.sched with admitted := s.sched.admitted.map (fun a =>
    if a.phase == .waitReply dst then { a with phase := .done (.bare stInternal) } else a) } }
  rankStepAll s

/-- A port has gone Down for want of a usable lane: destinations whose mask is left without an Active port are unreachable (R396,
R399, R414). -/
def portLost (s : State) (p : Nat) : State :=
  let s := portDown s p
  ((s.fabric.routes.map (·.1)).filter (fun d => (AMap.getD s.fabric.routes d 0).getLsbD p && (routePorts s d).isEmpty)).foldl unreachableEnds s

/-- R388: a partner on lane 0. -/
def execPortDetect (port : Nat) (s : State) : Out :=
  if (portOf s port).state == .detect then .next (setPortState s port .equalise) else .next s

/-- R388: the widest of 4, 2 and 1 whose lanes pass; the strap may hold a port to two (R479). -/
def execEqualiseEnd (port : Nat) (lanes : BitVec 4) (s : State) : Out :=
  if (portOf s port).state != .equalise then .next s
  else
    let pass (n : Nat) : Bool := (List.range n).all (fun i => lanes.getLsbD i)
    let w := if pass 4 && !strapTwoLanes s.boot then 4 else if pass 2 then 2 else if pass 1 then 1 else 0
    if w = 0 then .next (portLost s port) else .next (updPort s port (fun x => { x with state := .align, width := w }))

/-- R388: flits frame; the port is Active with the partner's number. -/
def execAlignEnd (port : Nat) (peer : BitVec 16) (s : State) : Out :=
  if (portOf s port).state != .align then .next s
  else .next (sendWaiting (updPort s port (fun x => { x with state := .active, peer := peer, badFlits := [] })) port)

/-- R388: 200 ms after the start of training the port is short of Active. -/
def execPortTrainTimeout (port : Nat) (s : State) : Out :=
  match (portOf s port).state with
  | .detect | .equalise | .align => .next (portLost (advanceTo s ((portOf s port).since + 20000000)) port)
  | _ => .next s

/-- R388: training is tried again 1 s after Down. -/
def execPortDownRetry (port : Nat) (s : State) : Out :=
  if (portOf s port).state == .down then
    let s := advanceTo s ((portOf s port).since + 100000000)
    .next (updPort s port (fun x => { x with state := .detect, since := now s }))
  else .next s

/-- An Active port begins to retrain (R389). -/
def startRetrain (s : State) (port : Nat) : State :=
  let s := updPort s port (fun x => { x with state := .retrain, retrains := satAdd x.retrains 1, badFlits := [] })
  let down := if portsActive s = 0 then now s else s.service.portsDownSince
  { s with service := { s.service with retrains24 := Hours.add s.service.retrains24, portsDownSince := down } }

/-- R389: a lane loses lock, or too many flits were beyond correction: an Active port retrains. -/
def execRetrain (port : Nat) (s : State) : Out :=
  if (portOf s port).state != .active then .next s else .next (startRetrain s port)

/-- R389: a retrain ends: Active with the unacknowledged flits replayed, or Down. -/
def execRetrainEnd (port : Nat) (active : Bool) (s : State) : Out :=
  if (portOf s port).state != .retrain then .next s
  else if !active then .next (portLost s port)
  else
    let s := setPortState s port .active
    let s := match (portOf s port).held.head? with
      | some q => emit s (.replayFrom port q)
      | none => s
    .next (sendWaiting s port)

/-! ### Flits (R390-R392) -/

/-- What the packet layer makes of the packet that ends in a flit (R394): drops are counted. -/
def countDrop (x : Port) (c : Option PktCheck) : Port :=
  match c with
  | some .badCrc => { x with crcDrops := satAdd x.crcDrops 1 }
  | some .badTag | some .badKind => { x with tagDrops := satAdd x.tagDrops 1 }
  | _ => x

/-- A replay request is a control flit and leaves against a control credit; without one it is owed (R391, R392). -/
def askReplay (s : State) (port : Nat) (fseq : BitVec 16) : State :=
  if (portOf s port).ctrlCredits = 0 then updPort s port (fun x => { x with askOwed := some fseq })
  else
    let s := updPort s port (fun x => { x with ctrlCredits := x.ctrlCredits - 1, askOwed := none, replays := satAdd x.replays 1 })
    emit { s with service := { s.service with replays24 := Hours.add s.service.replays24 } } (.replayAsk port fseq)

/-- R389-R391, R394: a flit: up to 8 byte errors are corrected; one beyond correction is discarded and replay asked
for, and the eighth such flit within 1 ms starts a retrain; data flits reach the packet layer in order and once. -/
def execFlitReceive (port : Nat) (flit : Flit) (s : State) : Out :=
  let x := portOf s port
  if x.state != .active then .next s
  else if 8 < flit.byteErrors then
    let bad := now s :: x.badFlits.filter (fun t => decide (now s < t + 100000))
    let s := askReplay (updPort s port (fun x => { x with badFlits := bad, discarding := true })) port x.rxFseq
    .next (if 8 ≤ bad.length then startRetrain s port else s)
  else
    let s := if flit.byteErrors = 0 then s else updPort s port (fun x => { x with corrected := satAdd x.corrected 1 })
    if flit.kind ≠ 1 || flit.fseq ≠ x.rxFseq then .next s
    else .next (updPort s port (fun x => countDrop { x with rxFseq := x.rxFseq + 1, discarding := false } flit.ends))

/-- R391: the transmitter sends again from the flit asked for, while its replay buffer holds it. -/
def execReplayRequest (port : Nat) (fseq : BitVec 16) (s : State) : Out :=
  if (portOf s port).held.contains fseq then .next (emit s (.replayFrom port fseq)) else .next s

/-- R392: credits return, 4,096 of a class at most; what waited for them goes out. -/
def execCreditReturn (port : Nat) (control : Bool) (n : Nat) (s : State) : Out :=
  if control then
    let s := updPort s port (fun x => { x with ctrlCredits := min 4096 (x.ctrlCredits + n) })
    .next ((portOf s port).askOwed.elim s (askReplay s port))
  else .next (sendWaiting (updPort s port (fun x => { x with dataCredits := min 4096 (x.dataCredits + n) })) port)

/-! ### Requests and replies (R149, R403, R410) -/

/-- Whether a work packet's domain has moved under a later epoch (R410). -/
def movedDomain (s : State) (f : Nat) (epoch : BitVec 32) (ids : List Nat) : Option Domain :=
  s.fabric.domains.find? (fun d => d.fn == f && ids.contains d.id && epoch != 0 &&
    decide (epoch.toNat < d.epoch.toNat) && d.node != s.fabric.node)

/-- A carried command is committed at its arrival (R403). -/
def commitCarried (s : State) (src f ctx us : Nat) (bs : List Byte) : State :=
  let c : Cmd := { cid := s.sched.nextCid, fn := f, origin := .fabric src ctx, packet := bs, commit := now s
                   deadline := if us = 0 then none else some (now s + 100 * us) }
  let s := { s with sched := { s.sched with nextCid := s.sched.nextCid + 1 } }
  if (fnOf s f).flr then sendReply s src f ctx (.bare stNoObject)
  else updFn s f (fun x => { x with fabQ := x.fabQ ++ [c] })

/-- R403, R370, R410: a Request: a ranking part is answered, work of an old epoch told where its domain went, a carried
command committed. -/
def execRequest (pkt : Packet) (remainingUs : Nat) (s : State) : Out :=
  withPacket s pkt false true (fun s =>
    let s := wakeNode s
    let (s, b) := putInbox s 1 pkt [remainingUs]
    match b.whole? with
    | none => s
    | some bs =>
      let s := dropInbox s b
      let part := field bs 0 2 == 0xFFFF
      match movedDomain s pkt.fn pkt.epoch (shareDomain pkt.fn :: (if part then [] else [field bs 32 4])) with
      | some d => sendPacket s 7 pkt.src pkt.fn d.epoch d.id 0 true false [d.fn, d.id, d.epoch.toNat, d.node.toNat] []
      | none =>
        if part then answerPart s pkt.src pkt.fn pkt.ctx bs
        else commitCarried s pkt.src pkt.fn pkt.ctx (b.extra.getD 0 0) bs)

/-- A command that waits for this Reply. -/
def replyFor (s : State) (src f ctx : Nat) : Option Adm :=
  s.sched.admitted.find? (fun a => a.cmd.fn == f && a.cmd.cid % 2 ^ 32 == ctx && a.phase == .waitReply src)

/-- R149, R409, R427: a Reply: result data and reply fields of a carried command; of a MIGRATE, the target's refusal. -/
def execReply (pkt : Packet) (fields : ReplyFields) (s : State) : Out :=
  withPacket s pkt true (slotRoom s pkt) (fun s =>
    match s.sched.admitted.find? (fun a => a.phase == .waitMigrate && a.p 32 4 == pkt.ctx && a.p 38 2 == pkt.src) with
    | some a => if fields.status = stOk then s else fail s a.cmd.cid stNoSpace
    | none =>
      match replyFor s pkt.src pkt.fn pkt.ctx with
      | none => s
      | some a =>
        let new := (s.fabric.inbox.find? (fun b => b.kind == 2 && b.fn == pkt.fn && b.src == pkt.src && b.ctx == pkt.ctx)).isNone
        let s := if new then forgetSlots s true pkt.fn pkt.src pkt.ctx else s
        let (s, b) := putInbox s 2 pkt [fields.status.toNat, fields.rflags.toNat, fields.count.toNat, fields.invalid.toNat,
          fields.version.toNat, fields.value.toNat]
        match b.whole? with
        | none => takeSlot s pkt true pkt.src pkt.ctx
        | some bs =>
          let x (i : Nat) : Nat := b.extra.getD i 0
          finish (dropInbox s b) a.cmd.cid { status := BitVec.ofNat 8 (x 0), rflags := BitVec.ofNat 8 (x 1), count := BitVec.ofNat 32 (x 2)
                                             invalid := BitVec.ofNat 32 (x 3), version := BitVec.ofNat 32 (x 4)
                                             value := BitVec.ofNat 32 (x 5), data := bs })

/-! ### Collectives (R404-R407) -/

/-- Bytes that may be held for work not yet begun (R404). -/
def heldLimit : Nat := 67108864

/-- A contribution taken into its collective, or held (R148, R404). -/
def takeContribution (s : State) (pkt : Packet) (members : List Nat) (member : Nat) : State :=
  let h := slice pkt.payload 0 16
  let part := (member, pkt.offset, pkt.payload.drop 16)
  let kind := field h 0 1
  match collOf s pkt.fn members pkt.ctx with
  | none =>
    let late := (pkt.fn, members, pkt.ctx, member)
    if pkt.payload.length ≤ 16 && s.fabric.late.contains late then
      { s with fabric := { s.fabric with late := s.fabric.late.erase late } }
    else if kind = 255 then
      let c : Coll := { fn := pkt.fn, members := members, seq := pkt.ctx, kind := 255, root := 0, len := 0, k := 0 }
      putColl s (c.spoiled (field h 4 8))
    else putColl s {
      fn := pkt.fn, members := members, seq := pkt.ctx, kind := kind, root := field h 2 2, len := field h 4 8, k := field h 12 4
      parts := [part] }
  | some c =>
    if c.agrees kind (field h 2 2) (field h 4 8) (field h 12 4) then
      let c := { c with parts := c.parts ++ [part] }
      collStep (putColl s c) c
    else
      let s := if c.begun && kind ≠ 255 then sendDisagreement s c else s
      let c := c.spoiled (if kind = 255 then field h 4 8 else stInvalidParam.toNat)
      collStep (putColl s c) c

/-- R372, R404, R407: a Contribution, held within 64 MiB before its collective begins; one of another epoch is rejected
and asked for again. -/
def execContribution (pkt : Packet) (members : List Nat) (member : Nat) (s : State) : Out :=
  let begun := (collOf s pkt.fn members pkt.ctx).any (·.begun) || field pkt.payload 0 1 == 5
  withPacket s pkt false (begun || decide (heldBytes s + pkt.payload.length ≤ heldLimit)) (fun s =>
    let s := wakeNode s
    if field pkt.payload 0 1 = 5 then
      rankContribution s pkt.src pkt.fn pkt.ctx member pkt.epoch pkt.offset (slice pkt.payload 0 16) (pkt.payload.drop 16)
    else
      let share := (fnOf s pkt.fn).shareEpoch
      if pkt.epoch ≠ share then
        sendPacket (countRejected s pkt.fn (shareDomain pkt.fn)) 7 pkt.src pkt.fn share (shareDomain pkt.fn) 0 true false
          [pkt.fn, shareDomain pkt.fn, share.toNat, s.fabric.node.toNat] []
      else takeContribution s pkt members member)

/-- R405: a Delivery to a member that has begun its part. -/
def execDelivery (pkt : Packet) (members : List Nat) (s : State) : Out :=
  withPacket s pkt false true (fun s =>
    match collOf s pkt.fn members pkt.ctx with
    | none => s
    | some c =>
      if !c.begun || c.forms then s
      else
        let c := { c with
          got := c.got ++ [(pkt.offset, false, pkt.payload)]
          gotEnd := if pkt.last then some (pkt.offset + pkt.payload.length) else c.gotEnd }
        collStep (putColl s c) c)

/-! ### Pushed streams (R412, R413, R422, R423) -/

/-- Whether a compressed payload fails its header checks (R422, R423). -/
def pushBad (pkt : Packet) : Bool :=
  pkt.compressed && (match parseFrame pkt.payload with
    | none => true
    | some (f, rest) => f.xoff != pkt.offset || !rest.isEmpty)

/-- The expanded end of a push packet. -/
def pushEnd (pkt : Packet) : Nat :=
  if !pkt.compressed then pkt.offset + pkt.payload.length
  else match parseFrame pkt.payload with
    | some (f, _) => if f.ftype = 2 then pkt.offset else f.xoff + f.xlen
    | none => pkt.offset

/-- The stream of a push packet: of a load, or of a domain's copy where the packet carries an epoch. -/
def pushId (pkt : Packet) : Nat := if pkt.epoch = 0 then pkt.ctx else copyId pkt.ctx

/-- A push packet put into its stream. -/
def takePush (s : State) (pkt : Packet) : State :=
  let st := (streamFor s pkt.fn (pushId pkt)).getD { fn := pkt.fn, id := pushId pkt, gained := now s }
  let before := contiguousEnd st.placed
  let st := if pushBad pkt then { st with discarded := true, parts := [] }
    else { st with
      parts := if st.discarded then [] else st.parts ++ [(pkt.offset, pkt.compressed, pkt.payload)]
      last := if pkt.last then some (pushEnd pkt) else st.last }
  let st := if before < contiguousEnd st.placed then { st with gained := now s } else st
  let s := if (streamFor s pkt.fn (pushId pkt)).isNone then forgetSlots s false pkt.fn 0 (pushId pkt) else s
  let s := dropStream s pkt.fn (pushId pkt)
  let s : State := { s with fabric := { s.fabric with streams := s.fabric.streams ++ [st] } }
  takeSlot s pkt false 0 (pushId pkt)

/-- R412, R413, R427: a Push, within the stream's window of 16 MiB and, before its load is admitted, the limit of R404. -/
def execPush (pkt : Packet) (s : State) : Out :=
  let taken := s.sched.admitted.any (fun a => (a.cmd.opcode == 0x202 || a.cmd.opcode == 0x401) && a.fn == pkt.fn &&
    a.p 36 1 == 2 && a.p 56 4 == pkt.ctx)
  let done := (streamFor s pkt.fn (pushId pkt)).elim 0 (fun st => contiguousEnd st.placed)
  let room := (taken || pkt.epoch != 0 || decide (heldBytes s + pkt.payload.length ≤ heldLimit)) && decide (pushEnd pkt ≤ done + 16777216) &&
    slotRoom s pkt
  withPacket s pkt true room (fun s => takePush (wakeNode s) pkt)

/-- R413: 10 s after a stream gained its last contiguous byte it is abandoned; its load ends with INTERNAL. -/
def execStreamAbandon (fn stream : Nat) (s : State) : Out :=
  match (streamFor s fn stream).filter (fun st => st.whole?.isNone) with
  | none => .next s
  | some st =>
    let s := advanceTo s (st.gained + 1000000000)
    let loads := s.sched.admitted.filter (fun a => (a.cmd.opcode == 0x202 || a.cmd.opcode == 0x401) && a.fn == fn && a.phase == .running &&
      a.p 36 1 == 2 && a.p 56 4 == stream)
    .next (loads.foldl (fun s a => loadEnds s a (a.p 32 4) (.bare stInternal)) (dropStream s fn stream))

/-! ### Acknowledgement, retransmission, probes (R395, R396) -/

/-- R395, R396: an Ack releases the packets kept for a node, which is reachable again. -/
def execAck (src : Nat) (seqs : List (BitVec 32)) (s : State) : Out :=
  if s.fabric.node = 0xFFFF || s.glaesh.nodeKey.isNone then .next s
  else .next (collStepAll { s with fabric := { s.fabric with
    retained := s.fabric.retained.filter (fun r => !(r.dst == src && seqs.contains r.seq))
    unreachable := s.fabric.unreachable.filter (· != src) } })

/-- R395: a packet is sent again on the next port of the mask; after 8 sends its destination is marked unreachable. -/
def execRetransmitTimeout (dst : Nat) (seq : BitVec 32) (s : State) : Out :=
  match s.fabric.retained.find? (fun r => r.dst == dst && r.seq == seq && r.sends != 0) with
  | none => .next s
  | some r =>
    let s := advanceTo s (r.sentAt + 5000)
    if 8 ≤ r.sends then
      .next (unreachableEnds { s with fabric := { s.fabric with
        retained := s.fabric.retained.filter (fun r => r.dst != dst)
        unreachable := dst :: s.fabric.unreachable.filter (· != dst)
        unreachableCount := satAdd s.fabric.unreachableCount 1 } } dst)
    else
      if (routePorts s dst).isEmpty then .next (updRetained s r (fun x => { x with sends := x.sends + 1, sentAt := now s }))
      else
        let p := (movePort s r).port
        .next (sendWaiting (updRetained s r (fun x => { x with port := p, again := true })) p)

/-- R396: one probe goes to an unreachable destination. -/
def execProbe (dst : Nat) (s : State) : Out :=
  if !s.fabric.unreachable.contains dst || s.fabric.node = 0xFFFF || s.glaesh.nodeKey.isNone then .next s
  else match routePort s dst 0 0 with
    | none => .next s
    | some p =>
      let s := recur s (.probe dst)
      let n := AMap.getD s.fabric.sendSeq dst 0
      let q : BitVec 32 := BitVec.ofNat 32 n.toNat
      let em : Emission := .packet 9 dst 0 0 q 0 0 0 true false [] []
      .next (enqueuePacket { s with fabric := { s.fabric with sendSeq := AMap.insert s.fabric.sendSeq dst (n + 1) } }
        { dst := dst, seq := q, fn := 0, em := em, flits := 1, sends := 0, port := p, once := true })

/-! ### Composition and domains (R397-R400, R410) -/

/-- Carried commands of a domain that a node answered with Moved go on to the domain's node under the present epoch (R43, R149,
R410). -/
def forwardCarried (s : State) (src f id : Nat) (node : BitVec 16) : State :=
  (s.sched.admitted.filter (fun a => a.cmd.fn == f && a.phase == .waitReply src &&
      (id == shareDomain f || field a.carried 32 4 == id))).foldl
    (fun s a => sendCarried s a node.toNat (domainEpoch s f (if id = shareDomain f then id else field a.carried 32 4))) s

/-- R410, R409: a Moved packet gives a domain's new epoch and node; to the node named it is the cutover order. -/
def execMoved (src : Nat) (seq : BitVec 32) (fn domain : Nat) (epoch : BitVec 32) (node : BitVec 16) (s : State) : Out :=
  withNodePacket s src seq (fun s =>
    if node = s.fabric.node && (streamFor s fn (copyId domain)).isSome then installDomain s src fn domain epoch
    else forwardCarried (learnEpoch s fn domain epoch node) src fn domain node)

/-- An action of the run-time: applied behind the sequence test (R397). -/
def composed (s : State) (cseq : BitVec 32) (ok : Bool) (act : State → State) : State :=
  if ok && cseqOk s cseq false then setCseq (act s) cseq false else s

/-- R397: NODE. -/
def execNode (src : Nat) (seq cseq : BitVec 32) (number runtimeNode : BitVec 16) (reportMs : BitVec 32) (s : State) : Out :=
  withComposition s src seq (fun s =>
    composed s cseq (number.toNat ≤ 4095 && 10 ≤ reportMs.toNat && reportMs.toNat ≤ 10000) (applyNode · number runtimeNode reportMs))

/-- R399: ROUTE. -/
def execRoute (src : Nat) (seq cseq : BitVec 32) (first count mask : BitVec 16) (s : State) : Out :=
  withComposition s src seq (fun s =>
    composed s cseq (1 ≤ count.toNat && count.toNat ≤ 4096 && first.toNat + count.toNat ≤ 4096 && mask.toNat < 4096)
      (applyRoute · first.toNat count.toNat mask))

/-- R400: TENANT. -/
def execTenant (src : Nat) (seq cseq : BitVec 32) (fn : Nat) (features : BitVec 32) (s : State) : Out :=
  withComposition s src seq (fun s => composed s cseq true (applyTenant · fn features))

/-- R398: EPOCH; from another node with CSEQ 0 it leaves the sequence alone. -/
def execEpoch (src : Nat) (seq cseq : BitVec 32) (fn : Nat) (domain newEpoch : BitVec 32) (newNode : BitVec 16) (s : State) : Out :=
  withComposition s src seq (fun s =>
    if cseq = 0 then learnEpoch s fn domain.toNat newEpoch newNode
    else composed s cseq true (learnEpoch · fn domain.toNat newEpoch newNode))

/-- R397: DRAIN. -/
def execDrain (src : Nat) (seq cseq : BitVec 32) (fn : Option Nat) (s : State) : Out :=
  withComposition s src seq (fun s => composed s cseq true (applyDrain · fn true))

/-- R397: UNDRAIN. -/
def execUndrain (src : Nat) (seq cseq : BitVec 32) (fn : Option Nat) (s : State) : Out :=
  withComposition s src seq (fun s => composed s cseq true (applyDrain · fn false))

/-! ### Reports (R402, R411, R528) -/

/-- R402: the periodic health report, once the node has been told of its run-time. -/
def execReport (s : State) : Out :=
  if s.fabric.runtime = 0xFFFF then .next s
  else
    let s := recur s .report
    .next (sendReport s 1 (healthRecord s))

/-- Whether work of a domain's old epoch is outstanding: a list or step issued under it and not merged, a carried command not yet
replied to (R411). -/
def oldWork (s : State) (d : Domain) : Bool :=
  s.sched.admitted.any (fun a => a.cmd.fn == d.fn && a.cmd.isSearch && a.p 32 4 == d.id &&
    a.work.any (fun w => w.2 == d.old && !a.merged.contains w.1))

/-- R411, R528: the one epoch report of a domain, once no work of the old epoch is outstanding, or 1 s after the cutover was learned. -/
def execEpochReport (fn domain : Nat) (s : State) : Out :=
  match (domainOf s fn domain).filter (·.owed) with
  | none => .next s
  | some d =>
    let s := if oldWork s d then advanceTo s (d.learned + 100000000) else s
    let s := sendReport s 2 (lay 16 [(0, 1, fn), (4, 4, domain), (8, 4, d.old.toNat), (12, 4, d.rejected.toNat)])
    .next { s with fabric := { s.fabric with domains := s.fabric.domains.map (fun x =>
      if x.fn == fn && x.id == domain then { x with owed := false, rejected := 0 } else x) } }

/-- R408: a collective descriptor passes its deadline: STATUS 4. -/
def execCollectiveDescriptorDeadline (fn seq : Nat) (s : State) : Out :=
  match s.fabric.colls.find? (fun c => c.fn == fn && c.seq == seq && c.begun &&
      c.desc.any (fun d => field d.2.1 44 4 != 0)) with
  | none => .next s
  | some c => match c.desc with
    | none => .next s
    | some d => .next (collWord (dropColl (advanceTo s (d.2.2 + 100 * field d.2.1 44 4)) c) d.1 d.2.1 4 0)

end Sys2Proof.Machine
end

