-- ==== Sys2Proof/Machine/Reed.lean ====
section
/-! DEFINITION. Reeds (R335-R354): the reed descriptor, its checks, and the rows REED_START and REED_COMPLETE. -/

namespace Sys2Proof.Machine
open Sys2Proof

/-- A reed (R335). -/
def reedOf (s : State) (r : Nat) : Reed := AMap.getD s.reeds.reeds r {}

/-- A reed changed. -/
def updReed (s : State) (r : Nat) (g : Reed → Reed) : State :=
  { s with reeds := { s.reeds with reeds := AMap.insert s.reeds.reeds r (g (reedOf s r)) } }

/-- Bytes of one source entry (R352). -/
def reedWidth (rop : Nat) : Nat := match rop with | 0 => 24 | 1 => 8 | _ => 4

/-- Whether a reed rejects a descriptor that an instance issues (R353); one out of service takes none (R516). -/
def reedRejects (s : State) (i : Instance) (loom r : Nat) (feats : BitVec 128) (d : List Byte) : Bool :=
  let rop := field d 0 1
  let k := field d 4 4
  let spill := field d 40 8
  decide (2 < rop) || decide (8 ≤ field d 1 1) || !zeroIn d 2 4 || decide (65536 ≤ field d 32 4) || !zeroIn d 36 40 || !zeroIn d 56 64 ||
  (rop == 1 && !feats.getLsbD 5) || (rop != 2 && !kOk feats k) ||
  field d 16 8 % 8 != 0 || field d 24 8 % 8 != 0 || spill % 64 != 0 || field d 48 8 % 16 != 0 ||
  (rop != 2 && 1025 ≤ k && k ≤ 65536 &&
    !(match shAddr spill with
      | .weave off => inRegion i loom off (24 * k + 4096)
      | _ => false)) ||
  (s.reeds.argmaxOnly.getLsbD r && rop != 2) || (reedOf s r).out

/-- The completion word of a descriptor (R354), and the arrival behind it. -/
def reedEnds (s : State) (d : ReedDesc) (i : Instance) (status count invalid : Nat) : State :=
  let s := progWrite s d.inst i d.loom (field d.desc 48 8) (lay 16 [(0, 4, status), (4, 4, count), (8, 4, invalid)])
  if bit (field d.desc 1 1) 2 then arriveFor s d.fn (field d.desc 32 2) 1 else s

/-- The records of a descriptor's source, and whether an address was unassigned (R276, R352). -/
def reedSource (s : State) (d : ReedDesc) (i : Instance) : List (Nat × List Byte) × Bool :=
  let w := reedWidth (field d.desc 0 1)
  let rs := (List.range (field d.desc 8 8)).map (fun j => (j, progRead s i d.loom (field d.desc 16 8 + w * j) w))
  (rs.map (fun r => (r.1, r.2.1)), rs.any (fun r => r.2.2))

/-- Whether a read of a descriptor's source fails (R354, R516). -/
def reedBad (m : Bad) (s : State) (d : ReedDesc) (i : Instance) : Bool :=
  let w := reedWidth (field d.desc 0 1)
  (List.range (field d.desc 8 8)).any (fun j => progBad m s i (field d.desc 16 8 + w * j) w)

/-- The selection of a descriptor and its completion (R352, R354). -/
def reedRun (s : State) (d : ReedDesc) (i : Instance) : State :=
  let rop := field d.desc 0 1
  let k := field d.desc 4 4
  let n := field d.desc 8 8
  let fl := field d.desc 1 1
  if rop ≠ 2 && k = 0 then reedEnds s d i 0 0 0
  else if n = 0 then reedEnds s d i 1 0 0
  else if reedBad .lost s d i then reedEnds (updFn s d.fn (fun x => { x with tierFail := satAdd x.tierFail 1 })) d i 3 0 0
  else if reedBad .any s d i then reedEnds s d i 3 0 0
  else
    let (recs, bad) := reedSource s d i
    let s := if bad then progViolate s d.inst else s
    let r := selectCore rop (bit fl 0) (bit fl 1) k recs
    let s := countKeys s d.fn (if rop = 0 && bit fl 1 then 2 * n else n)
    let s := if rop = 2 then s else countSpill s k
    let s := if r.data.isEmpty then s else progWrite s d.inst i d.loom (field d.desc 24 8) r.data
    reedEnds s d i r.status.toNat r.count.toNat r.invalid.toNat

/-- R336: the reed starts the descriptor that reached it first; a large-k one without spill storage ends stopped (R354). -/
def execReedStart (r : Nat) (s : State) : Out :=
  let x := reedOf s r
  match x.running, x.queue with
  | none, d :: rest =>
    let k := field d.desc 4 4
    let s' := updReed s r (fun x => { x with queue := rest })
    if field d.desc 0 1 ≠ 2 && field d.desc 8 8 ≠ 0 && !largeFits s (if 65536 < k then k else 0) then
      .next ((AMap.get? s.prog.instances d.inst).elim s' (fun i => reedEnds s' d i 2 0 0))
    else
      let s := updReed s r (fun x => { x with queue := rest, running := some d })
      let n := field d.desc 8 8 * reedWidth (field d.desc 0 1)
      .next (((AMap.get? s.prog.instances d.inst).bind (fun i => shPlace s i (field d.desc 16 8))).elim s
        (fun p => queueRange s (.reed r) p.1 p.2.2 p.2.1 n none))
  | _, _ => .next s

/-- An uncorrectable error in a reed's tournament storage (R516): the reed leaves service, and the instances whose
descriptors it ran or kept end with END 1. -/
def storeError (s : State) (r : Nat) : State :=
  let x := reedOf s r
  let s := updReed s r (fun x => { x with out := true, ue := satAdd x.ue 1 })
  ((x.running.toList ++ x.queue).map (·.inst)).eraseDups.foldl (fun s no => instanceEnds s no { code := 1 }) s

/-- Whether a reed's source, output or completion word lies in part on a channel that holds ordinary requests (R209, R210). -/
def reedHeld (s : State) (d : ReedDesc) : Bool :=
  (AMap.get? s.prog.instances d.inst).any (fun i =>
    shRangeHeld s i (field d.desc 16 8) (field d.desc 8 8 * reedWidth (field d.desc 0 1)) ||
    shRangeHeld s i (field d.desc 24 8) (24 * field d.desc 4 4) || shRangeHeld s i (field d.desc 48 8) 16)

/-- R354, R516: the reed's running descriptor completes; it waits while a channel holds its accesses. -/
def execReedComplete (r : Nat) (ecc : Ecc) (s : State) : Out :=
  match (reedOf s r).running with
  | none => .next s
  | some d =>
    if ecc = .uncorrectable then .next (storeError s r)
    else if reedHeld s d then .next s
    else
    let s := updReed s r (fun x => { x with running := none })
    .next ((AMap.get? s.prog.instances d.inst).elim s (reedRun s d))

end Sys2Proof.Machine
end

