-- ==== Sys2Proof/Machine/Flash.lean ====
section
/-! DEFINITION. Events of the peat tier (R162, R163, R181, R185, R189, R191-R204, R466): reads through the ladder,
programs, erases, the journal and the map, wear levelling, patrol, a die that does not answer, granule moves. -/

namespace Sys2Proof.Machine
open Sys2Proof

/-- A frame of an object's version. -/
def frameNamed (s : State) (oid ver g : Nat) : Option Frame :=
  (objOf s oid).bind (fun o => o.frames.find? (fun fr => fr.ver == ver && fr.gran == g))

/-- The contents of granules are lost (R193, R194, R204). -/
def markLost (s : State) (ls : List Loc) : State :=
  ls.foldl (fun s l => updFrame s l.obj l.ver l.gran (fun fr => if fr.tier == .near then fr else { fr with lost := true }))
    { s with flash := loseGranules s.flash ls }

/-- The flash after a change, with its lost granules marked and a fall of the capacity posted (R202, R520). -/
def afterMedia (s : State) (r : Flash × List Loc) : State :=
  let was := s.flash.capacity
  let s := markLost { s with flash := r.1 } r.2
  if s.flash.capacity = was then s else postEvent s 0 7 s.flash.capacity 0 0

/-- A block set is retired (R200); a die is declared failed (R194). -/
def retire (s : State) (d b : Nat) : State := afterMedia s (retireSet s.flash d b)
def dieFails (s : State) (d : Nat) : State := afterMedia s (failDie s.flash d)

/-! ### Reads -/

/-- Senses that a read took before its stage 4 or its end (R195): stage 1 one, the soft decode two more, then up to eight
offset sets of both. How many sets stage 3 needed is free. -/
def ladderSenses (s : State) : FlashOutcome → Nat
  | .corrected 1 => 1
  | .corrected 2 => 3
  | .corrected _ => 4 + Config.retrySenses s.fresh % 24
  | .rebuilt _ => 27
  | .viaStripe => 0
  | .unrecoverable => 27

/-- Codewords of a granule were rebuilt from its stripe, whose other members are sensed (R193): the set is relocated and suspect;
a second rebuild retires it. On a failed die no set is left to mark. -/
def rebuildIn (s : State) (l : Loc) (bad : List Nat) : State :=
  let fl := senseOthers s.flash l bad
  let c := l.die / 16
  let fl := { fl with
    rebuilds := satAdd fl.rebuilds bad.length, rebuilt := AMap.insert fl.rebuilt c (AMap.getD fl.rebuilt c 0 + bad.length) }
  if (dieOf fl l.die).failed then { s with flash := fl }
  else if (blockSetOf (dieOf fl l.die) l.set).suspect then retire { s with flash := fl } l.die l.set
  else { s with flash := updSet (relocate fl l.die l.set) l.die l.set (fun x => { x with suspect := true }) }

/-- A read needed stage 2 or beyond: counted, and its block set is relocated (R195, R517, R549). -/
def softIn (s : State) (l : Loc) : State :=
  let c := l.die / 16
  let fl := { s.flash with soft := AMap.insert s.flash.soft c (AMap.getD s.flash.soft c 0 + 1) }
  let fl := if (dieOf fl l.die).failed then fl else relocate fl l.die l.set
  { s with flash := fl, service := { s.service with soft24 := Hours.add s.service.soft24 } }

/-- The read-retry offset set applied last, by its number (R185, R186, R195). -/
def retrySet (senses : Nat) : Nat := min 8 ((senses - 1) / 3)

/-- The ladder on the die of a granule (R195): its planes are sensed, the retry offsets applied. -/
def ladderRead (s : State) (l : Loc) (need : List Nat) (o : FlashOutcome) : State :=
  let n := ladderSenses s o
  let fl := senseSet s.flash l.die l.set n (planesOf need)
  let fl := if n < 4 then fl else updDie fl l.die (fun x => { x with offset := retrySet n })
  { s with flash := fl, fresh := s.fresh + 1 }

/-- What a read of a place can come to (R193, R194, R196): a lost granule gives nothing; a failed die's granule is always rebuilt;
a rebuild needs every other member of the stripe. -/
def readOutcome (s : State) (l : Loc) (need : List Nat) (lost : Bool) (o : FlashOutcome) : FlashOutcome :=
  if lost then .unrecoverable
  else
    let o := if (dieOf s.flash l.die).failed then (match o with | .unrecoverable => .unrecoverable | _ => .rebuilt need) else o
    match o with
    | .rebuilt _ => if stripeShort s.flash l then .unrecoverable else o
    | _ => o

/-- What the media do for a read of codewords of a granule (R193-R196, R201). -/
def mediaRead (s : State) (l : Loc) (need : List Nat) (o : FlashOutcome) : State :=
  match o with
  | .corrected 1 => ladderRead s l need o
  | .corrected _ => softIn (ladderRead s l need o) l
  | .rebuilt bad => if (dieOf s.flash l.die).failed then rebuildIn s l bad else rebuildIn (softIn (ladderRead s l need o) l) l bad
  | .viaStripe => { s with flash := senseOthers s.flash l need }
  | .unrecoverable =>
    let s := if (dieOf s.flash l.die).failed then s else softIn (ladderRead s l need o) l
    markLost { s with flash := senseOthers s.flash l need } [l]

/-- Energy of a read (R466): the senses of its planes and its codewords, on its own die and, where the stripe is read, on every
other member. -/
def mediaEnergy (s : State) (l : Loc) (need : List Nat) (o : FlashOutcome) : Nat :=
  let own := if (dieOf s.flash l.die).failed then 0
    else readEnergy ((planesOf need).length * ladderSenses s o) (if o == .viaStripe then 0 else need.length)
  let across (bad : List Nat) : Nat := (stripeOthers s.flash l).length * readEnergy (planesOf bad).length bad.length
  own + (match o with
    | .rebuilt bad => across bad
    | .viaStripe => across need
    | .unrecoverable => across need
    | .corrected _ => 0)

/-- Whether a busy die's read is served from its stripe (R196): the die programs or erases, no other member erases, and none is
lost. -/
def stripeServes (s : State) (l : Loc) : Bool :=
  dieBusy s.flash l.die && !((membersOf s.flash l).any (fun m => m.1 != l.die && dieErases s.flash m.1)) && !stripeShort s.flash l

/-- The function a flash read works for (R466). -/
def clientFn (s : State) : FlashClient → Option Nat
  | .command cid => (findAdm s cid).map (·.cmd.fn)
  | .list cid _ => (findAdm s cid).map (·.cmd.fn)
  | .aperture f _ _ => some f
  | .shuttle sh => (AMap.get? s.prog.instances (shuttleOf s sh).inst).map (·.fn)
  | .array l => ((AMap.getD s.looms.looms l {}).dq.head?).map (·.fn)
  | .reed r => ((AMap.getD s.reeds.reeds r {}).running).map (·.fn)
  | .background => none

/-- The version a client reads of an object: the one its command or instance has pinned, else the current one (R169, R300). -/
def clientVer (s : State) (oid : Nat) (o : Obj) : FlashClient → Nat
  | .command cid => ((findAdm s cid).bind (fun a => a.pins.find? (·.1 == oid))).elim o.current (·.2)
  | .list cid _ => ((findAdm s cid).bind (fun a => a.pins.find? (·.1 == oid))).elim o.current (·.2)
  | .shuttle sh => ((AMap.get? s.prog.instances (shuttleOf s sh).inst).bind (fun i => i.slots.find? (·.1 == oid))).elim o.current (·.2)
  | .aperture f off len =>
    (s.space.apReads.find? (fun r => r.fn == f && r.bar == off && r.len == len && r.oid == oid)).elim o.current (·.ver)
  | .array l => ((loomOf s l).dq.head?.filter (fun d => (arrOf d.desc).src == oid)).elim o.current (·.ver)
  | .reed r => ((reedOf s r).running.bind (fun d => (AMap.get? s.prog.instances d.inst).bind (fun i => i.slots.find? (·.1 == oid)))).elim
      o.current (·.2)
  | .background => o.current

/-- The queue of the die of a granule with a read of it: the one that waits, else one that arrives now (R197). -/
def readQueue (s : State) (l : Loc) (client : FlashClient) : List FlashRead × FlashRead :=
  let q := dieQueue s l.die
  let r : FlashRead := ⟨client, l.obj, l.ver, l.gran, clientDeadline s client⟩
  if q.contains r then (q, r) else (sortBy (fun a b => readBefore a.deadline b.deadline) (q ++ [r]), r)

/-- Whether a read is served now (R197): a request read when it is first at its die; background work has its share. -/
def readTurn (s : State) (l : Loc) (client : FlashClient) : Bool :=
  client == .background || (let (q, r) := readQueue s l client; q.head? == some r)

/-- Share of a die's time and channel time, in percent, that background work takes at most while request reads are queued (R197). -/
inductive Background where
  | relocation | garbage | rebuild
deriving DecidableEq, Repr
def backgroundShare (fl : Flash) (d : Nat) : Background → Nat
  | .relocation => 10
  | .garbage => if (List.range 828).countP (fun b => (blockSetOf (dieOf fl d) b).state == .free) < 17 then 50 else 10
  | .rebuild => 25

/-- A read has left its die's queue, with what no longer waits there. -/
def readGone (s : State) (client : FlashClient) (oid ver g : Nat) : State :=
  let r : FlashRead := ⟨client, oid, ver, g, clientDeadline s client⟩
  { s with flash := { s.flash with reads := (s.flash.reads.erase r).filter (readAlive s) } }

/-- An aperture read gets its bytes, or ends by Completer Abort (R173). -/
def apAnswer (s : State) (w : ApRead) (good : Bool) : State :=
  let s' := { s with space := { s.space with apReads := s.space.apReads.erase w } }
  match objOf s w.oid with
  | none => s'
  | some o =>
    let s' := freeVersions s' w.oid
    if good then chargePcie (emit (touchRange s' w.oid w.ver w.off w.len) (.readData w.fn (objectBytes o w.ver w.off w.len))) w.fn w.len
    else apertureFail s' w.fn

/-- The end of a read of a granule for its client: the object's hint decides what a good read leaves behind, and an aperture read
is answered (R163, R173). A command, an instance or a descriptor meets a lost granule in its own row (R181). -/
def readEnds (s : State) (obj gran : Nat) (fr : Frame) (client : FlashClient) : State :=
  let w := apWaits s obj gran client
  let s := readGone s client obj fr.ver gran
  let good := !((frameNamed s obj fr.ver gran).any (·.lost))
  let s := if good && fr.tier == .peat then afterPeatRead s obj fr.ver gran else s
  match w with
  | none => s
  | some w => apAnswer s w good

/-- R163, R181, R193-R197, R201, R203, R466: a read of a Peat granule ends, in its turn at its die: the media work is done, and a
granule that cannot be read is lost. A read served from the stripe of a busy die leaves its die alone. A granule with no place on
the media yet is read from its staging copy. -/
def execFlashReadComplete (obj gran : Nat) (client : FlashClient) (outcome : FlashOutcome) (s : State)
    (need : List Nat := List.range 128) : Out :=
  match (objOf s obj).bind (fun o => (verOf o (clientVer s obj o client)).bind (fun v => frameOf o v gran)) with
  | none => .next s
  | some fr =>
    match (if fr.tier == .near then none else locOf s.flash obj fr.ver gran) with
    | none => .next (readEnds s obj gran fr client)
    | some l =>
      let o := readOutcome s l need fr.lost outcome
      if (o == .viaStripe && !stripeServes s l) || !readTurn s l client then .next s
      else
        let s := match clientFn s client with
          | none => s
          | some f => charge s f (mediaEnergy s l need o) false
        .next (readEnds (mediaRead s l need o) obj gran fr client)

/-- R189, R191, R192, R200: the oldest program of a die ends. A good one moves its map entry, and the command that waits
on it may complete; a failed one is made again elsewhere from its staging copy, and its block set is retired. -/
def execProgramComplete (die : Nat) (ok : Bool) (s : State) : Out :=
  match (dieOf s.flash die).programs with
  | [] => .next s
  | p :: rest =>
    if ok then
      let s := if p.parity || p.shared then s else charge s (oidFn p.obj) 95000000 false
      .next { s with flash := programDone s.flash die }
    else
      let fl := updDie s.flash die (fun x => { x with programs := rest })
      let fl := closeStripes fl (fun m => m.1 == die && m.2 == p.set)
      let fl := if p.parity then setParity fl p.stripe p.stripePage .near else redoProgram fl p
      .next (retire { s with flash := fl } die p.set)

/-- R200: an erase of a block set that holds no valid granule ends: a good one frees it with its count raised, a failed
one retires it. -/
def execEraseComplete (die blockSet : Nat) (ok : Bool) (s : State) : Out :=
  let x := blockSetOf (dieOf s.flash die) blockSet
  if (dieOf s.flash die).failed || 512 ≤ die || 828 ≤ blockSet || x.state ≠ .closed || validIn s.flash die blockSet ≠ [] ||
    (dieOf s.flash die).programs.any (·.set == blockSet) then .next s
  else if ok then
    let fl := { s.flash with movedParity := s.flash.movedParity.filter (fun x => !(x.die == die && x.set == blockSet)) }
    .next { s with flash := updSet fl die blockSet (fun x => { erases := x.erases + 1, suspect := x.suspect }) }
  else .next (retire s die blockSet)

/-- R189: the journal in the near tier is written to flash. -/
def execJournalWrite (s : State) : Out :=
  let s := recur s .journal
  .next { s with flash := { s.flash with journalFlash := s.flash.journalFlash ++ s.flash.journal, journal := [] } }

/-- R189: the map is written to flash in full; the journals before it are of no more use. -/
def execMapWrite (s : State) : Out :=
  let s := recur s .map
  .next { s with flash := { s.flash with mapFlash := s.flash.map, journalFlash := [], journal := [] } }

/-- R185: ZQ calibration of every channel; its time is kept. -/
def execZqCalibration (s : State) : Out :=
  let s := recur s .calibration
  .next { s with flash := { s.flash with calibrated := now s } }

/-- Block sets in service with their dies. -/
def setsInService (fl : Flash) : List (Nat × Nat × BlockSet) :=
  (fl.dies.filter (fun e => !e.2.failed)).flatMap (fun e =>
    (e.2.sets.filter (fun b => b.2.state ≠ .retired)).map (fun b => (e.1, b.1, b.2)))

/-- R199: where the spread of erase counts exceeds 300, the granules of the block sets more than 150 below the highest
count move onto free block sets with the highest counts. -/
def execWearLevelCheck (s : State) : Out :=
  let s := recur s .wear
  let (hi, lo) := eraseSpread s.flash
  if hi - lo ≤ 300 then .next s
  else
    let cold := (setsInService s.flash).filter (fun e => decide (e.2.2.erases + 150 < hi) && validIn s.flash e.1 e.2.1 ≠ [])
    .next { s with flash := cold.foldl (fun fl e => relocateTo fl 16 e.1 e.2.1) s.flash }

/-- R201: one codeword of each page of every block set that holds data is read; the weak sets named are relocated. -/
def execPatrol (weak : List (Nat × Nat)) (s : State) : Out :=
  let full := (setsInService s.flash).filter (fun e => e.2.2.nextPage ≠ 0)
  let fl := full.foldl (fun fl e => senseSet fl e.1 e.2.1 e.2.2.nextPage [0, 1, 2, 3]) s.flash
  let hit := weak.filter (fun w => full.any (fun e => e.1 == w.1 && e.2.1 == w.2))
  .next { s with flash := hit.foldl (fun fl w => relocate fl w.1 w.2) fl }

/-- R194: the die is declared failed. -/
def execDieTimeout (die : Nat) (s : State) : Out := if die < 512 then .next (dieFails s die) else .next s

/-! ### Granule moves -/

/-- A program of a granule started and done in one step; none where no block stripe takes it (R162, R188, R189). -/
def flashNow (fl : Flash) (obj ver gran : Nat) : Option Flash :=
  let started := flashStart fl obj ver gran none
  match started.dies.find? (fun e => e.2.programs.any (fun p => p.names obj ver gran && p.seq == started.writeSeq.toNat)) with
  | none => none
  | some (d, x) => (x.programs.find? (fun p => p.names obj ver gran && p.seq == started.writeSeq.toNat)).map (landed started d)

/-- Eviction order of a granule by its object's hint (R163): a smaller class goes first; none is never evicted. A stream-once
granule that no pass has read goes with those without a hint. -/
def evictClass (s : State) (oid : Nat) (o : Obj) (fr : Frame) : Option Nat :=
  if !o.kind.addressed then none
  else match o.hint.toNat with
    | 4 => some (if s.space.streamed.contains (oid, fr.ver, fr.gran) then 0 else 2)
    | 2 => some 1
    | 0 => some 2
    | 1 => some 3
    | _ => if o.overridden then some 3 else none

/-- Whether a Near granule stands before another in the order of eviction (R163): by class, in the last two by use. -/
def evictBefore (s : State) (x y : Nat × Obj × Frame) : Bool :=
  match evictClass s x.1 x.2.1 x.2.2, evictClass s y.1 y.2.1 y.2.2 with
  | some a, some b => decide (a < b) || (a == b && decide (2 ≤ a) &&
      decide (lastUse s x.1 x.2.2.ver x.2.2.gran < lastUse s y.1 y.2.2.ver y.2.2.gran))
  | some _, none => true
  | none, _ => false

/-- Whether a Near granule may be evicted now (R163): no cached copy on its channel is left to drop, and no granule there stands
before it. -/
def mayEvict (s : State) (oid : Nat) (o : Obj) (fr : Frame) : Bool :=
  let c := channelOf s oid fr.gran
  (evictClass s oid o fr).isSome && channelCached s c == 0 &&
  !(s.space.objs.any (fun e => e.2.frames.any (fun x => x.tier == .near && channelOf s e.1 x.gran == c &&
    evictBefore s (e.1, e.2, x) (oid, o, fr))))

/-- Whether a sequence holds a granule Near until its command completes, or a segment on a channel does (R217). -/
def heldNear (s : State) (oid g : Nat) : Bool :=
  s.stk.sequences.any (fun q => q.runs.contains (oid, g / 8)) || segmentHolds s oid g

/-- A granule moves to the near tier: none where it is lost there or the near tier has no room. -/
def moveNear (s : State) (oid ver g : Nat) (fr : Frame) : State :=
  if fr.lost || !nearRoom s oid g then s
  else
    let s := dropCached s (channelOf s oid g)
    { updFrame s oid ver g (fun x => { x with tier := .near }) with flash := unmap s.flash oid ver g }

/-- A granule moves to the peat tier. -/
def movePeat (s : State) (oid ver g : Nat) : State :=
  if !peatRoom s oid then s
  else match flashNow s.flash oid ver g with
    | none => s
    | some fl => charge { updFrame s oid ver g (fun x => { x with tier := .peat, lost := false }) with flash := fl } (oidFn oid) 95000000 false

/-- R162-R164: a granule's move between the tiers completes: the oldest listed one, else the one its object's hint asks
for, a Near granule evicted or a Peat one brought Near. Where its tier has no room the move is given up. While the granule's channel
holds ordinary requests, a tier move is one of them (R209). -/
def execGranuleMoveComplete (obj gran : Nat) (s : State) : Out :=
  match (objOf s obj).filter (fun _ => !chanHolds s (channelOf s obj gran)) with
  | none => .next s
  | some o =>
    match s.space.moves.find? (fun m => m.obj == obj && m.gran == gran) with
    | some m =>
      let s := dropMove s obj m.ver gran
      match frameNamed s obj m.ver gran with
      | none => .next s
      | some fr =>
        let s := if fr.tier == .near then (if m.dest == .peat && !heldNear s obj gran then movePeat s obj m.ver gran else s)
          else if m.dest == .near then moveNear s obj m.ver gran fr else s
        .next (reviewHint s obj)
    | none =>
      match (verOf o o.current).bind (fun v => frameOf o v gran) with
      | none => .next s
      | some fr =>
        let s := if fr.tier == .near then
            (if (mayEvict s obj o fr || fr.full) && !heldNear s obj gran then movePeat s obj fr.ver gran else s)
          else if o.hint != 2 && !fr.full then moveNear s obj fr.ver gran fr else s
        .next (reviewHint s obj)

end Sys2Proof.Machine
end

