-- ==== Sys2Proof/Machine/Index.lean ====
section
/-! DEFINITION. The commands that make and change indexes (R138-R140, R307-R315, R324-R331). -/

namespace Sys2Proof.Machine
open Sys2Proof

/-- R138, R313: INDEX_CREATE_LIST: an empty list index at version 1. -/
def execIndexCreateList (cid : Nat) (s : State) : Out := withCmd s cid 0x200 (fun a =>
  let sim := a.p 34 1 == 1
  let (m, n) := emptyList sim (a.p 32 2) (a.p 36 4)
  created s a (.listIndex (a.p 32 2) sim (a.p 36 4)) (BitVec.ofNat 8 (a.p 40 1)) m n (ixFull m))

/-- R138, R314: INDEX_CREATE_GRAPH: an empty graph index at version 1. -/
def execIndexCreateGraph (cid : Nat) (s : State) : Out := withCmd s cid 0x201 (fun a =>
  let sim := a.p 34 1 == 1
  let (m, n) := emptyGraph sim (a.p 32 2) (a.p 36 2)
  created s a (.graphIndex (a.p 32 2) sim (a.p 36 2)) (BitVec.ofNat 8 (a.p 40 1)) m n (ixFull m))

/-- R139, R328, R329: INDEX_LOAD. -/
def execIndexLoad (cid : Nat) (host : List Byte) (s : State) : Out :=
  withCmd s cid 0x202 (fun a => loadRun s a host Obj.isIndex true)

/-- Bytes of one record of a mutation's source (R324, R327). -/
def recordBytes (o : Obj) (upsert : Bool) : Nat := if upsert then 16 + 2 * (ixOf (verBytes o o.tip)).dim else 8

/-- Whether the centroids that an upsert ranks cannot be read (R182, R324, R516). -/
def centroidsFail (m : Bad) (o : Obj) (upsert : Bool) : Bool :=
  let x := ixOf (verBytes o o.tip)
  upsert && !x.graph && rangeBad m o o.tip x.cent (x.cstride * x.lists)

/-- An upsert or a delete of an index of the function, its targets found (R139, R182, R324, R327). -/
def mutateIndex (s : State) (a : Adm) (o : Obj) (ts : Target) (upsert : Bool) : State :=
  let cid := a.cmd.cid
  let oid := a.p 32 4
  let so := a.p 36 4
  let n := a.p 48 4
  let len := n * recordBytes o upsert
  if ts.bad (fun x => beyond a so x (a.p 40 8) len) then fail s cid stInvalidParam
  else if readFails .any a so ts (a.p 40 8) len || centroidsFail .any o upsert then
    readFailed s a (readFails .lost a so ts (a.p 40 8) len || centroidsFail .lost o upsert)
  else
    let data := readTarget a so ts (a.p 40 8) len
    let rs := records (recordBytes o upsert) n data
    if upsert && rs.any (fun r => !zeroIn r 12 16) then fail s cid stInvalidParam
    else
      let e0 := editOf o o.tip
      let s := chargeNear s a.fn len
      let out : Option (Edit × Nat) :=
        if upsert then (e0.upserts rs).map (fun e => (e, n)) else some (e0.deletes (elems 8 n data))
      match out with
      | none => fail s cid stNoSpace
      | some (e, k) =>
        if editFails .any o o.tip e then readFailed s a (editFails .lost o o.tip e)
        else commitEdit s a oid o e (if upsert then .upsert data n else .delete data n) k

/-- Steps 1 to 5 of R131 for an upsert or a delete; outside the rights nothing is written and the count is 0. -/
def mutateRun (s : State) (a : Adm) (upsert : Bool) : State :=
  let cid := a.cmd.cid
  let ti := target s a (a.p 32 4)
  let ts := target s a (a.p 36 4)
  if !mutationTurn s a (a.p 32 4) then s
  else
    let s := countForeign s a (ti.noWrite || ts.isForeign)
    if ti.isMissing || ts.isMissing then fail s cid stNoObject
    else if ti.bad (fun o => !o.isIndex) || ts.bad (fun o => !o.isData) then fail s cid stInvalidParam
    else match ti with
      | .own o => mutateIndex s a o ts upsert
      | _ =>
        -- an index without dimensions: records of 16 bytes, or item IDs (R129)
        if ts.bad (fun x => beyond a (a.p 36 4) x (a.p 40 8) (a.p 48 4 * (if upsert then 16 else 8))) then fail s cid stInvalidParam
        else finish s cid {}

/-- R324: ITEM_UPSERT. -/
def execItemUpsert (cid : Nat) (s : State) : Out := withCmd s cid 0x203 (fun a => mutateRun s a true)

/-- R327: ITEM_DELETE. -/
def execItemDelete (cid : Nat) (s : State) : Out := withCmd s cid 0x204 (fun a => mutateRun s a false)

/-- R330, R331: INDEX_COMPACT. -/
def execIndexCompact (cid : Nat) (s : State) : Out := withCmd s cid 0x205 (fun a =>
  let oid := a.p 32 4
  let ti := target s a oid
  if !mutationTurn s a oid || (objOf s oid).any (fun o => o.building.any (·.cid == cid)) then s
  else
    let s := countForeign s a ti.noWrite
    if ti.isMissing then fail s cid stNoObject
    else if ti.bad (fun o => !o.isIndex) then fail s cid stInvalidParam
    else if buildRunning s oid a.seq then fail s cid stBusyMode
    else match ti with
      | .own o =>
        let base := compactBase o a.seq
        if rangeBad .lost o base 0 (verSize o base) then loadEnds (countTierFail s a.fn) a oid (.bare stTierFail)
        else if rangeBad .any o base 0 (verSize o base) then loadEnds s a oid (.bare stInternal)
        else startBuild s a oid o (compactImage (ixOf (verBytes o base)) 0) (bit (a.p 36 1) 0)
      | _ => finish s cid {})

end Sys2Proof.Machine
end

