-- ==== Sys2Proof/Machine/Picks.lean ====
section
/-! DEFINITION. The close of a pick window (R219, R247-R250, R253, R466) and the merge unit's epoch test (R34, R41-R43,
R322). The scores of a pick are those of its members' own searches (R249): a pick moves only time, counts and energy. -/

namespace Sys2Proof.Machine
open Sys2Proof

/-- Rows of a list of a pinned version, their stride, and the passes of a row over an array (R236). -/
def listShape (s : State) (w : Window) : Nat × Nat × Nat :=
  match objOf s w.index with
  | none => (0, 0, 0)
  | some o =>
    let x := ixOf (verBytes o w.version)
    (x.count w.list, x.stride, x.dim / 64)

/-- Offset of the code rows of a list of a pinned version. -/
def listRows (s : State) (w : Window) : Nat :=
  (objOf s w.index).elim 0 (fun o => (ixOf (verBytes o w.version)).rowOff w.list 0)

/-- Channels that the code rows of a list lie on (R207). -/
def listChannels (s : State) (w : Window) : List Nat :=
  match objOf s w.index with
  | none => []
  | some o =>
    let x := ixOf (verBytes o w.version)
    ((rangeGranules (x.rowOff w.list 0) (x.stride * x.count w.list)).map (channelOf s w.index)).eraseDups

/-- The granules of a list's code rows of a pinned version. -/
def listGranules (s : State) (w : Window) : List Nat :=
  let (rows, stride, _) := listShape s w
  rangeGranules (listRows s w) (rows * stride)

/-- Granules of a version brought Near in order, for a scan on spindles (R217). -/
def bringList (s : State) (oid ver : Nat) : List Nat → Option State
  | [] => some s
  | g :: gs => (bringVersion s oid ver g).bind (fun s => bringList s oid ver gs)

/-- A member of a window with fewer than MIN_MEMBERS is dealt with (R249): its scan is queued on spindles where bit 7 is active for
it, no channel of the list is busy, and the list's granules lie Near or can be brought there; else it stays for the loom. -/
def scanMember (w : Window) (acc : State × List Nat) (c : Nat) : State × List Nat :=
  let (s, left) := acc
  let (rows, stride, _) := listShape s w
  match (findAdm s c).filter (fun a => a.has 7 && !(listChannels s w).any (chanBusy s)) with
  | none => (s, left ++ [c])
  | some a =>
    match bringList s w.index w.version (listGranules s w) with
    | none => (s, left ++ [c])
    | some s => (queueScan (touchRange s w.index w.version (listRows s w) (rows * stride)) a w.index stride
        (scanParts s w.index (listRows s w) rows stride), left)

/-- Steps of a pick of a list on one array (R235, R236): load, streaming of tiles of 128 rows in mode 0, drain and fall. -/
def pickSteps (rows passes : Nat) : Nat :=
  let whole := rows / 128
  (64 * passes + 16) + (64 * whole + ceilDiv (rows % 128) 2) * passes + 100 + 48

/-- Array steps and row reads of a loom pick, divided among its members by their columns (R466). -/
def chargePick (s : State) (w : Window) (ms : List Nat) : State :=
  let (rows, stride, passes) := listShape s w
  let s := streamRange s w.index w.version (listRows s w) (rows * stride)
  let arrays := ceilDiv ms.length 64
  let fns := ms.filterMap (fun c => (findAdm s c).map (·.cmd.fn))
  fns.eraseDups.foldl (fun s f =>
    let part (e : Nat) : Nat := e * fns.count f / ms.length
    charge (charge s f (part (490 * arrays * pickSteps rows passes)) true) f (part (620 * ceilDiv (rows * stride) 64)) false) s

/-- The descriptor of a pick (R239, R249): its members are its columns, in join order. -/
def pickDesc (s : State) (w : Window) (n : Nat) : List Byte :=
  let x := (objOf s w.index).map (fun o => ixOf (verBytes o w.version))
  let (rows, stride, _) := listShape s w
  lay 64 [(4, 2, x.elim 0 (·.dim)), (6, 2, stride), (8, 4, w.list), (16, 4, w.index), (20, 4, w.version), (24, 8, listRows s w),
    (40, 4, rows), (56, 2, n)]

/-- Looms that a pick may run on (R249, R516): a Sealed function's dedicated ones, else those outside every dedicated set; in
service, and with room in their queue. -/
def pickLooms (s : State) (cls : Nat) : List Nat :=
  (List.range 128).filter (fun l =>
    !(loomOf s l).out && decide ((loomOf s l).dq.length < 16) &&
    (if cls < 256 && (fnOf s cls).isSealed then (fnOf s cls).bolts.contains (l / 8)
     else !(s.fns.any (fun e => e.2.isSealed && e.2.bolts.contains (l / 8)))))

/-- Whether a live instance holds a loom. -/
def loomHeld (s : State) (l : Nat) : Bool := (AMap.vals s.prog.instances).any (fun i => i.looms.contains l)

/-- The loom of a pick: the lowest idle one that no instance holds, else the lowest with the shortest queue (DESIGN CHOICE, log
entry 146). -/
def pickLoom (s : State) (cls : Nat) : Option Nat :=
  let ls := pickLooms s cls
  (ls.find? (fun l => (loomOf s l).dq.isEmpty && !loomHeld s l)).orElse (fun _ =>
    ls.foldl (fun best l => match best with
      | none => some l
      | some b => if (loomOf s l).dq.length < (loomOf s b).dq.length then some l else some b) none)

/-- One loom pick of members (R249, R253): its descriptor enters the loom's queue. A loom that no instance holds passes to the
service plan, and its weave store is zeroed (R246). -/
def loomPick (s : State) (w : Window) (ms : List Nat) (loom : Nat) : State :=
  let s := { s with looms := { s.looms with
    picks := satAdd s.looms.picks 1
    members := satAdd s.looms.members ms.length
    small := if ms.length < w.minMembers then satAdd s.looms.small 1 else s.looms.small } }
  let fn := (ms.head?.bind (findAdm s)).elim 0 (·.cmd.fn)
  let d : ArrayDesc := { desc := pickDesc s w ms.length, fn := fn, inst := 0, task := none, ver := w.version, pick := some (ms.map (·, true)) }
  let free := !loomHeld s loom
  beginHead (updLoom (chargePick s w ms) loom (fun l => { l with
    dq := l.dq ++ [d], owner := if free then none else l.owner, ws := if free && l.owner.isSome then [] else l.ws })) loom

/-- R248, R249: the oldest window of the key closes: at once when it holds 256 members, else at its due time. Below MIN_MEMBERS its
members scan on spindles, one after the other, where they may; the rest form one loom pick, for which the close waits while no loom
can take it. -/
def execPickWindowClose (index version list cls : Nat) (s : State) : Out :=
  match s.looms.windows.find? (fun w => w.index == index && w.version == version && w.list == list && w.cls == cls) with
  | none => .next s
  | some w =>
    let t := if w.members.length < 256 then advanceTo s w.closeAt else s
    let (t, left) := if w.minMembers ≤ w.members.length then (t, w.members) else w.members.foldl (scanMember w) (t, [])
    let t := { t with looms := { t.looms with
      windows := t.looms.windows.erase w
      spindle := satAdd t.looms.spindle (w.members.length - left.length) } }
    if left.isEmpty then .next t
    else match pickLoom t w.cls with
      | none => .next s
      | some l => .next (loomPick t w left l)

/-- Whether a list or visit step of a search can be merged: a list of the index whose scan met no failed read (R322). -/
def mergeable (s : State) (a : Adm) (list : Nat) : Bool :=
  let t := searchTargets s a
  match t.index.obj? with
  | none => false
  | some o =>
    let j := searchOn a t o
    j.ix.graph || (decide (list % 2 ^ 48 < j.ix.lists) && !listFails .any j (list % 2 ^ 48))

/-- R34, R41-R43: a list or step result tagged with an epoch is offered to the merge unit: merged once where the epoch is
that of the index's domain, else rejected, counted, and issued again under that epoch unless it is merged already. -/
def execResultMerge (cid list : Nat) (epoch : BitVec 32) (s : State) : Out :=
  match findAdm s cid with
  | none => .next s
  | some a =>
    if (a.cmd.opcode ≠ 0x206 && a.cmd.opcode ≠ 0x207) || a.phase ≠ .running then .next s
    else
      let id := a.p 32 4
      let e := domainEpoch s (oidFn id) id
      if epoch ≠ e then .next (updAdm (countRejected s (oidFn id) id) cid (fun a =>
        { a with work := a.work.filter (fun w => w.1 != list) ++ (if a.merged.contains list then [] else [(list, e)]) }))
      else if a.merged.contains list || !mergeable s a list then .next s
      else .next (updAdm s cid (fun a => { a with merged := a.merged ++ [list] }))

end Sys2Proof.Machine
end

