-- ==== Sys2Proof/Machine/Programs.lean ====
section
/-! DEFINITION. The program and knot commands (R146, R290-R304) and the events of instances: task start, task deadline,
stop timeout. -/

namespace Sys2Proof.Machine
open Sys2Proof

/-! ### Images -/

/-- R146, R294: PROG_LOAD of an image from the host or an object. -/
def execProgLoad (cid : Nat) (host : List Byte) (s : State) : Out := withCmd s cid 0x500 (fun a =>
  let n := a.p 40 4
  let fromObj := a.p 44 1 == 1
  let oid := a.p 48 4
  let t := target s a oid
  if !fromObj && host.length != n then s
  else
    let s := countForeign s a (fromObj && t.isForeign)
    if fromObj && t.isMissing then fail s cid stNoObject
    else if fromObj && t.bad (fun o => !o.isData || beyond a oid o 0 n) then fail s cid stInvalidParam
    else if fromObj && readFails .any a oid t 0 n then readFailed s a (readFails .lost a oid t 0 n)
    else
      let bs := if fromObj then readTarget a oid t 0 n else host
      if imageOk bs n then created s a .program 0 (Mem.ofBytes bs) n (fun _ => false)
      else fail s cid stInvalidParam)

/-! ### PROG_START -/

/-- The argument object's bytes: zeros outside the rights, nothing without one (R129, R300). -/
def argBytes (a : Adm) (t : Target) (n : Nat) : List Byte :=
  match t with
  | .own _ => readTarget a (a.p 40 4) t 0 n
  | _ => List.replicate n 0#8

/-- An ID that names no object and is outside a function's rights. -/
def foreignId (f : Nat) : Nat := (f + 1) % 256 * 2 ^ 24

/-- A slot as it is bound: the object and the version pinned; a foreign object by an ID outside the rights (R300). -/
def bindSlot (s : State) (f oid : Nat) : Nat × Nat :=
  if oid = 0 then (0, 0)
  else match descTargetOf s f oid with
    | some o => (oid, if o.kind.versioned then o.current else 0)
    | none => (foreignId f, 0)
where
  descTargetOf (s : State) (f oid : Nat) : Option Obj := (liveObj s oid).filter (fun o => mayRead o f)

/-- Whether a function's programs may run on a loom (R299, R509, R516). -/
def loomOpen (s : State) (f l : Nat) : Bool :=
  let x := fnOf s f
  !(loomOf s l).out &&
  (if x.isSealed then x.bolts.contains (l / 8) else !(s.fns.any (fun e => e.2.isSealed && e.2.bolts.contains (l / 8))))

/-- Shuttles of a loom that no instance holds (R272). -/
def freeShuttles (s : State) (l : Nat) : List Nat :=
  ((List.range 128).map (· + 128 * l)).filter (fun sh => (AMap.get? s.prog.shuttles sh).isNone)

/-- Weave-store regions granted on a loom. -/
def regionsOn (s : State) (l : Nat) : List (Nat × Nat) :=
  (AMap.vals s.prog.instances).filterMap (fun i => (AMap.get? i.wsBase l).map (fun b => (b, i.wsBytes)))

/-- The lowest place for a region of n bytes on a loom's weave store; its choice is the node's. -/
def regionFor (s : State) (l n : Nat) : Option Nat :=
  let rs := regionsOn s l
  ((0 :: rs.map (fun r => r.1 + r.2)).filter (fun b =>
    decide (b + n ≤ 2097152) && rs.all (fun r => !meets r (b, n)))).foldl
    (fun best b => match best with | none => some b | some x => some (min x b)) none

/-- The looms granted for a plan, lowest numbered first (R299). -/
def loomsFor (s : State) (f : Nat) (p : Plan) : Option (List Nat) :=
  let ls := ((List.range 128).filter (fun l => loomOpen s f l && decide (p.shuttles ≤ (freeShuttles s l).length) &&
    (regionFor s l p.wsBytes).isSome)).take p.looms
  if ls.length = p.looms then some ls else none

/-- A loom passes to a function's program: its weave store is zeroed where another function's program used it last, but for the
regions that live instances hold there (R246, R299). -/
def takeLoom (s : State) (f l base : Nat) (init : List Byte) : State :=
  let live (a : Nat) : Bool := (regionsOn s l).any (fun r => decide (r.1 ≤ a) && decide (a < r.1 + r.2))
  updLoom s l (fun x => { x with
    owner := some f
    ws := Mem.write (if x.owner == some f then x.ws else x.ws.filter (fun c => live c.1)) base init })

/-- Shuttles of a loom granted to an instance are Idle (R272). -/
def grantShuttles (s : State) (no l n : Nat) : State :=
  ((freeShuttles s l).take n).foldl (fun s sh => putShuttle s sh { state := .idle, inst := no }) s

/-- The instance of a plan with its grants (R299, R300); none where one of them is lacking. -/
def startInstance (s : State) (a : Adm) (m : Mem) (arg : Nat) (argBs : List Byte) : Option (State × Nat) :=
  let f := a.fn
  let p := planOf m (a.p 36 4)
  let serial := (fnOf s f).instSerial + 1
  let no := f * 2 ^ 24 + serial
  if 2 ^ 24 ≤ serial || 4096 ≤ s.prog.instances.length || 256 ≤ s.prog.instances.countP (fun e => e.2.fn == f) then none
  else match loomsFor s f p, freeKnots s f p.knots with
    | some ls, some ks =>
      let bases := ls.map (fun l => (l, (regionFor s l p.wsBytes).getD 0))
      let init := imgData m p.initOff p.initLen
      let slots := (elems 8 (field argBs 0 4) (argBs.drop 64)).map (fun v => bindSlot s f (v % 2 ^ 32))
      let ek := field argBs 4 4
      let i : Instance := {
        fn := f, seq := a.seq, features := a.features, image := a.p 32 4, plan := a.p 36 4, argObj := arg
        exitKnot := if arg = 0 || bit ek 31 then none else some (ek % 65536)
        looms := ls, shuttles := p.shuttles, wsBytes := p.wsBytes, wsBase := bases, knots := ks, slots := slots
        tasks := List.replicate p.tasks .waiting }
      let s := bases.foldl (fun s b => takeLoom s f b.1 b.2 init) s
      let s := { s with prog := { s.prog with instances := AMap.insert s.prog.instances no i } }
      let s := ls.foldl (fun s l => grantShuttles s no l p.shuttles) s
      let s := (ks.zipIdx).foldl (fun s e =>
        let (tgt, fl) := knotEntry m p e.2
        putKnot s e.1 { fn := f, inst := some no, target := BitVec.ofNat 32 tgt, boundary := bit fl 0, resetOnCycle := bit fl 1 }) s
      some (updFn s f (fun x => { x with instSerial := serial }), no)
    | _, _ => none

/-- Whether a slot of an argument object names a missing object of the function, or one outside its rights. -/
def slotIs (s : State) (f : Nat) (foreign : Bool) (v : Nat) : Bool :=
  let oid := v % 2 ^ 32
  oid != 0 && ((liveObj s oid).filter (fun o => mayRead o f)).isNone && (oidFn oid != f) == foreign

/-- R299, R300: PROG_START. -/
def execProgStart (cid : Nat) (s : State) : Out := withCmd s cid 0x501 (fun a =>
  let arg := a.p 40 4
  let tp := target s a (a.p 32 4)
  let ta := target s a arg
  let head := argBytes a ta 64
  let n := field head 0 4
  let argBs := if arg = 0 then [] else argBytes a ta (64 + 8 * min n 64)
  let slots := elems 8 (min n 64) (argBs.drop 64)
  let s := countForeign s a (tp.isForeign || (arg != 0 && (ta.noWrite || slots.any (slotIs s a.fn true))))
  if tp.isMissing || (arg != 0 && (ta.isMissing || slots.any (slotIs s a.fn false))) then fail s cid stNoObject
  else
    let argBad := arg != 0 && ((!ta.noWrite && ta.bad (fun x => !x.isData || beyond a arg x 0 64 || beyond a arg x 0 (64 + 8 * n))) ||
      decide (64 < n))
    match tp.obj? with
    | none => if argBad then fail s cid stInvalidParam else finish s cid {}
    | some o =>
      let m := verBytes o 0
      let p := planOf m (a.p 36 4)
      if o.kind != .program || decide (imgPlans m ≤ a.p 36 4) || !needsMet m a.features || argBad ||
          (if arg = 0 then p.slots != 0 else decide (n < p.slots)) then fail s cid stInvalidParam
      else match startInstance s a m (if ta.noWrite then 0 else arg) argBs with
        | some (s, no) => finish (noteMay s no) cid { value := BitVec.ofNat 32 no }
        | none => fail s cid stNoSpace)

/-- R304: PROG_STOP waits for the end of the instance, which comes 10 ms after its admission at the latest. -/
def execProgStop (cid : Nat) (s : State) : Out := withCmd s cid 0x502 (fun a =>
  let no := a.p 32 4
  if oidFn no ≠ a.fn then finish (violate s a.fn 1) cid {}
  else match AMap.get? s.prog.instances no with
    | none => fail s cid stNoObject
    | some _ => setPhase (updInst s no (fun i => { i with
        stopping := true, stopBy := if i.stopping then i.stopBy else a.admitted + 1000000 })) cid (.waitStop no))

/-! ### Knots -/

/-- A knot command: on a knot of the function, or outside its rights on a satisfied knot that takes nothing (R129). -/
def withKnot (s : State) (a : Adm) (g : Nat → Knot → State) : State :=
  let k := a.p 32 2
  match (knotOf s k).filter (fun x => x.fn == a.fn) with
  | some x => g k x
  | none => finish (violate s a.fn 1) a.cmd.cid {}

/-- R146: KNOT_ALLOC takes the lowest free knot. -/
def execKnotAlloc (cid : Nat) (s : State) : Out := withCmd s cid 0x503 (fun a =>
  match freeKnots s a.fn 1 with
  | some [k] => finish (putKnot s k { fn := a.fn, target := BitVec.ofNat 32 (a.p 32 4) }) cid { value := BitVec.ofNat 32 k }
  | _ => fail s cid stNoSpace)

/-- R291: KNOT_SET. -/
def execKnotSet (cid : Nat) (s : State) : Out := withCmd s cid 0x504 (fun a => withKnot s a (fun k _ =>
  finish (setKnot (charge s a.fn 30 true) k (BitVec.ofNat 32 (a.p 36 4)) (BitVec.ofNat 32 (a.p 40 4))) cid {}))

/-- R290: KNOT_ARRIVE. -/
def execKnotArrive (cid : Nat) (s : State) : Out := withCmd s cid 0x505 (fun a => withKnot s a (fun k _ =>
  finish (arrive s k 1) cid {}))

/-- R290, R146: KNOT_WAIT completes when the knot is satisfied. -/
def execKnotWait (cid : Nat) (s : State) : Out := withCmd s cid 0x506 (fun a => withKnot s a (fun k x =>
  if x.satisfied then finish s cid {} else setPhase s cid (.waitKnot k)))

/-- R292: KNOT_FREE. -/
def execKnotFree (cid : Nat) (s : State) : Out := withCmd s cid 0x508 (fun a => withKnot s a (fun k _ =>
  finish (freeKnot s k) cid {}))

/-! ### Tasks -/

/-- Looms a task names (R297). -/
def taskLooms (i : Instance) (t : Task) : List Nat := if t.loom = 65535 then i.looms else [i.looms.getD t.loom 0]

/-- Whether a lower-numbered task that may start holds a task back on one of its looms (R301). -/
def heldBack (s : State) (i : Instance) (m : Mem) (p : Plan) (t : Nat) : Bool :=
  (List.range t).any (fun u =>
    let x := taskOf m p u
    i.tasks[u]? == some .waiting && mayStart s i x && (taskLooms i x).any (fun l => (taskLooms i (taskOf m p t)).contains l))

/-- Idle shuttles of an instance on a loom, lowest first. -/
def idleShuttles (s : State) (no l : Nat) : List Nat :=
  ((List.range 128).map (· + 128 * l)).filter (fun sh => (AMap.get? s.prog.shuttles sh).any (fun x => x.inst == no && x.state == .idle))

/-- A task starts on a shuttle (R274, R275). -/
def launchShuttle (s : State) (no : Nat) (i : Instance) (t : Nat) (x : Task) (sh index : Nat) : State :=
  let base := if i.argObj = 0 then 0 else (objOf s i.argObj).elim 0 (·.base)
  let y : Shuttle := { state := if lineHere s i.image (sh / 128) x.entry then .ready else .waitFetch
                       inst := no, task := t, index := index, pc := BitVec.ofNat 32 x.entry }
  putShuttle s sh (((y.setReg 1 (BitVec.ofNat 64 no)).setReg 2 (BitVec.ofNat 64 index)).setReg 3 (BitVec.ofNat 64 base))

/-- Whether a template breaks R298: its slot number is not below SLOTS, or ARRIVE or KNOT is not zero. -/
def templateBad (m : Mem) (p : Plan) (x : Task) : Bool :=
  let y := arrOf (imgData m x.entry 64)
  decide (p.slots ≤ y.src) || y.arrives || y.knot != 0

/-- The descriptor of an array task (R298). -/
def templateOf (m : Mem) (i : Instance) (x : Task) (l : Nat) : List Byte :=
  let d := imgData m x.entry 64
  let base := AMap.getD i.wsBase l 0
  let put (bs : List Byte) (o n v : Nat) : List Byte := bs.take o ++ toLE n v ++ bs.drop (o + n)
  let d := put d 16 4 ((i.slots.getD (field d 16 4) (0, 0)).1)
  let d := put d 48 4 (field d 48 4 + base)
  let d := put d 52 4 (field d 52 4 + base)
  let d := put d 60 4 (field d 60 4 + base)
  if x.count = 0 then d else put d 56 2 x.count

/-- R301: a task that may start, that no lower task holds back, and whose shuttles are Idle or whose descriptor finds
room, starts. -/
def execTaskStart (inst task : Nat) (s : State) : Out :=
  match AMap.get? s.prog.instances inst with
  | none => .next s
  | some i =>
    let m := imageOf s i
    let p := instPlan s i
    let x := taskOf m p task
    let ls := taskLooms i x
    if i.tasks[task]? != some .waiting || !mayStart s i x || heldBack s i m p task then .next s
    else
      let started (n : Nat) (s : State) : State := updInst s inst (fun i => { i with
        tasks := i.tasks.set task .running, running := AMap.insert i.running task n
        meters := AMap.insert i.meters task (now s, 0) })
      if x.kind = 0 then
        if ls.any (fun l => (idleShuttles s inst l).length < x.count) then .next s
        else
          let shs := ls.flatMap (fun l => (idleShuttles s inst l).take x.count)
          .next ((shs.zipIdx).foldl (fun s e => launchShuttle s inst i task x e.1 e.2) (started shs.length s))
      else if ls.any (fun l => 16 ≤ (loomOf s l).dq.length) then .next s
      else .next (ls.foldl (fun s l => enqueueDesc s l i.fn inst (some task) (templateBad m p x) (templateOf m i x l)) (started ls.length s))

/-- R26, R297, R303: a task's deadline, counted from the moment it might start, passes before it completes. -/
def execTaskDeadline (inst task : Nat) (s : State) : Out :=
  match AMap.get? s.prog.instances inst with
  | none => .next s
  | some i =>
    let x := taskOf (imageOf s i) (instPlan s i) task
    match AMap.get? i.may task with
    | none => .next s
    | some t =>
      if x.deadline = 0 then .next s
      else .next (instanceEnds (advanceTo s (t + 100 * x.deadline)) inst { code := 4, task := task })

/-- R26, R304: 10 ms after PROG_STOP's admission without a boundary the instance is stopped at once. -/
def execProgStopTimeout (inst : Nat) (s : State) : Out :=
  match AMap.get? s.prog.instances inst with
  | none => .next s
  | some i => if i.stopping then .next (instanceEnds (advanceTo s i.stopBy) inst { code := 1 }) else .next s

end Sys2Proof.Machine
end

