-- ==== Sys2Proof/Machine/Security.lean ====
section
/-! DEFINITION. The security commands (R152, R429, R445, R496-R502, R509, R513). -/

namespace Sys2Proof.Machine
open Sys2Proof

/-! ### Firmware (R496-R499) -/

/-- A slot's bytes and the bytes staged into it. -/
def slotMem (b : Boot) (k : Nat) : Mem := if k = 0 then b.slotA else b.slotB
def slotLen (b : Boot) (k : Nat) : Nat := if k = 0 then b.slotALen else b.slotBLen

/-- Bytes put into a slot. -/
def slotPut (b : Boot) (k off : Nat) (bs : List Byte) : Boot :=
  let n := off + bs.length
  if k = 0 then { b with slotA := b.slotA.write off bs, slotALen := max b.slotALen n }
  else { b with slotB := b.slotB.write off bs, slotBLen := max b.slotBLen n }

/-- Whether a FW_COMMIT verifies its slot or has verified it and not completed (R152, R514). -/
def commitRuns (a : Adm) : Bool :=
  a.cmd.opcode == 0x801 && (match a.phase with
    | .done r => r.status == stOk
    | _ => true)

/-- R499: FW_STAGE. -/
def execFwStage (cid : Nat) (host : List Byte) (s : State) : Out := withCmd s cid 0x800 (fun a =>
  if s.sched.admitted.any commitRuns then fail s cid stBusyMode
  else if host.length ≠ a.p 40 4 then s
  else finish (chargePcie { s with boot := slotPut s.boot (stageSlot s) (a.p 44 4) host } a.fn host.length) cid {})

/-- Whether areas (offset, length) lie within a length and do not overlap. -/
def areasOk (n : Nat) (xs : List (Nat × Nat)) : Bool :=
  xs.all (fun x => decide (x.1 + x.2 ≤ n)) &&
  (List.range xs.length).all (fun i => (List.range i).all (fun j =>
    let x := xs.getD i (0, 0)
    let y := xs.getD j (0, 0)
    x.2 == 0 || y.2 == 0 || decide (x.1 + x.2 ≤ y.1) || decide (y.1 + y.2 ≤ x.1)))

/-- The areas of a firmware image: header, body, public-key block and both signatures (R496). -/
def fwAreas (m : Mem) : List (Nat × Nat) :=
  [(0, 128), (m.nat 20 4, m.nat 24 4), (m.nat 28 4, 436), (m.nat 32 4, 384), (m.nat 36 4, 16224)]

/-- The checks of R498 on the bytes of an image. -/
def fwPasses (minSvn : BitVec 32) (m : Mem) (n : Nat) : Bool :=
  let pub := m.readBytes (m.nat 28 4) 436
  m.nat 0 4 == 0x57464C47 && m.nat 4 2 == 1 && m.nat 6 1 ≤ 3 && m.nat 7 1 == 0 && zeroIn (m.readBytes 88 40) 0 40 &&
  m.nat 16 4 == n && decide (128 ≤ n) && decide (n ≤ 33554432) && areasOk n (fwAreas m) &&
  !Config.revoked (m.nat 6 1) && Config.sha384 pub == Config.fusedHash (m.nat 6 1) &&
  Config.sha384 (m.readBytes (m.nat 20 4) (m.nat 24 4)) == m.readBytes 40 48 &&
  Config.signaturesVerify (m.readBytes 0 128) pub (m.readBytes (m.nat 32 4) 384) (m.readBytes (m.nat 36 4) 16224) &&
  decide (minSvn.toNat ≤ m.nat 12 4)

/-- R498, R499: FW_COMMIT verifies the staged image, whose slot becomes the trial slot when the command completes (R493). -/
def execFwCommit (cid : Nat) (s : State) : Out := withCmd s cid 0x801 (fun a =>
  let k := stageSlot s
  let n := a.p 32 4
  if slotLen s.boot k < n then fail s cid stInvalidParam
  else if fwPasses s.glaesh.minSvn (slotMem s.boot k) n then finish s cid {}
  else fail s cid stSecurity)

/-! ### Keys (R429, R502) -/

/-- Receive keys after one is set, in the order of their setting: it replaces its own number; a fifth displaces the
one set earliest (R429). -/
def setRxKey (ks : List (Nat × BitVec 256)) (k : Nat × BitVec 256) : List (Nat × BitVec 256) :=
  let xs := ks.filter (·.1 != k.1) ++ [k]
  xs.drop (xs.length - 4)

/-- R502, R429: FABRIC_KEY_SET unwraps and installs a key; where the unwrap fails the previous key stays. -/
def execFabricKeySet (cid : Nat) (s : State) : Out := withCmd s cid 0x802 (fun a =>
  let id := a.p 32 2
  match (fnOf s a.fn).kek.bind (fun k => Config.keyUnwrap k (slice (a.cmd.packet.drop 40) 0 40)) with
  | none => fail s cid stSecurity
  | some key =>
    if a.p 34 1 = 0 then finish (updFn s a.fn (fun x => { x with txKey := some (id, key) })) cid {}
    else finish (newKey (updFn s a.fn (fun x => { x with rxKeys := setRxKey x.rxKeys (id, key) })) a.fn id) cid {})

/-! ### Isolation (R445, R509) -/

/-- What Sealed functions other than one hold. -/
def heldBolts (s : State) (f : Nat) : List Nat := s.fns.flatMap (fun e => if e.1 ≠ f && e.2.isSealed then e.2.bolts else [])
def heldStacks (s : State) (f : Nat) : List Nat := s.fns.flatMap (fun e => if e.1 ≠ f && e.2.isSealed then e.2.dedStacks else [])

/-- The n highest numbers below a bound that are not held. -/
def highestFree (bound n : Nat) (held : List Nat) : List Nat :=
  (((List.range bound).reverse).filter (fun i => !held.contains i)).take n

/-- The shaper slot of a function that is sealed (R445): the one it has, or the lowest no other function names. -/
def sealSlot (s : State) (f : Nat) : Option Nat :=
  if (fnOf s f).isSealed then some (fnOf s f).shaper.toNat
  else ((List.range 63).map (· + 1)).find? (fun k => s.fns.all (fun e => e.1 == f || e.2.shaper.toNat != k))

/-- Whether every channel holds the Near granules that its set gives it (R208). -/
def channelsFit (s : State) : Bool := (List.range 640).all (fun c => decide (channelUsed s c ≤ channelFrames c))

/-- The state with a function sealed by its present shape (R509); none where a grant lacks or granules do not fit. -/
def sealFn (s : State) (f : Nat) : Option State :=
  let x := fnOf s f
  let nb := x.sealBolts.toNat
  let ns := x.sealStacks.toNat
  match sealSlot s f with
  | none => none
  | some slot =>
    if 12 < (heldBolts s f).length + nb || 15 < (heldStacks s f).length + ns then none
    else
      let s' := updFn s f (fun x => { x with
        isSealed := true, bolts := highestFree 16 nb (heldBolts s f), dedStacks := highestFree 20 ns (heldStacks s f)
        shaper := BitVec.ofNat 6 slot })
      let s' := if x.isSealed then s' else setShaper s' slot {}
      if channelsFit s' then some s' else none

/-- ISOLATION_SET takes effect, once no segment is queued or running whose function's channel set it changes (R208). -/
def isolate (s s' : State) (cid : Nat) : State := if segmentsMeet s s' then s else finish s' cid {}

/-- R509, R445, R208: ISOLATION_SET. Granules lie on the channels of the new sets when it ends. -/
def execIsolationSet (cid : Nat) (s : State) : Out := withCmd s cid 0x803 (fun a =>
  let f := a.p 32 1
  let busy := s.sched.admitted.any (fun b => b.cmd.fn == f && b.cmd.cid != cid) || s.prog.instances.any (fun e => e.2.fn == f)
  if busy then fail s cid stBusyMode
  else if a.p 33 1 = 1 then
    match sealFn s f with
    | some s' => isolate s s' cid
    | none => fail s cid stNoSpace
  else if !(fnOf s f).isSealed then finish s cid {}
  else
    let slot := (fnOf s f).shaper.toNat
    let s' := setShaper (updFn s f (fun x => { x with isSealed := false, bolts := [], dedStacks := [], shaper := 0 })) slot {}
    if channelsFit s' then isolate s s' cid else fail s cid stNoSpace)

/-- R513: VIOLATION_READ, with the count before any clearing. -/
def execViolationRead (cid : Nat) (s : State) : Out := withCmd s cid 0x804 (fun a =>
  let f := a.p 32 1
  let v := (fnOf s f).violations
  let s := if bit (a.p 33 1) 0 then updFn s f (fun x => { x with violations := 0 }) else s
  finish s cid { data := toLE 8 v.toNat })

end Sys2Proof.Machine
end

