-- ==== Sys2Proof/Machine/Start.lean ====
section
/-! DEFINITION. The start sequence (R481-R490), failed starts and firmware slots (R485-R487), restoring objects (R472,
R484), Kindling (R488, R489). -/

namespace Sys2Proof.Machine
open Sys2Proof

/-! ### Failed starts (R485-R487) -/

/-- The firmware slot that runs: A or B. -/
def runningSlot (b : Boot) : Option Nat := if b.slotRun = 0 then some 0 else if b.slotRun = 1 then some 1 else none

/-- A start fails at a stage: counted, a trial slot that ran loses its mark, and the node restarts with cause 5. -/
def failStart (s : State) (stage : Nat) : State :=
  let b := s.boot
  let trialRan := b.stages.contains 1 && b.trial.isSome && b.trial == runningSlot b
  let b := { b with
    failCount := satAdd b.failCount 1, failStage := BitVec.ofNat 4 stage
    trial := if trialRan then none else b.trial
    trialFailed := b.trialFailed || trialRan }
  deviceReset { s with boot := b } 5

/-! ### The stages -/

/-- The stages that must have ended before one ends (R481, R488): 5 and 6 run together, 7 follows 5, 8 follows 6 and 7. -/
def stageNeeds (kindling : Bool) : Nat → List Nat
  | 1 => []
  | 2 => [1]
  | 3 => if kindling then [1] else [2]
  | 4 => [3]
  | 5 => [4]
  | 6 => [4]
  | 7 => [5]
  | 8 => [6, 7]
  | _ => [8]


/-- The slot of a start (R487): strap codes 6 and 7, else the trial slot, else the last that reached
service-ready, else A, or after a failed trial the other slot. -/
def chooseSlot (b : Boot) : Nat :=
  if b.strapCode = 6 then 0 else if b.strapCode = 7 then 1
  else match b.trial with
    | some k => k
    | none => b.lastGood.getD (if b.trialFailed then 1 else 0)

/-- Stage 1 (R480, R481, R486-R488): strap code 9 clears the count; Kindling by the count or the strap; else the slot. -/
def stageBootRom (s : State) : State :=
  let b := s.boot
  let b := if b.strapCode = 9 then { b with failCount := 0 } else b
  let kind := decide (3 ≤ b.failCount.toNat) || strapKindling b
  if kind then { s with boot := { b with kindling := true, slotRun := 15 }, service := { s.service with panel := 3 } }
  else { s with boot := { b with slotRun := BitVec.ofNat 4 (chooseSlot b) } }

/-- Whether the image of the running slot passes at stage 2 (R485, R498); a slot never staged holds the image of
manufacture, which passes. -/
def imagePasses (s : State) : Bool :=
  match runningSlot s.boot with
  | none => true
  | some k => slotLen s.boot k == 0 || fwPasses s.glaesh.minSvn (slotMem s.boot k) ((slotMem s.boot k).nat 16 4)

/-- Stage 2 (R495, R501, R503): the image is released, the self-tests have passed, the alias key is there. -/
def stageVerify (s : State) : State :=
  let k := (runningSlot s.boot).getD 0
  let m := slotMem s.boot k
  let staged := slotLen s.boot k != 0
  { s with glaesh := { s.glaesh with
    katPass := true, aliasKey := true
    fwVersion := if staged then BitVec.ofNat 32 (m.nat 8 4) else Config.factoryVersion k
    fwSvn := if staged then BitVec.ofNat 32 (m.nat 12 4) else Config.factorySvn k } }

/-- Stage 4 (R481, R458): die bring-up at 0.650 V or V_FLOOR where that is higher. -/
def stageDie (s : State) : State :=
  { s with draught := { s.draught with vloomMv := BitVec.ofNat 16 (max 650 s.draught.vFloorMv.toNat) } }

/-- Stage 6 (R185, R186, R189, R190): the dies are identified, those that fail their checks declared failed, and the map and the
stripes recovered. -/
def stageFlash (s : State) (badDies : List Nat) : State := afterMedia s (startFlash s.flash (now s) badDies)

/-- Whether a map entry names a frame of an object. -/
def mapped (objs : AMap Obj) (l : Loc) : Bool :=
  (AMap.get? objs l.obj).any (fun o => o.frames.any (fun fr => fr.ver == l.ver && fr.gran == l.gran))

/-- An object's frames with the granules that the media have lost marked (R204). -/
def withLosses (fl : Flash) (oid : Nat) (o : Obj) : Obj :=
  { o with frames := o.frames.map (fun fr => { fr with lost := fl.lost.contains (oid, fr.ver, fr.gran) }) }

/-- The highest restored serial of a function (R484). -/
def highestSerial (objs : AMap Obj) (f : Nat) : Nat :=
  objs.foldl (fun m e => if e.2.fn = f then max m (oidSerial e.1) else m) 0

/-- Stage 8 (R472, R473, R480, R484): the dormant image's objects, else those of the directory, none with strap code 5;
what is not restored is unmapped, and serial numbers go on above the restored ones. -/
def stageRestore (s : State) : State :=
  let objs := if s.boot.strapCode = 5 then [] else if s.boot.dormantMark then s.boot.dormantImage else s.boot.directory
  let s := mapFns s (fun f x => { x with objSerial := max x.objSerial (highestSerial objs f) })
  let kept (x : Nat × Nat × Nat) : Bool := (AMap.get? objs x.1).any (fun o => o.frames.any (fun fr => fr.ver == x.2.1 && fr.gran == x.2.2))
  { s with
    space := { s.space with objs := objs.map (fun e => (e.1, withLosses s.flash e.1 e.2)) }
    flash := { s.flash with map := s.flash.map.filter (mapped objs), lost := s.flash.lost.filter kept }
    boot := { s.boot with dormantMark := false, dormantImage := [], directory := [] } }

/-- Service-ready (R388, R482, R483, R500, R524): reed modes cleared, count and trial mark cleared, admission open,
READY, MIN_SVN raised, fabric training started. -/
def serviceReady (s : State) : State :=
  let good := runningSlot s.boot
  let s := { s with
    reeds := { s.reeds with argmaxOnly := 0 }
    boot := { s.boot with
      failCount := 0, starting := false, serviceReady := true
      trial := if s.boot.trial == good then none else s.boot.trial
      lastGood := if good.isSome then good else s.boot.lastGood }
    glaesh := { s.glaesh with minSvn := BitVec.ofNat 32 (max s.glaesh.minSvn.toNat s.glaesh.fwSvn.toNat) }
    service := { s.service with panel := 1 } }
  let s := mapFns s (fun f x => if f == 0 || x.present then { x with ready := true } else x)
  if strapNoFabric s.boot then s
  else { s with fabric := { s.fabric with
    ports := (List.range 12).map (fun p => (p, { AMap.getD s.fabric.ports p {} with state := .detect, since := now s })) } }

/-- Whether two of the dies lie in one stripe group (R192). -/
def groupLost (dies : List Nat) : Bool :=
  (List.range 16).any (fun g => decide (1 < ((List.range 512).filter (fun d => d % 16 == g && dies.contains d)).length))

/-- Whether firmware declares failure at a stage (R485): only at 2 and 4 to 8, at 2 also for an image that does not pass, at 6 when
more than one die of a stripe group fails its checks. -/
def stageFails (s : State) (stage : Nat) (failed : Bool) (badDies : List Nat) : Bool :=
  if stage = 2 then failed || !imagePasses s
  else if stage = 6 then groupLost badDies
  else failed && (stage == 4 || stage == 5 || stage == 7 || stage == 8)

/-- What the end of a stage does outside Kindling. -/
def stageEffect (s : State) (badDies : List Nat) : Nat → State
  | 1 => stageBootRom s
  | 2 => stageVerify s
  | 4 => stageDie s
  | 6 => stageFlash s badDies
  | 8 => stageRestore s
  | 9 => serviceReady s
  | _ => s

/-- The object of Kindling (R489): 1 MiB of function 0, in the Kindling bolt's weave stores, with no granule on a tier. -/
def kindlingObj : Obj := {
  fn := 0, kind := .data, base := granule * 16384, span := 16
  versions := [{ num := 0, size := 1048576, origin := 0 }] }

/-- Kindling is ready (R488, R489): its object is there, and function 0 is READY. -/
def kindlingReady (s : State) : State :=
  updFn { s with space := { s.space with objs := [(1, kindlingObj)] } } 0 (fun x => { x with ready := true, objSerial := 1 })

/-- The test of the next bolt in Kindling ends (R488, R489): the first that passes is the Kindling bolt. After the sixteenth,
function 0 is READY where one has passed. -/
def boltTested (s : State) (failed : Bool) : State :=
  let s := stageDie s
  let n := s.boot.boltsTested
  let b := { s.boot with boltsTested := n + 1, starting := decide (n + 1 < 16) }
  let b := if failed then { b with failedBolts := b.failedBolts ++ [n] }
    else if b.kindlingBolt.isNone then { b with kindlingBolt := some n } else b
  let s := { s with boot := b }
  if !b.starting && b.kindlingBolt.isSome then kindlingReady s else s

/-- R481-R490: a stage of the start sequence ends in its order, or its declared failure is taken. In Kindling, stages 1
and 3 end, and then each row of stage 4 is the test of the next bolt. -/
def execStartStageEnd (stage : Nat) (failed : Bool) (s : State) (badDies : List Nat := []) : Out :=
  let b := s.boot
  if !b.starting || stage = 0 || 9 < stage || !(stageNeeds b.kindling stage).all b.stages.contains then .next s
  else if b.kindling then
    if stage = 4 then .next (boltTested s failed)
    else if stage = 3 && !b.stages.contains 3 then .next { s with boot := { b with stages := b.stages ++ [3] } }
    else .next s
  else if b.stages.contains stage then .next s
  else if stageFails s stage failed badDies then .next (failStart s stage)
  else
    let s := stageEffect s badDies stage
    .next { s with boot := { s.boot with stages := s.boot.stages ++ [stage] } }

/-- R485: 20 s since reset release without service-ready: the start fails at the lowest stage not yet ended. Kindling is
not subject to it (R488). -/
def execStartTimeout (s : State) : Out :=
  if s.boot.starting && !s.boot.kindling then .next (failStart s (stageNow s)) else .next s

end Sys2Proof.Machine
end

