-- ==== Sys2Proof/Machine/Service.lean ====
section
/-! DEFINITION. Health evaluation (R517, R518), the front panel and removal (R524-R526), and the snapshot trigger's
internal sources and copy (R521, R522). -/

namespace Sys2Proof.Machine
open Sys2Proof

/-- The score (R517). -/
def healthScore (s : State) : Nat :=
  let v := s.service
  100 - (min 20 (Hours.total v.ce24 / 1000) + min 30 (5 * Hours.total v.ue24) + min 10 (Hours.total v.soft24 / 100000) +
    min 40 (5 * s.flash.dies.countP (·.2.failed)) + min 20 (2 * Hours.total v.retrains24) +
    min 20 (5 * Hours.total s.link.downs24) + min 40 (2 * unitsOut s) + (if s.draught.ageWarn then 10 else 0))

/-- The fault bits (R518). -/
def healthFaults (s : State) : Nat :=
  b2n (decide (750 < s.draught.ageFloorMv.toNat)) + 2 * b2n (unitsOut s != 0) + 4 * b2n (peatLost s != 0) +
  8 * b2n (decide (s.flash.headroom < 4096)) + 16 * b2n (s.boot.kindling && s.boot.failedBolts.length == 16) +
  32 * b2n (s.fabric.node != 0xFFFF && portsActive s == 0 && decide (s.service.portsDownSince + 1000000000 ≤ now s))

/-- The state of a score and fault bits (R518). -/
def healthState (kindling : Bool) (score faults : Nat) : Nat :=
  if kindling then 3 else if score < 50 || faults ≠ 0 then 2 else if score < 80 then 1 else 0

/-- R517, R518, R522: score, fault bits and state; a change of state posts event 3, and entering state 2 is a snapshot
source. -/
def execHealthEvaluate (s : State) : Out :=
  let s := recur s .health
  let score := healthScore s
  let faults := healthFaults s
  let st := healthState s.boot.kindling score faults
  let was := s.service.state.toNat
  let s := { s with service := { s.service with
    score := BitVec.ofNat 8 score, faults := BitVec.ofNat 16 faults, state := BitVec.ofNat 2 st } }
  if st = was then .next s
  else
    let s := postEvent s 0 3 (BitVec.ofNat 32 st) (BitVec.ofNat 32 score) (BitVec.ofNat 64 faults)
    .next (if st = 2 then causeSnap s 3 else s)

/-- A press that begins a removal, or will once Banked is left, with its time. -/
def pressed (s : State) : State :=
  if s.service.pressPending then s else { s with service := { s.service with pressPending := true, removalSince := now s } }

/-- R525, R533: a press: in service or Banked a removal begins, Banked being left first; in a removal it is cancelled; in
the safe state the rails restart as by POWER_CYCLE; during Dormant entry and elsewhere nothing. -/
def execPanelPress (s : State) : Out :=
  match s.service.mode with
  | .service => .next (if s.boot.serviceReady && s.service.panel = 1 then beginRemoval (pressed s) else s)
  | .enteringBanked => .next (pressed s)
  | .banked => let s := pressed s; .next { s with service := { s.service with mode := .leavingBanked } }
  | .leavingBanked => .next (pressed s)
  | .removal =>
    if s.board.holdUp then .next s
    else .next (postEvent { s with service := { s.service with mode := .service, panel := 1 } } 0 5 0 0 s.time)
  | .safe => .next (powerCycle s)
  | .enteringDormant => .next s
  | .dormant => .next s

/-- R526: a hold of 5 s forces the node offline: outside Kindling a forced-offline report, then the hold-up sequence as
for input loss, after whose end the node is safe to remove; with the rails off it is so at once. Not in the safe state. -/
def execPanelHold (s : State) : Out :=
  if s.service.mode = .safe then .next s
  else
    let s := if s.boot.kindling then s else sendReport s 5 (healthRecord s)
    if s.board.pwrGood then
      let s := beginHoldUp s
      .next { s with service := { s.service with mode := .removal } }
    else if s.board.holdUp then .next { s with service := { s.service with mode := .removal } }
    else
      let s := railsOff s
      .next { s with service := { s.service with mode := .safe, panel := 5 } }

/-- Whether nothing holds a removal back (R525 step 3): no command of another function is admitted, no MIGRATE runs. -/
def drainedForRemoval (s : State) : Bool :=
  s.sched.admitted.all (fun a => a.fn == 0 && a.cmd.opcode != 0x605)

/-- R525 steps 3 to 5: nothing of another function runs any more, or 30 s have passed since the press: journal and map
are written, the ready report is sent, the rails go off and the node is safe to remove. -/
def execRemovalProceed (s : State) : Out :=
  if s.service.mode ≠ .removal || s.board.holdUp then .next s
  else
    let s := if drainedForRemoval s then s else advanceTo s (s.service.removalSince + 3000000000)
    let fl := holdUp s.flash
    let s := { s with flash := { fl with mapFlash := fl.map, journalFlash := [] } }
    let s := railsOff (sendReport s 4 (healthRecord s))
    .next { s with service := { s.service with mode := .safe, panel := 5 } }

/-- R522: an internal source of SNAP_CTL whose occasion has come fires the trigger; SRC bit i is source i + 1. -/
def execSnapshotTrigger (src : Nat) (s : State) : Out :=
  if s.service.snapDue.contains src then
    let s := { s with service := { s.service with snapDue := s.service.snapDue.erase src } }
    .next (fireSnapshot s (src + 1))
  else .next s

/-- R521: every bank has been copied into the store. -/
def execSnapshotCopyDone (s : State) : Out :=
  if s.service.frozen && !s.service.valid then
    .next { s with service := { s.service with store := s.service.latched, valid := true } }
  else .next s

end Sys2Proof.Machine
end

