-- ==== Sys2Proof/Machine/ShuttleOps.lean ====
section
/-! DEFINITION. Instructions of shuttles (R271-R289): formats and the legality of a word, registers an instruction uses,
the frame in which every instruction runs, results of integer, FP32 and lane operations, loads, stores and atomics. -/

namespace Sys2Proof.Machine
open Sys2Proof

/-! ### Words (R279, R280) -/

/-- The mnemonics of R280. -/
inductive ShOp where
  | alu | fpu | addi | andi | ori | xori | shi | slti | lui | gets | ld1 | ld2 | ld4 | ld8 | lds1 | lds2 | lds4
  | st1 | st2 | st4 | st8 | vld | vst | amo | fence | beq | bne | blt | bge | bltu | bgeu | jal | jalr | vop
  | karr | kwait | kset | ktest | issue | irq | halt | exit
deriving DecidableEq, Repr

/-- Fields of a word. -/
def fOp (w : Nat) : Nat := bits w 31 26
def fRd (w : Nat) : Nat := bits w 25 20
def fRa (w : Nat) : Nat := bits w 19 14
def fRb (w : Nat) : Nat := bits w 13 8
def fFn (w : Nat) : Nat := bits w 7 0
def fImm (w : Nat) : Nat := bits w 13 0
def fVd (w : Nat) : Nat := bits w 25 23
def fVa (w : Nat) : Nat := bits w 22 20
def fVb (w : Nat) : Nat := bits w 19 17
def fElt (w : Nat) : Nat := bits w 7 4
def fVfn (w : Nat) : Nat := bits w 3 0

/-- A sign-extended IMM14 or OFF14 (R279). -/
def fImmS (w : Nat) : Int := signed 14 (fImm w)

/-- The mnemonic of a legal word; none for an illegal instruction (R280, R284). -/
def shDecode (w : Nat) (collectives : Bool) : Option ShOp :=
  let zero (b : Bool) (o : ShOp) : Option ShOp := if b then some o else none
  match fOp w with
  | 0 => zero (fFn w ≤ 21) .alu
  | 1 => zero (fFn w ≤ 5 || (8 ≤ fFn w && fFn w ≤ 11)) .fpu
  | 2 => some .addi
  | 3 => some .andi
  | 4 => some .ori
  | 5 => some .xori
  | 6 => zero (bits w 13 12 ≤ 2 && bits w 11 6 == 0) .shi
  | 7 => some .slti
  | 8 => some .lui
  | 9 => zero (fRa w == 0) .gets
  | 16 => some .ld1
  | 17 => some .ld2
  | 18 => some .ld4
  | 19 => some .ld8
  | 20 => some .lds1
  | 21 => some .lds2
  | 22 => some .lds4
  | 24 => some .st1
  | 25 => some .st2
  | 26 => some .st4
  | 27 => some .st8
  | 28 => zero (fVa w == 0) .vld
  | 29 => zero (fVa w == 0) .vst
  | 30 => zero (fFn w ≤ 2) .amo
  | 31 => zero (bits w 25 0 == 0) .fence
  | 32 => some .beq
  | 33 => some .bne
  | 34 => some .blt
  | 35 => some .bge
  | 36 => some .bltu
  | 37 => some .bgeu
  | 38 => some .jal
  | 39 => some .jalr
  | 40 => zero (bits w 16 14 == 0 && fElt w ≤ 8 && fVfn w ≤ 10) .vop
  | 48 => zero (fRd w == 0 && 1 ≤ fImm w && fImm w ≤ 8191) .karr
  | 49 => zero (fImm w == 0) .kwait
  | 50 => some .kset
  | 51 => some .ktest
  | 56 => zero (bits w 16 14 == 0 && bits w 13 4 == 0 && (fVfn w ≤ 2 || (fVfn w == 3 && collectives))) .issue
  | 57 => zero (fRd w == 0 && fRa w == 0 && 2 ≤ fImm w && fImm w ≤ 7) .irq
  | 58 => zero (bits w 25 0 == 0) .halt
  | 59 => some .exit
  | _ => none

/-- General registers that an instruction reads or writes. -/
def usesG (o : ShOp) (w : Nat) : List Nat :=
  match o with
  | .alu | .fpu | .amo | .kset => [fRd w, fRa w, fRb w]
  | .beq | .bne | .blt | .bge | .bltu | .bgeu => [fRd w, fRa w]
  | .lui | .gets | .issue => [fRd w]
  | .jal => [63]
  | .vld | .vst => [fRa w]
  | .vop => if fVfn w = 5 || fVfn w = 6 || fVfn w = 7 then [fRb w] else []
  | .fence | .halt | .irq => []
  | .karr | .exit => [fRa w]
  | _ => [fRd w, fRa w]

/-- Vector registers that an instruction reads or writes. -/
def usesV (o : ShOp) (w : Nat) : List Nat :=
  match o with
  | .vld | .vst => [fVd w]
  | .vop => [fVd w, fVa w, fVb w]
  | .issue => [fVb w]
  | _ => []

/-- Whether an instruction waits for an outstanding load (R286, R288): a register of its own, or any for FENCE, which with KARR
waits for the `posted` stores and atomics that a channel holds. -/
def blocked (x : Shuttle) (posted : Nat) (o : ShOp) (w : Nat) : Bool :=
  (o == .fence && (!x.pending.isEmpty || posted != 0)) || (o == .karr && posted != 0) ||
  x.pending.any (fun p => if p.vector then (usesV o w).contains p.reg else p.reg != 0 && (usesG o w).contains p.reg)

/-! ### The frame of an instruction -/

/-- What an instruction runs with: its shuttle and number, the instance and its number, the image, the word. -/
structure ShCtx where
  sh : Nat
  x : Shuttle
  no : Nat
  i : Instance
  m : Mem
  w : Nat

/-- The loom of the shuttle. -/
def ShCtx.loom (c : ShCtx) : Nat := c.sh / 128

/-- Register operands. -/
def ShCtx.ga (c : ShCtx) : BitVec 64 := c.x.reg (fRa c.w)
def ShCtx.gb (c : ShCtx) : BitVec 64 := c.x.reg (fRb c.w)
def ShCtx.gd (c : ShCtx) : BitVec 64 := c.x.reg (fRd c.w)
def ShCtx.va (c : ShCtx) : BitVec 512 := c.x.vec (fVa c.w)
def ShCtx.vb (c : ShCtx) : BitVec 512 := c.x.vec (fVb c.w)
def ShCtx.vd (c : ShCtx) : BitVec 512 := c.x.vec (fVd c.w)

/-- The immediate as a 64-bit value, sign-extended. -/
def ShCtx.imm (c : ShCtx) : BitVec 64 := BitVec.ofInt 64 (fImmS c.w)

/-- The address of a load, store or vector access (R280). -/
def ShCtx.addr (c : ShCtx) : Nat := (c.ga + c.imm).toNat

/-- A shuttle put at a code offset: Ready, or waiting for its line (R272, R273). -/
def ShCtx.goto (c : ShCtx) (s : State) (x : Shuttle) (pc : Nat) : State :=
  putShuttle s c.sh { x with
    pc := BitVec.ofNat 32 pc
    state := if lineHere s c.i.image c.loom pc || decide (imgCodeLen c.m ≤ pc) then .ready else .waitFetch }

/-- The next instruction in order. -/
def ShCtx.step (c : ShCtx) (s : State) (x : Shuttle) : State := c.goto s x (c.x.pc.toNat + 4)

/-- A general or a vector register written, then the next instruction. -/
def ShCtx.put (c : ShCtx) (s : State) (v : BitVec 64) : State := c.step s (c.x.setReg (fRd c.w) v)
def ShCtx.putV (c : ShCtx) (s : State) (v : BitVec 512) : State := c.step s (c.x.setVec (fVd c.w) v)

/-- The instance ends with END 2 by a fault of this instruction (R283, R303). -/
def ShCtx.fault (c : ShCtx) (s : State) (k : Nat) : State := instanceEnds s c.no (faultInfo s c.sh 2 k c.x.pc 0)

/-- The shuttle waits for memory or a queue (R272). -/
def ShCtx.wait (c : ShCtx) (s : State) : State := putShuttle s c.sh { c.x with state := .waitMem }

/-- A jump or taken branch (R283): FAULT 3 where the target is not a multiple of 4 or lies outside the code section. -/
def ShCtx.jump (c : ShCtx) (s : State) (x : Shuttle) (target : Int) : State :=
  if target < 0 || target % 4 ≠ 0 || (imgCodeLen c.m : Int) ≤ target then c.fault s 3 else c.goto s x target.toNat

/-- Whether it is a shuttle's turn to issue (R271): no Ready shuttle of its engine stands between the one that issued last and it,
in ascending number from 63 round to 0. -/
def issueTurn (s : State) (sh : Nat) : Bool :=
  let after (k : Nat) : Nat := (k % 64 + 63 - AMap.getD s.prog.lastIssue (sh / 64) 63) % 64
  !(s.prog.shuttles.any (fun e => e.1 / 64 == sh / 64 && e.2.state == .ready && decide (after e.1 < after sh)))

/-- A shuttle has issued (R271). -/
def issued (s : State) (sh : Nat) : State :=
  { s with prog := { s.prog with lastIssue := AMap.insert s.prog.lastIssue (sh / 64) (sh % 64) } }

/-- The row of a mnemonic on a shuttle: it acts in the shuttle's turn where its next instruction is a legal word of that mnemonic.
An illegal word is FAULT 1, a pc beyond the code section FAULT 3 (R283). -/
def withIns (o : ShOp) (sh : Nat) (s : State) (k : ShCtx → State → State) : Out :=
  let x := shuttleOf s sh
  if (x.state != .ready && x.state != .waitMem) || !issueTurn s sh then .next s
  else match AMap.get? s.prog.instances x.inst with
    | none => .next s
    | some i =>
      let m := imageOf s i
      let pc := x.pc.toNat
      let c : ShCtx := { sh := sh, x := x, no := x.inst, i := i, m := m, w := (imgWord m pc).toNat }
      if imgCodeLen m ≤ pc then .next (c.fault s 3)
      else if !lineHere s i.image c.loom pc then .next (putShuttle s sh { x with state := .waitFetch })
      else match shDecode c.w (i.features.getLsbD 17) with
        | none => .next (c.fault s 1)
        | some o' =>
          if o' != o then .next s
          else if blocked x (postedWrites s sh) o c.w then .next (c.wait s)
          else
            let s := meterTask s (charge (issued s sh) i.fn 180 true) c.no x.task i.fn
            .next (meterTask s (k c s) c.no x.task i.fn)

/-! ### Results (R281, R282) -/

/-- Leading zeros and ones of a 64-bit value. -/
def clz64 (v : BitVec 64) : Nat := if v = 0 then 64 else 63 - Nat.log2 v.toNat
def popc64 (v : BitVec 64) : Nat := (List.range 64).countP v.getLsbD

/-- Signed comparison. -/
def slt64 (a b : BitVec 64) : Bool := decide (a.toInt < b.toInt)

/-- A 64-bit value from a Boolean. -/
def b64 (b : Bool) : BitVec 64 := if b then 1 else 0

/-- Signed division truncating toward zero, and its remainder, with the corners of R281. -/
def div64 (a b : BitVec 64) : BitVec 64 := if b = 0 then BitVec.allOnes 64 else BitVec.ofInt 64 (a.toInt.tdiv b.toInt)
def rem64 (a b : BitVec 64) : BitVec 64 := if b = 0 then a else BitVec.ofInt 64 (a.toInt.tmod b.toInt)

/-- ALU (R280, R281). -/
def aluResult (fn : Nat) (a b : BitVec 64) : BitVec 64 :=
  match fn with
  | 0 => a + b
  | 1 => a - b
  | 2 => a &&& b
  | 3 => a ||| b
  | 4 => a ^^^ b
  | 5 => a <<< (b.toNat % 64)
  | 6 => a >>> (b.toNat % 64)
  | 7 => a.sshiftRight (b.toNat % 64)
  | 8 => a * b
  | 9 => BitVec.ofNat 64 (a.toNat * b.toNat / 2 ^ 64)
  | 10 => if b = 0 then BitVec.allOnes 64 else BitVec.ofNat 64 (a.toNat / b.toNat)
  | 11 => if b = 0 then a else BitVec.ofNat 64 (a.toNat % b.toNat)
  | 12 => div64 a b
  | 13 => rem64 a b
  | 14 => b64 (slt64 a b)
  | 15 => b64 (decide (a.toNat < b.toNat))
  | 16 => if slt64 b a then b else a
  | 17 => if slt64 a b then b else a
  | 18 => if b.toNat < a.toNat then b else a
  | 19 => if a.toNat < b.toNat then b else a
  | 20 => BitVec.ofNat 64 (clz64 a)
  | _ => BitVec.ofNat 64 (popc64 a)

/-- FMIN and FMAX: the canonical NaN with a NaN, the first operand among equals (R281). -/
def fmin32 (a b : Word) : Word := if isNan a || isNan b then toF32 .nan else if flt b a then b else a
def fmax32 (a b : Word) : Word := if isNan a || isNan b then toF32 .nan else if flt a b then b else a

/-- FPU (R280, R281). F2I gives a signed 64-bit integer, every other result bits [31:0]. -/
def fpuResult (fn : Nat) (ga gb : BitVec 64) : BitVec 64 :=
  let a : Word := ga.setWidth 32
  let b : Word := gb.setWidth 32
  let w (x : Word) : BitVec 64 := x.setWidth 64
  match fn with
  | 0 => w (fadd a b)
  | 1 => w (fsub a b)
  | 2 => w (fmul a b)
  | 3 => w (fdiv a b)
  | 4 => w (fmin32 a b)
  | 5 => w (fmax32 a b)
  | 8 => b64 (flt a b)
  | 9 => b64 (feq a b)
  | 10 => BitVec.ofInt 64 (toIntClamp (f32 a) (-(2 ^ 63)) (2 ^ 63 - 1))
  | _ => w (i2f ga.toInt)

/-- SHI (R280). -/
def shiResult (w : Nat) (a : BitVec 64) : BitVec 64 :=
  let n := bits w 5 0
  match bits w 13 12 with
  | 0 => a <<< n
  | 1 => a >>> n
  | _ => a.sshiftRight n

/-- Bits of a lane, and whether it is a float (R282). -/
def laneBits (elt : Nat) : Nat := match elt with | 0 => 8 | 1 => 16 | 2 => 32 | 3 => 64 | 4 => 32 | 5 => 16 | 6 => 16 | _ => 8
def laneFmt (elt : Nat) : Option Fmt :=
  match elt with | 4 => some fp32 | 5 => some bf16 | 6 => some fp16 | 7 => some e4m3 | 8 => some e5m2 | _ => none

/-- Lanes of a register, and a register of lanes. -/
def lanesOf (elt : Nat) (v : BitVec 512) : List Nat :=
  (List.range (512 / laneBits elt)).map (fun i => v.toNat / 2 ^ (laneBits elt * i) % 2 ^ laneBits elt)
def ofLanes (wd : Nat) (ls : List Nat) : BitVec 512 :=
  BitVec.ofNat 512 (ls.reverse.foldl (fun n l => n * 2 ^ wd + l % 2 ^ wd) 0)

/-- A lane operation (R282): integers wrap, floats are computed in FP32 and rounded once to the lane type. -/
def laneOp (elt vfn a b : Nat) : Nat :=
  match laneFmt elt with
  | some f =>
    let x := f.toF32 a
    let y := f.toF32 b
    f.ofF32 (match vfn with | 0 => fadd x y | 1 => fsub x y | 2 => fmul x y | 3 => fmin32 x y | _ => fmax32 x y)
  | none =>
    let wd := laneBits elt
    let x := signed wd a
    let y := signed wd b
    unsigned wd (match vfn with | 0 => x + y | 1 => x - y | 2 => x * y | 3 => min x y | _ => max x y)

/-- A value of a lane (R282). -/
def laneVal (elt a : Nat) : Val := match laneFmt elt with | some f => f.decode a | none => ofInt (signed (laneBits elt) a)

/-- Conversion of an FP32 value to a lane (R263, R282): integers rounded and clamped, INT8 to +-127. -/
def laneOfF32 (elt : Nat) (x : Word) : Nat :=
  match laneFmt elt with
  | some f => f.ofF32 x
  | none =>
    let wd := laneBits elt
    let hi : Int := 2 ^ (wd - 1) - 1
    unsigned wd (toIntClamp (f32 x) (if wd = 8 then -hi else -hi - 1) hi)

/-- The low bits of a register replaced. -/
def setLow (v : BitVec 512) (wd n : Nat) : BitVec 512 := BitVec.ofNat 512 (v.toNat / 2 ^ wd * 2 ^ wd + n % 2 ^ wd)

/-- VOP (R282). -/
def vopResult (elt vfn : Nat) (va vb vd : BitVec 512) (gc : BitVec 64) : BitVec 512 :=
  let wd := laneBits elt
  let n := 512 / wd
  let idx := gc.toNat % 64
  let a := lanesOf elt va
  match vfn with
  | 5 => ofLanes wd (List.replicate n (match laneFmt elt with
      | some _ => laneOfF32 elt (gc.setWidth 32)
      | none => gc.toNat % 2 ^ wd))
  | 6 => ofLanes wd ((lanesOf elt vd).set idx (a.getD 0 0))
  | 7 => ofLanes wd [a.getD idx 0]
  | 8 => match laneFmt elt with
    | some f => setLow vd 32 (a.foldl (fun acc x => fadd acc (f.toF32 x)) 0).toNat
    | none => setLow vd 64 (unsigned 64 (a.foldl (fun acc x => acc + signed wd x) 0))
  | 9 => ofLanes wd (((lanesOf 4 va).take n).map (fun x => laneOfF32 elt (BitVec.ofNat 32 x)))
  | 10 => setLow vd 32 (chainFrom 0 (a.map (laneVal elt)) ((lanesOf elt vb).map (laneVal elt))).toNat
  | _ => ofLanes wd ((a.zip (lanesOf elt vb)).map (fun p => laneOp elt vfn p.1 p.2))

/-- A branch's condition (R280): ga and gb are bits [25:20] and [19:14] of its word. -/
def branchTaken (o : ShOp) (a b : BitVec 64) : Bool :=
  match o with
  | .beq => a == b
  | .bne => a != b
  | .blt => slt64 a b
  | .bge => !slt64 a b
  | .bltu => decide (a.toNat < b.toNat)
  | _ => decide (b.toNat ≤ a.toNat)

/-- Special registers (R275). -/
def specialReg (s : State) (c : ShCtx) (n : Nat) : BitVec 64 :=
  let slot (k : Nat) : Nat × Nat := c.i.slots.getD k (0, 0)
  if n = 0 then BitVec.ofNat 64 c.no
  else if n = 1 then BitVec.ofNat 64 c.i.fn
  else if n = 2 then BitVec.ofNat 64 c.loom
  else if n = 3 then BitVec.ofNat 64 (c.sh % 128)
  else if n = 4 then BitVec.ofNat 64 c.x.task
  else if n = 5 then c.i.step
  else if n = 6 then s.time
  else if n = 7 then BitVec.ofNat 64 (AMap.getD c.i.wsBase c.loom 0)
  else if n = 8 then BitVec.ofNat 64 c.i.wsBytes
  else if 64 ≤ n && n < 128 then
    match (liveObj s (slot (n - 64)).1).filter (fun o => mayRead o c.i.fn) with
    | some o => BitVec.ofNat 64 o.base
    | none => 0
  else if 128 ≤ n && n < 192 then BitVec.ofNat 64 (slot (n - 128)).2
  else 0

/-! ### Memory (R276-R278, R286, R287) -/

/-- Energy of an access of n bytes (R466). -/
def chargeAccess (s : State) (c : ShCtx) (a n : Nat) : State :=
  match shAddr a with
  | .weave _ => charge s c.i.fn (60 * ceilDiv n 64) true
  | .space _ => charge s c.i.fn (620 * ceilDiv n 64) false
  | .none => s

/-- A read that fails on the peat tier ends the instance with END 3 (R287). -/
def ShCtx.lost (c : ShCtx) (s : State) : State :=
  instanceEnds (countTierFail s c.i.fn) c.no (faultInfo s c.sh 3 0 c.x.pc 0)

/-- Work that meets an uncorrectable block ends its instance with END 1 (R516). -/
def ShCtx.broken (c : ShCtx) (s : State) : State := instanceEnds s c.no (faultInfo s c.sh 1 0 c.x.pc 0)

/-- A load (R277, R278, R283, R286, R287): its value is on its way to the register, or its request held on a channel (R210). -/
def ShCtx.load (c : ShCtx) (s : State) (n reg : Nat) (vector extend : Bool) : State :=
  let a := c.addr
  if a % n ≠ 0 then c.fault s 2
  else if 8 ≤ c.x.pending.length then c.wait s
  else if progBad .lost s c.i a n then c.lost s
  else if progBad .any s c.i a n then c.broken s
  else
    let p : Operand := { vector := vector, reg := reg, value := 0, addr := a, pc := c.x.pc }
    let out (s : State) (p : Operand) : State := c.step (chargeAccess s c a n) { c.x with pending := c.x.pending ++ [p] }
    match shHeld s c.i a with
    | some (ch, oid, off, ver) => out (holdRequest s ch ⟨c.i.fn, .shuttle c.sh c.no, a, oid, off, ver, n, .load extend, []⟩) { p with held := true }
    | none =>
    let (bs, bad) := progRead s c.i c.loom a n
    let s := if bad then progViolate s c.no else s
    let s := match shAddr a with
      | .space addr => match progPlace s c.i.fn addr with
        | some (some (oid, off)) => queueRange s (.shuttle c.sh) oid ((objOf s oid).elim 0 (progVersion c.i oid)) off n none
        | _ => s
      | .weave _ | .none => s
    out s { p with value := loadValue extend bs }

/-- A scalar load, zero- or sign-extended (R280). -/
def ShCtx.loadG (c : ShCtx) (s : State) (n : Nat) (sx : Bool) : State :=
  c.load s n (fRd c.w) false sx

/-- A store of bytes (R277, R278, R283): done, or posted where its channel holds it, 16 of a shuttle at most (R286). -/
def ShCtx.store (c : ShCtx) (s : State) (n : Nat) (v : Nat) : State :=
  let a := c.addr
  if a % n ≠ 0 then c.fault s 2
  else match shHeld s c.i a with
    | some (ch, oid, off, ver) =>
      if 16 ≤ postedStores s c.sh then c.wait s
      else c.step (holdRequest (chargeAccess s c a n) ch ⟨c.i.fn, .shuttle c.sh c.no, a, oid, off, ver, n, .write (toLE n v), []⟩) c.x
    | none => c.step (progWrite (chargeAccess s c a n) c.no c.i c.loom a (toLE n v)) c.x

/-- The memory an atomic works on (R277, R278, R287): written back or not, or the instance ends. -/
inductive AtomicAt where
  | write (s : State)
  | discard (s : State)
  | wait
  | noRoom
  | lost
  | broken

/-- What an atomic's address allows. -/
def atomicAt (s : State) (c : ShCtx) (a : Nat) : AtomicAt :=
  match shAddr a with
  | .weave off => if inRegion c.i c.loom off 8 then .write s else .discard (progViolate s c.no)
  | .none => .discard (progViolate s c.no)
  | .space addr => match resolve s c.i.fn addr with
    | .unassigned => .discard (progViolate s c.no)
    | .quiet => .discard s
    | .bytes oid off =>
      match objOf s oid with
      | none => .discard s
      | some o =>
        if o.kind != .data then .discard s
        else if rangeBad .lost o o.current off 8 then .lost
        else if rangeBad .any o o.current off 8 then .broken
        else if bringHeld s oid (off / granule) then .wait
        else match bringNear s oid (off / granule) with
          | some s => .write s
          | none => .noRoom

/-- AMO (R280, R287): performed, or held on its channel (R210). -/
def ShCtx.atomic (c : ShCtx) (s : State) : State :=
  let a := c.ga.toNat
  if a % 8 ≠ 0 then c.fault s 2
  else if 8 ≤ c.x.pending.length then c.wait s
  else
    let old : BitVec 64 := BitVec.ofNat 64 (leNat (progRead s c.i c.loom a 8).1)
    let p : Operand := { vector := false, reg := fRd c.w, value := old.setWidth 512, addr := a, pc := c.x.pc }
    let back (p : Operand) : Shuttle := { c.x with pending := c.x.pending ++ [p] }
    match atomicAt s c a with
    | .noRoom => c.fault s 4
    | .lost => c.lost s
    | .broken => c.broken s
    | .wait => c.wait s
    | .discard s => c.step s (back p)
    | .write s =>
      let s := chargeAccess s c a 8
      match shHeld s c.i a with
      | some (ch, oid, off, ver) =>
        c.step (holdRequest s ch ⟨c.i.fn, .shuttle c.sh c.no, a, oid, off, ver, 8, .atomic (fFn c.w) c.gb c.gd, []⟩) (back { p with held := true })
      | none => c.step (progWrite s c.no c.i c.loom a (toLE 8 (amoValue (fFn c.w) old c.gb c.gd).toNat)) (back p)

/-! ### ISSUE (R284) -/

/-- The 64 bytes of the descriptor. -/
def ShCtx.desc (c : ShCtx) : List Byte := toLE 64 c.vb.toNat

/-- A spindle segment that a program issues alone (R216, R217, R284): none where it is rejected. -/
def issueSegment (s : State) (c : ShCtx) : Option State :=
  let d := c.desc
  let f := c.i.fn
  let x := segOf d
  let ch := segChannel s f x
  if segMissing s f x || !segOk s f d (fun k => c.i.chans.contains k) || seqOverlaps [x] then none
  else
    let gs := segGranules s f [x]
    if gs.any (granuleLost s) || segEcc s x then none
    else (bringAll s gs).map (fun s =>
      let s := if segForeign s f x then progViolate s c.no else s
      let (s, _, off) := takeSegment s f (.inr c.no) 0 d
      let s := off.foldl (fun s e => runOffChannel s f (segOf e.2)) s
      match ch with
      | some k => if x.rows = 0 then s else updInst s c.no (fun i => { i with chans := (k :: i.chans).eraseDups })
      | none => s)

/-- ISSUE: gd is 0 where the descriptor is accepted, 1 where it is rejected; a full queue holds the shuttle (R284, R336). -/
def ShCtx.issue (c : ShCtx) (s : State) : State :=
  let d := c.desc
  let yes := c.put s 0
  match fVfn c.w with
  | 0 => if 16 ≤ (loomOf s c.loom).dq.length then c.wait s else enqueueDesc yes c.loom c.i.fn c.no none false d
  | 1 =>
    let r := c.loom / 8
    if reedRejects s c.i c.loom r c.i.features d then c.put s 1
    else if 16 ≤ (reedOf s r).queue.length then c.wait s
    else updReed yes r (fun x => { x with queue := x.queue ++ [{ desc := d, fn := c.i.fn, inst := c.no, loom := c.loom }] })
  | 2 => match issueSegment yes c with
    | some s => s
    | none => c.put s 1
  | _ => if collRejected s c.i.fn c.i.features d then c.put s 1 else collIssue yes c.sh c.no c.i d

end Sys2Proof.Machine
end

