-- ==== Sys2Proof/Machine/Shuttle.lean ====
section
/-! DEFINITION. The rows of shuttles: instruction fetch, arriving operands, and every instruction of R280. -/

namespace Sys2Proof.Machine
open Sys2Proof

/-- R273: the line of the waiting shuttle's next instruction fills the buffer, 256 lines of 256 bytes; the line there
longest makes room. -/
def execFetchComplete (sh : Nat) (s : State) : Out :=
  let x := shuttleOf s sh
  match x.state, AMap.get? s.prog.instances x.inst with
  | .waitFetch, some i =>
    let line := (i.image, x.pc.toNat / 256)
    let s := updLoom s (sh / 128) (fun l =>
      if l.lines.contains line then l
      else { l with lines := (if 256 ≤ l.lines.length then l.lines.drop 1 else l.lines) ++ [line] })
    .next (putShuttle s sh { x with state := .ready })
  | _, _ => .next s

/-- An error met by a load or atomic of a shuttle (R516): in its loom's weave store, in a Near granule, or in a cached copy,
which is dropped and read again. The state comes back with whether the load still returns. -/
def loadError (s : State) (sh : Nat) (p : Operand) (e : Ecc) : State × Bool :=
  let no := (shuttleOf s sh).inst
  match shAddr p.addr, AMap.get? s.prog.instances no with
  | .weave _, _ => (weaveError s (sh / 128) no e, e != .uncorrectable)
  | .space addr, some i =>
    match progPlace s i.fn addr with
    | some (some (oid, off)) =>
      match (objOf s oid).bind (fun o => (verOf o (progVersion i oid o)).bind (fun v => frameOf o v (off / granule))) with
      | none => (s, true)
      | some fr =>
        if fr.tier == .peat then
          -- the flash read of the load has failed (R287)
          if fr.lost then (instanceEnds (countTierFail s i.fn) no (faultInfo s sh 3 0 p.pc 0), false) else (s, true)
        else
          let s := countEcc s (channelOf s oid (off / granule) / 32) e
          if e != .uncorrectable then (s, true)
          else
            let s := spoil s oid fr.ver (off / granule) [off % granule / 64]
            if fr.tier == .near then (instanceEnds s no (faultInfo s sh 1 0 p.pc 0), false) else (s, true)
    | _ => (s, true)
  | _, _ => (s, true)

/-- R286, R516: the oldest outstanding load or atomic that no channel holds returns its value; a shuttle that waits for memory is
Ready. -/
def execOperandArrive (sh : Nat) (ecc : Ecc) (s : State) : Out :=
  let x := shuttleOf s sh
  match x.pending.find? (fun p => !p.held) with
  | none => .next s
  | some p =>
    let (s, returns) := loadError s sh p ecc
    if !returns then .next s
    else
    let y := if p.vector then x.setVec p.reg p.value else x.setReg p.reg (p.value.setWidth 64)
    .next (putShuttle s sh { y with pending := x.pending.erase p, state := if x.state = .waitMem then .ready else x.state })

/-- R280, R281: ALU. -/
def execAlu (sh : Nat) (s : State) : Out := withIns .alu sh s (fun c s => c.put s (aluResult (fFn c.w) c.ga c.gb))
/-- R280, R281: FPU. -/
def execFpu (sh : Nat) (s : State) : Out := withIns .fpu sh s (fun c s => c.put s (fpuResult (fFn c.w) c.ga c.gb))
/-- R280: ADDI. -/
def execAddi (sh : Nat) (s : State) : Out := withIns .addi sh s (fun c s => c.put s (c.ga + c.imm))
/-- R280: ANDI, zero-extended. -/
def execAndi (sh : Nat) (s : State) : Out := withIns .andi sh s (fun c s => c.put s (c.ga &&& BitVec.ofNat 64 (fImm c.w)))
/-- R280: ORI, zero-extended. -/
def execOri (sh : Nat) (s : State) : Out := withIns .ori sh s (fun c s => c.put s (c.ga ||| BitVec.ofNat 64 (fImm c.w)))
/-- R280: XORI, zero-extended. -/
def execXori (sh : Nat) (s : State) : Out := withIns .xori sh s (fun c s => c.put s (c.ga ^^^ BitVec.ofNat 64 (fImm c.w)))
/-- R280: SHI. -/
def execShi (sh : Nat) (s : State) : Out := withIns .shi sh s (fun c s => c.put s (shiResult c.w c.ga))
/-- R280: SLTI, signed. -/
def execSlti (sh : Nat) (s : State) : Out := withIns .slti sh s (fun c s => c.put s (b64 (slt64 c.ga c.imm)))
/-- R280: LUI. -/
def execLui (sh : Nat) (s : State) : Out := withIns .lui sh s (fun c s => c.put s (BitVec.ofInt 64 (signed 20 c.w * 2 ^ 14)))
/-- R275, R280: GETS. -/
def execGets (sh : Nat) (s : State) : Out := withIns .gets sh s (fun c s => c.put s (specialReg s c (fImm c.w)))
/-- R280, R286: LD1. -/
def execLd1 (sh : Nat) (s : State) : Out := withIns .ld1 sh s (fun c s => c.loadG s 1 false)
/-- R280, R286: LD2. -/
def execLd2 (sh : Nat) (s : State) : Out := withIns .ld2 sh s (fun c s => c.loadG s 2 false)
/-- R280, R286: LD4. -/
def execLd4 (sh : Nat) (s : State) : Out := withIns .ld4 sh s (fun c s => c.loadG s 4 false)
/-- R280, R286: LD8. -/
def execLd8 (sh : Nat) (s : State) : Out := withIns .ld8 sh s (fun c s => c.loadG s 8 false)
/-- R280, R286: LDS1. -/
def execLds1 (sh : Nat) (s : State) : Out := withIns .lds1 sh s (fun c s => c.loadG s 1 true)
/-- R280, R286: LDS2. -/
def execLds2 (sh : Nat) (s : State) : Out := withIns .lds2 sh s (fun c s => c.loadG s 2 true)
/-- R280, R286: LDS4. -/
def execLds4 (sh : Nat) (s : State) : Out := withIns .lds4 sh s (fun c s => c.loadG s 4 true)
/-- R280: ST1. -/
def execSt1 (sh : Nat) (s : State) : Out := withIns .st1 sh s (fun c s => c.store s 1 c.gd.toNat)
/-- R280: ST2. -/
def execSt2 (sh : Nat) (s : State) : Out := withIns .st2 sh s (fun c s => c.store s 2 c.gd.toNat)
/-- R280: ST4. -/
def execSt4 (sh : Nat) (s : State) : Out := withIns .st4 sh s (fun c s => c.store s 4 c.gd.toNat)
/-- R280: ST8. -/
def execSt8 (sh : Nat) (s : State) : Out := withIns .st8 sh s (fun c s => c.store s 8 c.gd.toNat)
/-- R280, R286: VLD. -/
def execVld (sh : Nat) (s : State) : Out := withIns .vld sh s (fun c s =>
  c.load s 64 (fVd c.w) true false)
/-- R280: VST. -/
def execVst (sh : Nat) (s : State) : Out := withIns .vst sh s (fun c s => c.store s 64 c.vd.toNat)
/-- R280, R287: AMO. -/
def execAmo (sh : Nat) (s : State) : Out := withIns .amo sh s (fun c s => c.atomic s)
/-- R288: FENCE waits for the shuttle's outstanding loads, stores and atomics. -/
def execFence (sh : Nat) (s : State) : Out := withIns .fence sh s (fun c s => c.step s c.x)

/-- A branch (R280): taken to pc + 4 x OFF14, else in order. -/
def ShCtx.branch (c : ShCtx) (s : State) (o : ShOp) : State :=
  if branchTaken o c.gd c.ga then c.jump s c.x (c.x.pc.toNat + 4 * fImmS c.w) else c.step s c.x

/-- R280: BEQ. -/
def execBeq (sh : Nat) (s : State) : Out := withIns .beq sh s (fun c s => c.branch s .beq)
/-- R280: BNE. -/
def execBne (sh : Nat) (s : State) : Out := withIns .bne sh s (fun c s => c.branch s .bne)
/-- R280: BLT. -/
def execBlt (sh : Nat) (s : State) : Out := withIns .blt sh s (fun c s => c.branch s .blt)
/-- R280: BGE. -/
def execBge (sh : Nat) (s : State) : Out := withIns .bge sh s (fun c s => c.branch s .bge)
/-- R280: BLTU. -/
def execBltu (sh : Nat) (s : State) : Out := withIns .bltu sh s (fun c s => c.branch s .bltu)
/-- R280: BGEU. -/
def execBgeu (sh : Nat) (s : State) : Out := withIns .bgeu sh s (fun c s => c.branch s .bgeu)

/-- R280: JAL links in g63. -/
def execJal (sh : Nat) (s : State) : Out := withIns .jal sh s (fun c s =>
  c.jump s (c.x.setReg 63 (BitVec.ofNat 64 (c.x.pc.toNat + 4))) (c.x.pc.toNat + 4 * signed 26 c.w))

/-- R280, R283: JALR links in gd; its target is ga + imm. -/
def execJalr (sh : Nat) (s : State) : Out := withIns .jalr sh s (fun c s =>
  c.jump s (c.x.setReg (fRd c.w) (BitVec.ofNat 64 (c.x.pc.toNat + 4))) (c.addr : Int))

/-- R282: VOP. -/
def execVop (sh : Nat) (s : State) : Out := withIns .vop sh s (fun c s =>
  c.putV s (vopResult (fElt c.w) (fVfn c.w) c.va c.vb c.vd c.gb))

/-- R288, R290: KARR; an arrival at a knot outside the rights is discarded. -/
def execKarr (sh : Nat) (s : State) : Out := withIns .karr sh s (fun c s =>
  arriveFor (c.step s c.x) c.i.fn (c.ga.toNat % 65536) (fImm c.w))

/-- R290, R292: KWAIT. -/
def execKwait (sh : Nat) (s : State) : Out := withIns .kwait sh s (fun c s =>
  let k := c.ga.toNat % 65536
  match knotOf s k with
  | none => c.put s 1
  | some x =>
    if x.fn != c.i.fn || x.satisfied then c.put s 0
    else updShuttle (c.step s c.x) sh (fun y => { y with state := .waitKnot k, waitReg := fRd c.w }))

/-- R291: KSET on a knot of the function. -/
def execKset (sh : Nat) (s : State) : Out := withIns .kset sh s (fun c s =>
  let k := c.ga.toNat % 65536
  let s := c.step s c.x
  if (knotOf s k).any (fun x => x.fn == c.i.fn) then setKnot (charge s c.i.fn 30 true) k 0 (c.gb.setWidth 32) else s)

/-- R280: KTEST reads a counter without waiting; 0 outside the rights (R129). -/
def execKtest (sh : Nat) (s : State) : Out := withIns .ktest sh s (fun c s =>
  c.put s (((knotOf s (c.ga.toNat % 65536)).filter (fun x => x.fn == c.i.fn)).elim 0 (fun x => x.counter.setWidth 64)))

/-- R284: ISSUE. -/
def execIssue (sh : Nat) (s : State) : Out := withIns .issue sh s (fun c s => c.issue s)

/-- R285: IRQ raises a vector while bit 15 is active. -/
def execIrq (sh : Nat) (s : State) : Out := withIns .irq sh s (fun c s =>
  let s := c.step s c.x
  if c.i.features.getLsbD 15 then raise s c.i.fn (fImm c.w) else s)

/-- R301: HALT ends the shuttle's task. -/
def execHalt (sh : Nat) (s : State) : Out := withIns .halt sh s (fun c s =>
  taskPart (putShuttle s sh { state := .idle, inst := c.no }) c.no c.x.task)

/-- R303: EXIT ends the instance with END 5. -/
def execExit (sh : Nat) (s : State) : Out := withIns .exit sh s (fun c s =>
  instanceEnds s c.no (faultInfo s sh 5 0 c.x.pc c.ga))

end Sys2Proof.Machine
end

