-- ==== Sys2Proof/Machine/Dispatch.lean ====
section
/-! DEFINITION. Every command's meaning, one arm per row of the table. -/

namespace Sys2Proof.Machine
open Sys2Proof

/-- The effect of a command on the node (everything but the queue of waiting commands). -/
def exec (i : Instr) (s : State) : Host.Outcome State Fault Refusal :=
  match i with
  | .powerOnReset conv vstby => Sys2Proof.Machine.execPowerOnReset conv s vstby
  | .pinReset conv => Sys2Proof.Machine.execPinReset conv s
  | .resetRelease conv => Sys2Proof.Machine.execResetRelease s conv
  | .trigIn => Sys2Proof.Machine.execTrigIn s
  | .vinTurnOn vinMv => Sys2Proof.Machine.execVinTurnOn vinMv s
  | .railEnable => Sys2Proof.Machine.execRailEnable s
  | .railFault code => Sys2Proof.Machine.execRailFault code s
  | .inputLoss => Sys2Proof.Machine.execInputLoss s
  | .holdUpEnd vaonKept vinBack conv => Sys2Proof.Machine.execHoldUpEnd vaonKept vinBack conv s
  | .overvoltageSwitchOff => Sys2Proof.Machine.execOvervoltageSwitchOff s
  | .ocTrip => Sys2Proof.Machine.execOcTrip s
  | .switchReclose busMv => Sys2Proof.Machine.execSwitchReclose s busMv
  | .inputBandChange vinMv => Sys2Proof.Machine.execInputBandChange vinMv s
  | .stbyLost => Sys2Proof.Machine.execStbyLost s
  | .thermTrip tempX16 => Sys2Proof.Machine.execThermTrip tempX16 s
  | .tripLatchRelease hotX16 => Sys2Proof.Machine.execTripLatchRelease s hotX16
  | .powerCycle value pec => Sys2Proof.Machine.execPowerCycle value s pec
  | .statusWrite value pec => Sys2Proof.Machine.execStatusWrite value s pec
  | .inletTemp value pec => Sys2Proof.Machine.execInletTemp value s pec
  | .inletTempTimeout => Sys2Proof.Machine.execInletTempTimeout s
  | .alertResponse q => Sys2Proof.Machine.execAlertResponse s q
  | .tapReset => Sys2Proof.Machine.execTapReset s
  | .bypass => Sys2Proof.Machine.execBypass s
  | .idcode => Sys2Proof.Machine.execIdcode s
  | .samplePreload bits => Sys2Proof.Machine.execSamplePreload bits s
  | .extest bits => Sys2Proof.Machine.execExtest s bits
  | .linkDown => Sys2Proof.Machine.execLinkDown s
  | .hotReset => Sys2Proof.Machine.execHotReset s
  | .functionLevelReset f => Sys2Proof.Machine.execFunctionLevelReset f s
  | .flrComplete f => Sys2Proof.Machine.execFlrComplete f s
  | .vfEnable => Sys2Proof.Machine.execVfEnable s
  | .vfDisable => Sys2Proof.Machine.execVfDisable s
  | .powerStateWrite f v => Sys2Proof.Machine.execPowerStateWrite f v s
  | .l1Entry => Sys2Proof.Machine.execL1Entry s
  | .configRequest f acc => Sys2Proof.Machine.execConfigRequest f acc s
  | .poisonedTlp f err => Sys2Proof.Machine.execPoisonedTlp f err s
  | .hostReadError cid arrived err => Sys2Proof.Machine.execHostReadError cid arrived s err
  | .doeRequest f len obj => Sys2Proof.Machine.execDoeRequest f len s obj
  | .doeAbort f => Sys2Proof.Machine.execDoeAbort f s
  | .spdmRequest f req => Sys2Proof.Machine.execSpdmRequest f req s
  | .getPqCert f offset length => Sys2Proof.Machine.execGetPqCert f offset length s
  | .getPqSig f => Sys2Proof.Machine.execGetPqSig f s
  | .setKek f secured key => Sys2Proof.Machine.execSetKek f secured key s
  | .setCompositionKey f secured key => Sys2Proof.Machine.execSetCompositionKey f secured key s
  | .setNodeKey f secured key => Sys2Proof.Machine.execSetNodeKey f secured key s
  | .commandWindowWrite f offset data => Sys2Proof.Machine.execCommandWindowWrite f offset data s
  | .apertureRead f offset length ecc => Sys2Proof.Machine.execApertureRead f offset length ecc s
  | .apertureWrite f offset data => Sys2Proof.Machine.execApertureWrite f offset data s
  | .apertureReadTimeout f offset => Sys2Proof.Machine.execApertureReadTimeout f offset s
  | .ringEnable f value => Sys2Proof.Machine.execRingEnable f value s
  | .ringDisable f value => Sys2Proof.Machine.execRingDisable f value s
  | .ringHeadWrite f value => Sys2Proof.Machine.execRingHeadWrite f value s
  | .apply f => Sys2Proof.Machine.execApply f s
  | .rearm => Sys2Proof.Machine.execRearm s
  | .msixUnmask f vector => Sys2Proof.Machine.execMsixUnmask f vector s
  | .readClear f offset size => Sys2Proof.Machine.execReadClear f offset size s
  | .qsampleCountRead target => Sys2Proof.Machine.execQsampleCountRead target s
  | .registerWrite f offset size value => Sys2Proof.Machine.execRegisterWrite f offset size value s
  | .coalesceTimeout f => Sys2Proof.Machine.execCoalesceTimeout f s
  | .replyRecordWrite f => Sys2Proof.Machine.execReplyRecordWrite f s
  | .eventRecordWrite f => Sys2Proof.Machine.execEventRecordWrite f s
  | .commandAdmit => Sys2Proof.Machine.execCommandAdmit s
  | .queuedDeadline cid => Sys2Proof.Machine.execQueuedDeadline cid s
  | .deadlineExpire cid consumed => Sys2Proof.Machine.execDeadlineExpire cid consumed s
  | .commandComplete cid => Sys2Proof.Machine.execCommandComplete cid s
  | .versionSwitch obj version => Sys2Proof.Machine.execVersionSwitch obj version s
  | .shaperRefill => Sys2Proof.Machine.execShaperRefill s
  | .queueSample => Sys2Proof.Machine.execQueueSample s
  | .nop cid => Sys2Proof.Machine.execNop cid s
  | .identify cid => Sys2Proof.Machine.execIdentify cid s
  | .schedSet cid => Sys2Proof.Machine.execSchedSet cid s
  | .schedGet cid => Sys2Proof.Machine.execSchedGet cid s
  | .objCreate cid => Sys2Proof.Machine.execObjCreate cid s
  | .objDestroy cid => Sys2Proof.Machine.execObjDestroy cid s
  | .objWrite cid host => Sys2Proof.Machine.execObjWrite cid host s
  | .objRead cid => Sys2Proof.Machine.execObjRead cid s
  | .objCopy cid => Sys2Proof.Machine.execObjCopy cid s
  | .objHint cid => Sys2Proof.Machine.execObjHint cid s
  | .objInfo cid => Sys2Proof.Machine.execObjInfo cid s
  | .objGrant cid => Sys2Proof.Machine.execObjGrant cid s
  | .objRevoke cid => Sys2Proof.Machine.execObjRevoke cid s
  | .indexCreateList cid => Sys2Proof.Machine.execIndexCreateList cid s
  | .indexCreateGraph cid => Sys2Proof.Machine.execIndexCreateGraph cid s
  | .indexLoad cid host => Sys2Proof.Machine.execIndexLoad cid host s
  | .itemUpsert cid => Sys2Proof.Machine.execItemUpsert cid s
  | .itemDelete cid => Sys2Proof.Machine.execItemDelete cid s
  | .indexCompact cid => Sys2Proof.Machine.execIndexCompact cid s
  | .search cid => Sys2Proof.Machine.execSearch cid s
  | .searchBatch cid => Sys2Proof.Machine.execSearchBatch cid s
  | .filterEval cid => Sys2Proof.Machine.execFilterEval cid s
  | .versionInfo cid => Sys2Proof.Machine.execVersionInfo cid s
  | .selectTopk cid => Sys2Proof.Machine.execSelectTopk cid s
  | .selectUnique cid => Sys2Proof.Machine.execSelectUnique cid s
  | .selectArgmax cid => Sys2Proof.Machine.execSelectArgmax cid s
  | .tableCreate cid => Sys2Proof.Machine.execTableCreate cid s
  | .tableLoad cid host => Sys2Proof.Machine.execTableLoad cid host s
  | .gather cid => Sys2Proof.Machine.execGather cid s
  | .rank cid => Sys2Proof.Machine.execRank cid s
  | .rowUpdate cid => Sys2Proof.Machine.execRowUpdate cid s
  | .hotRowsSet cid => Sys2Proof.Machine.execHotRowsSet cid s
  | .progLoad cid host => Sys2Proof.Machine.execProgLoad cid host s
  | .progStart cid => Sys2Proof.Machine.execProgStart cid s
  | .progStop cid => Sys2Proof.Machine.execProgStop cid s
  | .knotAlloc cid => Sys2Proof.Machine.execKnotAlloc cid s
  | .knotSet cid => Sys2Proof.Machine.execKnotSet cid s
  | .knotArrive cid => Sys2Proof.Machine.execKnotArrive cid s
  | .knotWait cid => Sys2Proof.Machine.execKnotWait cid s
  | .spindleRun cid => Sys2Proof.Machine.execSpindleRun cid s
  | .knotFree cid => Sys2Proof.Machine.execKnotFree cid s
  | .groupCreate cid => Sys2Proof.Machine.execGroupCreate cid s
  | .groupDestroy cid => Sys2Proof.Machine.execGroupDestroy cid s
  | .collective cid => Sys2Proof.Machine.execCollective cid s
  | .fabricRequest cid => Sys2Proof.Machine.execFabricRequest cid s
  | .compose cid => Sys2Proof.Machine.execCompose cid s
  | .migrate cid => Sys2Proof.Machine.execMigrate cid s
  | .portStatus cid => Sys2Proof.Machine.execPortStatus cid s
  | .powerCap cid => Sys2Proof.Machine.execPowerCap cid s
  | .enterBanked cid => Sys2Proof.Machine.execEnterBanked cid s
  | .enterDormant cid => Sys2Proof.Machine.execEnterDormant cid s
  | .privPartition cid => Sys2Proof.Machine.execPrivPartition cid s
  | .energyRead cid => Sys2Proof.Machine.execEnergyRead cid s
  | .healthRead cid => Sys2Proof.Machine.execHealthRead cid s
  | .snapshotFire cid => Sys2Proof.Machine.execSnapshotFire cid s
  | .selfTest cid passed us measured => Sys2Proof.Machine.execSelfTest cid passed us measured s
  | .kindlingExit cid => Sys2Proof.Machine.execKindlingExit cid s
  | .fwStage cid host => Sys2Proof.Machine.execFwStage cid host s
  | .fwCommit cid => Sys2Proof.Machine.execFwCommit cid s
  | .fabricKeySet cid => Sys2Proof.Machine.execFabricKeySet cid s
  | .isolationSet cid => Sys2Proof.Machine.execIsolationSet cid s
  | .violationRead cid => Sys2Proof.Machine.execViolationRead cid s
  | .pickWindowClose index version list cls => Sys2Proof.Machine.execPickWindowClose index version list cls s
  | .riseAdmit loom array power => Sys2Proof.Machine.execRiseAdmit loom array power s
  | .descriptorComplete loom ecc => Sys2Proof.Machine.execDescriptorComplete loom ecc s
  | .segmentStart ch => Sys2Proof.Machine.execSegmentStart ch s
  | .segmentEnd ch => Sys2Proof.Machine.execSegmentEnd ch s
  | .segmentStop ch => Sys2Proof.Machine.execSegmentStop ch s
  | .channelExitEnd ch holdNs => Sys2Proof.Machine.execChannelExitEnd ch holdNs s
  | .refreshDue ch => Sys2Proof.Machine.execRefreshDue ch s
  | .gapEnd ch => Sys2Proof.Machine.execGapEnd ch s
  | .ioRateChange stack level => Sys2Proof.Machine.execIoRateChange stack level s
  | .flashRateChange channel level => Sys2Proof.Machine.execFlashRateChange channel level s
  | .taskStart inst task => Sys2Proof.Machine.execTaskStart inst task s
  | .taskDeadline inst task => Sys2Proof.Machine.execTaskDeadline inst task s
  | .progStopTimeout inst => Sys2Proof.Machine.execProgStopTimeout inst s
  | .operandArrive sh ecc => Sys2Proof.Machine.execOperandArrive sh ecc s
  | .fetchComplete sh => Sys2Proof.Machine.execFetchComplete sh s
  | .alu sh => Sys2Proof.Machine.execAlu sh s
  | .fpu sh => Sys2Proof.Machine.execFpu sh s
  | .addi sh => Sys2Proof.Machine.execAddi sh s
  | .andi sh => Sys2Proof.Machine.execAndi sh s
  | .ori sh => Sys2Proof.Machine.execOri sh s
  | .xori sh => Sys2Proof.Machine.execXori sh s
  | .shi sh => Sys2Proof.Machine.execShi sh s
  | .slti sh => Sys2Proof.Machine.execSlti sh s
  | .lui sh => Sys2Proof.Machine.execLui sh s
  | .gets sh => Sys2Proof.Machine.execGets sh s
  | .ld1 sh => Sys2Proof.Machine.execLd1 sh s
  | .ld2 sh => Sys2Proof.Machine.execLd2 sh s
  | .ld4 sh => Sys2Proof.Machine.execLd4 sh s
  | .ld8 sh => Sys2Proof.Machine.execLd8 sh s
  | .lds1 sh => Sys2Proof.Machine.execLds1 sh s
  | .lds2 sh => Sys2Proof.Machine.execLds2 sh s
  | .lds4 sh => Sys2Proof.Machine.execLds4 sh s
  | .st1 sh => Sys2Proof.Machine.execSt1 sh s
  | .st2 sh => Sys2Proof.Machine.execSt2 sh s
  | .st4 sh => Sys2Proof.Machine.execSt4 sh s
  | .st8 sh => Sys2Proof.Machine.execSt8 sh s
  | .vld sh => Sys2Proof.Machine.execVld sh s
  | .vst sh => Sys2Proof.Machine.execVst sh s
  | .amo sh => Sys2Proof.Machine.execAmo sh s
  | .fence sh => Sys2Proof.Machine.execFence sh s
  | .beq sh => Sys2Proof.Machine.execBeq sh s
  | .bne sh => Sys2Proof.Machine.execBne sh s
  | .blt sh => Sys2Proof.Machine.execBlt sh s
  | .bge sh => Sys2Proof.Machine.execBge sh s
  | .bltu sh => Sys2Proof.Machine.execBltu sh s
  | .bgeu sh => Sys2Proof.Machine.execBgeu sh s
  | .jal sh => Sys2Proof.Machine.execJal sh s
  | .jalr sh => Sys2Proof.Machine.execJalr sh s
  | .vop sh => Sys2Proof.Machine.execVop sh s
  | .karr sh => Sys2Proof.Machine.execKarr sh s
  | .kwait sh => Sys2Proof.Machine.execKwait sh s
  | .kset sh => Sys2Proof.Machine.execKset sh s
  | .ktest sh => Sys2Proof.Machine.execKtest sh s
  | .issue sh => Sys2Proof.Machine.execIssue sh s
  | .irq sh => Sys2Proof.Machine.execIrq sh s
  | .halt sh => Sys2Proof.Machine.execHalt sh s
  | .exit sh => Sys2Proof.Machine.execExit sh s
  | .reedStart r => Sys2Proof.Machine.execReedStart r s
  | .reedComplete r ecc => Sys2Proof.Machine.execReedComplete r ecc s
  | .resultMerge cid list epoch => Sys2Proof.Machine.execResultMerge cid list epoch s
  | .portDetect port => Sys2Proof.Machine.execPortDetect port s
  | .equaliseEnd port lanes => Sys2Proof.Machine.execEqualiseEnd port lanes s
  | .alignEnd port peer => Sys2Proof.Machine.execAlignEnd port peer s
  | .portTrainTimeout port => Sys2Proof.Machine.execPortTrainTimeout port s
  | .portDownRetry port => Sys2Proof.Machine.execPortDownRetry port s
  | .retrain port => Sys2Proof.Machine.execRetrain port s
  | .retrainEnd port active => Sys2Proof.Machine.execRetrainEnd port active s
  | .flitReceive port flit => Sys2Proof.Machine.execFlitReceive port flit s
  | .replayRequest port fseq => Sys2Proof.Machine.execReplayRequest port fseq s
  | .creditReturn port control n => Sys2Proof.Machine.execCreditReturn port control n s
  | .request pkt remainingUs => Sys2Proof.Machine.execRequest pkt remainingUs s
  | .reply pkt fields => Sys2Proof.Machine.execReply pkt fields s
  | .contribution pkt members member => Sys2Proof.Machine.execContribution pkt members member s
  | .delivery pkt members => Sys2Proof.Machine.execDelivery pkt members s
  | .push pkt => Sys2Proof.Machine.execPush pkt s
  | .ack src seqs => Sys2Proof.Machine.execAck src seqs s
  | .moved src seq fn domain epoch node => Sys2Proof.Machine.execMoved src seq fn domain epoch node s
  | .node src seq cseq number runtimeNode reportMs => Sys2Proof.Machine.execNode src seq cseq number runtimeNode reportMs s
  | .route src seq cseq first count mask => Sys2Proof.Machine.execRoute src seq cseq first count mask s
  | .tenant src seq cseq fn features => Sys2Proof.Machine.execTenant src seq cseq fn features s
  | .epoch src seq cseq fn domain newEpoch newNode => Sys2Proof.Machine.execEpoch src seq cseq fn domain newEpoch newNode s
  | .drain src seq cseq fn => Sys2Proof.Machine.execDrain src seq cseq fn s
  | .undrain src seq cseq fn => Sys2Proof.Machine.execUndrain src seq cseq fn s
  | .retransmitTimeout dst seq => Sys2Proof.Machine.execRetransmitTimeout dst seq s
  | .probe dst => Sys2Proof.Machine.execProbe dst s
  | .report => Sys2Proof.Machine.execReport s
  | .epochReport fn domain => Sys2Proof.Machine.execEpochReport fn domain s
  | .streamAbandon fn stream => Sys2Proof.Machine.execStreamAbandon fn stream s
  | .cutover cid => Sys2Proof.Machine.execCutover cid s
  | .flashReadComplete obj gran client outcome need => Sys2Proof.Machine.execFlashReadComplete obj gran client outcome s need
  | .programComplete die ok => Sys2Proof.Machine.execProgramComplete die ok s
  | .eraseComplete die blockSet ok => Sys2Proof.Machine.execEraseComplete die blockSet ok s
  | .journalWrite => Sys2Proof.Machine.execJournalWrite s
  | .mapWrite => Sys2Proof.Machine.execMapWrite s
  | .zqCalibration => Sys2Proof.Machine.execZqCalibration s
  | .wearLevelCheck => Sys2Proof.Machine.execWearLevelCheck s
  | .patrol weak => Sys2Proof.Machine.execPatrol weak s
  | .dieTimeout die => Sys2Proof.Machine.execDieTimeout die s
  | .granuleMoveComplete obj gran => Sys2Proof.Machine.execGranuleMoveComplete obj gran s
  | .draughtAllocation inp => Sys2Proof.Machine.execDraughtAllocation inp s
  | .monitorSample readings => Sys2Proof.Machine.execMonitorSample readings s
  | .droopEvent bolt depthMv => Sys2Proof.Machine.execDroopEvent bolt depthMv s
  | .droopFloor => Sys2Proof.Machine.execDroopFloor s
  | .efficiencyMeasure etaMilli => Sys2Proof.Machine.execEfficiencyMeasure etaMilli s
  | .vloomStep => Sys2Proof.Machine.execVloomStep s
  | .energyInterval inputNj => Sys2Proof.Machine.execEnergyInterval inputNj s
  | .ageingHour ratios => Sys2Proof.Machine.execAgeingHour ratios s
  | .marginReplan floorMv => Sys2Proof.Machine.execMarginReplan floorMv s
  | .thermalLevelEntry level tempX16 => Sys2Proof.Machine.execThermalLevelEntry level tempX16 s
  | .thermalLevelExit level tempX16 => Sys2Proof.Machine.execThermalLevelExit level tempX16 s
  | .junctionCapStep => Sys2Proof.Machine.execJunctionCapStep s
  | .paceStep => Sys2Proof.Machine.execPaceStep s
  | .bankedExit => Sys2Proof.Machine.execBankedExit s
  | .dormantRailsOff => Sys2Proof.Machine.execDormantRailsOff s
  | .startStageEnd stage failed badDies => Sys2Proof.Machine.execStartStageEnd stage failed s badDies
  | .startTimeout => Sys2Proof.Machine.execStartTimeout s
  | .healthEvaluate => Sys2Proof.Machine.execHealthEvaluate s
  | .panelPress => Sys2Proof.Machine.execPanelPress s
  | .panelHold => Sys2Proof.Machine.execPanelHold s
  | .removalProceed => Sys2Proof.Machine.execRemovalProceed s
  | .snapshotTrigger src => Sys2Proof.Machine.execSnapshotTrigger src s
  | .snapshotCopyDone => Sys2Proof.Machine.execSnapshotCopyDone s
  | .pinConfiguration => Sys2Proof.Machine.execPinConfiguration s
  | .refclkStable => Sys2Proof.Machine.execRefclkStable s
  | .pcieLinkUp rate width partnerFlit => Sys2Proof.Machine.execPcieLinkUp rate width s partnerFlit
  | .junctionSensorsCool hotX16 => Sys2Proof.Machine.execJunctionSensorsCool s hotX16
  | .iinLimit => Sys2Proof.Machine.execIinLimit s
  | .powerCycleRestart conv => Sys2Proof.Machine.execPowerCycleRestart conv s
  | .collectiveDescriptorDeadline fn seq => Sys2Proof.Machine.execCollectiveDescriptorDeadline fn seq s

end Sys2Proof.Machine
end

