-- ==== Sys2Proof/Machine/Tick.lean ====
section
/-! DEFINITION. What happens with one 10 ns count of the node time counter (R19, R23, R209, R235, R236). -/

namespace Sys2Proof.Machine
open Sys2Proof

/-- A channel after one count: its entry, part of the first 40 cycles of a segment, is over (R209). -/
def tickChan (c : Chan) : Chan := if c.state == .entry then { c with state := .segment } else c

/-- One count of the node time counter, which counts while the always-on domain runs (R19, R23): arrays make their steps (R235, R236)
and channels enter their segments (R209). Everything else that time brings has a row of the table. -/
def tick (s : State) : State :=
  if !s.board.powered then s
  else { s with
    time := s.time + 1
    stk := { s.stk with chans := s.stk.chans.map (fun e => (e.1, tickChan e.2)) }
    looms := { s.looms with looms := s.looms.looms.map (fun e => (e.1, advanceLoom e.2)) } }

end Sys2Proof.Machine
end

