-- ==== Sys2Proof/Safety.lean ====
section
/-! DEFINITION. What counts as a safe run, in the terms the statements use: the power rails in order, reply rings
within their size, what a device reset leaves, how a command's work ends, and no step that stops the block. -/

namespace Sys2Proof.Safety
open Sys2Proof Sys2Proof.Machine

/-- The rails are in order (R63-R66, R70): never more than ten on, PWR_GOOD only with all ten on and not during hold-up,
while a thermal trip is latched none on and none wanted but for a hold-up that runs to its end, and THERM_TRIP_N low exactly
then. -/
def railsOrdered (s : State) : Prop :=
  s.board.rails ≤ 10 ∧ (s.board.pwrGood = true → s.board.rails = 10) ∧
  (s.board.holdUp = true → s.board.pwrGood = false ∧ s.board.railsWanted = false) ∧
  (s.board.tripLatch = true → (s.board.holdUp = true ∨ s.board.rails = 0) ∧ s.board.railsWanted = false) ∧
  s.board.thermTripN = !s.board.tripLatch

/-- Nothing holds the main rails off (R60, R63, R64, R66, R70, R72): the always-on domain up, input there with the switch closed, no latch,
no POWER_CYCLE second, no hold-up, and no wait for 90 C. -/
def railsFree (b : Board) : Prop :=
  b.powered = true ∧ b.rails = 0 ∧ b.band ≠ .absent ∧ b.switchClosed = true ∧ b.tripLatch = false ∧ b.railLatch = false ∧
  b.cyclePending = false ∧ b.holdUp = false ∧ (b.coolWait = true → b.hotX16 < 1440)

/-- Records not yet taken by the host never exceed the ring of an enabled function (R112, R113). -/
def ringWithin (x : FnState) : Prop := x.ringEn = true → (x.ringTail - x.ringHead).toNat ≤ 2 ^ x.ringLog2.toNat

/-- A step that goes on. -/
def goesOn (o : Host.Outcome State Fault Refusal) : Prop := ∃ t, o = .next t

/-- What every device reset of a cause leaves (R19, R477, R478, R491): node time 0, the cause, nothing of commands, objects,
instances, knots and the host link's state; what the boot store and the fuses hold stays. -/
def resetLeaves (s t : State) (cause : Nat) : Prop :=
  t.time = 0 ∧ t.boot.cause = BitVec.ofNat 4 cause ∧ t.boot.serviceReady = false ∧ t.sched = {} ∧ t.space = {} ∧
  t.prog = {} ∧ t.fabric = {} ∧ t.fns = [] ∧ t.link.up = false ∧ t.glaesh.compKey = none ∧
  t.boot.failCount = s.boot.failCount ∧ t.boot.slotA = s.boot.slotA ∧ t.boot.slotB = s.boot.slotB ∧
  t.boot.trial = s.boot.trial ∧ t.glaesh.minSvn = s.glaesh.minSvn ∧ t.pending = s.pending ∧ t.sent = s.sent

/-- Host-side state at its reset values (R93): rings, features, window, queue, records, apertures, vectors, session. -/
def hostSideCleared (x : FnState) : Prop :=
  x.ringEn = false ∧ x.ringHead = 0 ∧ x.ringTail = 0 ∧ x.featAccept = 0 ∧ x.featActive = 0 ∧ x.locked = false ∧
  x.window = [] ∧ x.hostQ = [] ∧ x.waiting = [] ∧ x.events = [] ∧ x.inflight = 0 ∧ x.apEn = 0 ∧ x.msix = [] ∧ x.pba = 0 ∧
  x.d3hot = false ∧ x.session = false

/-- What a hot reset, link down or the clearing of VF Enable keeps of a function (R93, R491, R492). -/
def keptThroughHostReset (x y : FnState) : Prop :=
  y.fabQ = x.fabQ ∧ y.weight = x.weight ∧ y.shaper = x.shaper ∧ y.nearLimit = x.nearLimit ∧ y.tenant = x.tenant ∧
  y.violations = x.violations ∧ y.isSealed = x.isSealed ∧ y.kek = x.kek ∧ y.txKey = x.txKey ∧ y.rxKeys = x.rxKeys ∧
  y.energyNj = x.energyNj ∧ y.objSerial = x.objSerial

/-- The work of an admitted command has ended, with an outcome of which something holds (R115). -/
def doneWith (t : State) (cid : Nat) (p : Result → Prop) : Prop :=
  ∃ b r, findAdm t cid = some b ∧ b.phase = .done r ∧ p r

/-- Every other admitted command stays as it was. -/
def otherCommandsKept (s t : State) (cid : Nat) : Prop := ∀ c, c ≠ cid → findAdm t c = findAdm s c

/-- An object without its cached copies: those granules as Peat ones. -/
def withoutCopies (o : Obj) : Obj :=
  { o with frames := o.frames.map (fun fr => { fr with tier := if fr.tier = .cached then .peat else fr.tier }) }

/-- Every other object stays as it was; where Near granules were placed, cached copies may have been dropped for them (R160). -/
def otherObjectsKept (s t : State) (oid : Nat) : Prop :=
  ∀ x, x ≠ oid → (objOf t x).map withoutCopies = (objOf s x).map withoutCopies

/-- Version `n` of an object has come to hold these bytes beside the versions it had, and the current one is as before. -/
def addsVersion (s t : State) (oid n : Nat) (bytes : Mem) : Prop :=
  ∃ o o' v, objOf s oid = some o ∧ objOf t oid = some o' ∧ o'.current = o.current ∧ verOf o' n = some v ∧ v.bytes = bytes ∧
    ∀ w ∈ o.versions, w ∈ o'.versions

/-- A target that is the function's own, or one it may read. -/
def readsAs (x : Target) (o : Obj) : Prop := x = .own o ∨ x = .granted o

/-- The next instruction of a shuttle is a legal word of a mnemonic, its line is there, it is the shuttle's turn, and nothing it
waits for is outstanding (R271-R273, R283, R286). -/
def atInstruction (o : ShOp) (s : State) (c : ShCtx) : Prop :=
  shuttleOf s c.sh = c.x ∧ (c.x.state = .ready ∨ c.x.state = .waitMem) ∧ c.no = c.x.inst ∧
  AMap.get? s.prog.instances c.no = some c.i ∧ c.m = imageOf s c.i ∧ c.w = (imgWord c.m c.x.pc.toNat).toNat ∧
  c.x.pc.toNat < imgCodeLen c.m ∧ lineHere s c.i.image c.loom c.x.pc.toNat = true ∧
  shDecode c.w (c.i.features.getLsbD 17) = some o ∧ issueTurn s c.sh = true ∧
  blocked c.x (postedWrites s c.sh) o c.w = false

/-- Only energy counts of instances differ (R464). -/
def metersOnly (s t : State) : Prop :=
  ∀ no j, AMap.get? t.prog.instances no = some j → ∃ i, AMap.get? s.prog.instances no = some i ∧ j = { i with meters := j.meters }

/-- Only energy counts of instances differ, and the moments from which their tasks may start (R297, R464). -/
def startsOnly (s t : State) : Prop :=
  ∀ no j, AMap.get? t.prog.instances no = some j →
    ∃ i, AMap.get? s.prog.instances no = some i ∧ j = { i with meters := j.meters, may := j.may }

/-- A shuttle has gone to a code offset with these registers, and no other shuttle has changed. -/
def shuttleAt (s t : State) (c : ShCtx) (y : Shuttle) (pc : BitVec 32) : Prop :=
  (∃ st, (st = .ready ∨ st = .waitFetch) ∧ shuttleOf t c.sh = { y with pc := pc, state := st }) ∧
  (∀ h, h ≠ c.sh → shuttleOf t h = shuttleOf s h)

/-- An instruction that changes its shuttle alone: memory, knots, queues, functions and the host see nothing (R272). -/
def shuttleOnly (s t : State) (c : ShCtx) (y : Shuttle) (pc : BitVec 32) : Prop :=
  shuttleAt s t c y pc ∧ t = { s with prog := t.prog, draught := t.draught } ∧ t.prog.knots = s.prog.knots ∧ metersOnly s t

/-- A load that no channel holds: its shuttle changes, and its peat granules, where it has any, join their dies' queues (R197, R287). -/
def loadOnly (s t : State) (c : ShCtx) (y : Shuttle) (pc : BitVec 32) : Prop :=
  shuttleAt s t c y pc ∧ t.prog.knots = s.prog.knots ∧ metersOnly s t ∧
  t = { s with prog := t.prog, draught := t.draught, flash := { s.flash with reads := t.flash.reads } }

/-- Whether the head of a loom's queue is at work. -/
def headAtWork (s : State) (loom : Nat) : Prop := ∃ d rest, (loomOf s loom).dq = d :: rest ∧ d.started = true

/-- A descriptor has joined a loom's queue behind those there; of them the head may be taken up by it, no other loom changes
(R238). -/
def queuedBehind (s t : State) (loom : Nat) (d : ArrayDesc) : Prop :=
  (loomOf t loom).dq.map (·.desc) = (loomOf s loom).dq.map (·.desc) ++ [d.desc] ∧ (loomOf t loom).dq.getLast? = some d ∧
  (∀ l, l ≠ loom → loomOf t l = loomOf s l)

/-- A port has gone Down, with no lane and no partner; no other port changes its state, and requests to a destination that it alone
served end with INTERNAL (R388, R389, R396, R414). -/
def wentDown (s t : State) (p : Nat) : Prop :=
  (portOf t p).state = .down ∧ (portOf t p).width = 0 ∧ (portOf t p).peer = 0xFFFF ∧ (portOf t p).since = now t ∧
  (∀ q, q ≠ p → (portOf t q).state = (portOf s q).state ∧ (portOf t q).width = (portOf s q).width ∧ (portOf t q).peer = (portOf s q).peer) ∧
  t.fabric.routes = s.fabric.routes ∧
  (∀ dst cid a, (AMap.getD s.fabric.routes dst 0).getLsbD p = true → routePorts t dst = [] → findAdm s cid = some a →
    a.phase = .waitReply dst → doneWith t cid (· = .bare stInternal))

/-- What a command that changes no object, port or program may change: the admission stage, function counters, the energy
counted, the counters of the reeds, and which granules were used last (R163). -/
def onlyReports (s t : State) : Prop :=
  t = { s with
    sched := t.sched, fns := t.fns, draught := t.draught, reeds := t.reeds
    space := { s.space with recent := t.space.recent, streamed := t.space.streamed } }

end Sys2Proof.Safety
end

