-- ==== Sys2Proof/Certificates/Slice0/Obligations.lean ====
section
/-! DEFINITION. The statements for the provers: rules of the spec as claims about the model, and the model's invariants. -/

open Sys2Proof Sys2Proof.Machine Sys2Proof.Safety

/-- A step takes the front command and runs it on the state with the queue's rest; an empty queue is one count of node
time while the always-on domain has power (R19, R23; the tick is the model's choice, log entry 2), in which arrays step and channels
enter their segments and nothing else changes. -/
def Obligations.StepRunsFrontCommand : Prop :=
  (∀ (c : Instr) (rest : List Instr) (s : State), s.pending = c :: rest → step s = exec c { s with pending := rest }) ∧
  (∀ s : State, s.pending = [] → ∃ t, step s = .next t ∧
    t.time = (if s.board.powered = true then s.time + 1 else s.time) ∧
    t = { s with time := t.time, stk := { s.stk with chans := t.stk.chans }, looms := { s.looms with looms := t.looms.looms } } ∧
    (∀ c ch, AMap.get? s.stk.chans c = some ch → ch.state ≠ .entry → AMap.get? t.stk.chans c = some ch))

/-- Every row of the table has an effect in every state: none ends in a fault or a refusal. -/
def Obligations.EveryCommandGoesOn : Prop := ∀ (c : Instr) (s : State), goesOn (exec c s)

/-- R63-R65, R70: an invariant of every step: PWR_GOOD is high only with all ten rails on and never during hold-up, and a
latched thermal trip keeps every rail off, once a hold-up has run to its end (R66), and THERM_TRIP_N low. -/
def Obligations.RailsStayInOrder : Prop := ∀ s t : State, railsOrdered s → step s = .next t → railsOrdered t

/-- R61: the invariant of the rails holds right after a power-on reset. -/
def Obligations.RailsInOrderAtReset : Prop := railsOrdered State.reset

/-- R500: MIN_SVN over every step: raised at service-ready to the running image's SVN if that is higher, otherwise kept, so nothing
lowers it. -/
def Obligations.SecurityVersionNeverFalls : Prop :=
  (∀ s t : State, step s = .next t →
    t.glaesh.minSvn = s.glaesh.minSvn ∨
    s.boot.starting = true ∧ t.boot.serviceReady = true ∧
      t.glaesh.minSvn.toNat = max s.glaesh.minSvn.toNat s.glaesh.fwSvn.toNat) ∧
  (∀ (failed : Bool) (bad : List Nat) (s : State), s.boot.starting = true → s.boot.kindling = false → 8 ∈ s.boot.stages → 9 ∉ s.boot.stages →
    ∃ t, exec (.startStageEnd 9 failed bad) s = .next t ∧ t.boot.serviceReady = true ∧
      t.glaesh.minSvn.toNat = max s.glaesh.minSvn.toNat s.glaesh.fwSvn.toNat)

/-- R19, R53, R56, R57, R61, R66, R70, R72, R472, R477, R478, R491, R523: the five rows that begin a device reset from the rails' side,
the cause each records, what every one of them loses and what it keeps. A restart records the cause that the loss of its rails left
(3, or 4 after POWER_CYCLE). -/
def Obligations.DeviceResetsBegin : Prop :=
  (∀ (conv : List Nat) (vstby : Bool) (s : State),
    (s.board.powered = true → s.board.band = .absent ∧ s.board.rails = 0 ∧ s.board.holdUp = false) →
    ∃ t, exec (.powerOnReset conv vstby) s = .next t ∧ resetLeaves s t 1 ∧ t.board.powered = true ∧ t.board.stby = vstby ∧
      t.board.status = 0 ∧ t.service = {} ∧ t.board.rails = 0 ∧ t.boot.strapRaw = BitVec.ofNat 10 (median conv)) ∧
  (∀ (conv : List Nat) (s : State), s.board.powered = true → s.board.holdUp = false → s.service.mode ≠ .dormant →
    s.boot.released = true →
    ∃ t, exec (.pinReset conv) s = .next t ∧ resetLeaves s t 2 ∧ t.service.store = s.service.store ∧
      t.board.perstLow = true ∧ t.board.alertN = true ∧ t.board.rails = s.board.rails ∧ t.board.pwrGood = s.board.pwrGood ∧
      t.board.status = s.board.status ∧ t.boot.strapRaw = BitVec.ofNat 10 (median conv)) ∧
  (∀ (conv : List Nat) (s : State), railsFree s.board → s.service.mode = .dormant →
    ∃ t, exec (.pinReset conv) s = .next t ∧ resetLeaves s t 2 ∧ t.board.rails = 1 ∧ t.service.mode = .service) ∧
  (∀ (conv : List Nat) (s : State), s.board.powered = true → s.board.holdUp = false → s.service.mode ≠ .dormant →
    s.boot.released = false → exec (.pinReset conv) s = .next { s with board := { s.board with perstLow := true } }) ∧
  (∀ (conv : List Nat) (s : State), s.board.powered = true → s.board.holdUp = true →
    exec (.pinReset conv) s = .next { s with board := { s.board with heldPerst := true } }) ∧
  (∀ (vin : Bool) (conv : List Nat) (s : State), s.board.holdUp = true → s.board.heldCycle = false → s.service.mode ≠ .removal →
    railsFree { s.board with
      holdUp := false, rails := 0, cyclePending := false,
      band := if (vin || s.board.heldVin) && s.board.band == .absent then .normal else s.board.band } →
    ∃ t, exec (.holdUpEnd true vin conv) s = .next t ∧ resetLeaves s t 3 ∧ t.service.store = s.service.store ∧
      t.board.holdUp = false ∧ t.board.rails = 1 ∧ t.board.status = s.board.status ∧
      t.board.perstLow = (s.board.perstLow || s.board.heldPerst) ∧ t.boot.strapRaw = BitVec.ofNat 10 (median conv)) ∧
  (∀ (conv : List Nat) (s : State), s.board.powered = true → s.board.holdUp = true → s.board.heldCycle = false → s.board.heldVin = false →
    s.board.band = .absent → s.service.mode ≠ .removal →
    ∃ t, exec (.holdUpEnd true false conv) s = .next t ∧ t.board.holdUp = false ∧ t.board.rails = 0 ∧ t.board.restart = 3 ∧
      t.board.status = s.board.status ∧ t.service.store = s.service.store ∧ t.sched = {} ∧ t.space = {}) ∧
  (∀ (vin : Bool) (conv : List Nat) (s : State), s.board.powered = true → s.board.holdUp = true →
    ∃ t, exec (.holdUpEnd false vin conv) s = .next t ∧ t.board.powered = false ∧ t.board.rails = 0 ∧ t.board.status = 0 ∧
      t.service = {}) ∧
  (∀ (hot : Int) (s : State), s.board.tripLatch = true → s.board.restored = true → hot < 1440 → s.board.restart ≠ 0 →
    railsFree { s.board with tripLatch := false, hotX16 := hot } → s.service.mode ≠ .dormant → s.service.mode ≠ .safe →
    ∃ t, exec (.tripLatchRelease hot) s = .next t ∧ resetLeaves s t s.board.restart ∧ t.board.tripLatch = false ∧
      t.board.thermTripN = true ∧ t.board.rails = 1 ∧ t.board.status = s.board.status) ∧
  (∀ (conv : List Nat) (s : State), s.board.cyclePending = true → s.board.restart ≠ 0 → railsFree { s.board with cyclePending := false } →
    s.service.mode ≠ .dormant → s.service.mode ≠ .safe →
    ∃ t, exec (.powerCycleRestart conv) s = .next t ∧ resetLeaves s t s.board.restart ∧ t.board.cyclePending = false ∧
      t.board.rails = 1 ∧ t.board.status = s.board.status ∧ t.boot.strapRaw = BitVec.ofNat 10 (median conv))

/-- R54, R56, R57, R59, R60, R63, R76, R458, R477: the rows by which the rails come up, one rail a row, and reset is released; each
changes only what is named. A first power-up owes no device reset; a restart does. -/
def Obligations.RailsComeUp : Prop :=
  (∀ (mv : Nat) (s : State), s.board.band = .absent → s.board.restart = 0 → s.service.mode ≠ .dormant →
    railsFree { s.board with band := bandOf mv, railLatch := false } →
    ∃ t, exec (.vinTurnOn mv) s = .next t ∧ t.board.rails = 1 ∧ t.board.railsWanted = true ∧ t.board.pwrGood = false ∧
      t.board.vinMv = mv ∧ t.board.band = bandOf mv ∧ t.board.railLatch = false ∧ t.board.lockedOpen = false ∧
      t.boot = s.boot ∧ t.fns = s.fns ∧ t.flash = s.flash ∧ t.time = s.time) ∧
  (∀ (mv : Nat) (s : State), s.board.band = .absent → s.board.restart ≠ 0 → s.service.mode ≠ .dormant →
    railsFree { s.board with band := bandOf mv, railLatch := false } →
    ∃ t, exec (.vinTurnOn mv) s = .next t ∧ resetLeaves s t s.board.restart ∧ t.board.rails = 1 ∧ t.board.vinMv = mv) ∧
  (∀ (mv : Nat) (s : State), s.board.powered = true → s.board.holdUp = true →
    exec (.vinTurnOn mv) s = .next { s with board := { s.board with heldVin := true, vinMv := mv } }) ∧
  (∀ s : State, s.board.railsWanted = true → 1 ≤ s.board.rails → s.board.rails < 10 →
    exec .railEnable s = .next { s with board := { s.board with
      rails := s.board.rails + 1, pwrGood := s.board.rails + 1 == 10
      goodAt := if s.board.rails + 1 = 10 then (now s : Int) else s.board.goodAt } }) ∧
  (∀ (conv : List Nat) (s : State), s.board.powered = true → s.board.pwrGood = true → s.boot.released = false →
    releaseDue s < 2 ^ 64 →
    ∃ t, exec (.resetRelease conv) s = .next t ∧ t.time.toNat = max (now s) (releaseDue s) ∧ t.boot.released = true ∧
      t.boot.releasedAt = t.time ∧ t.boot.starting = true ∧ t.boot.stages = [] ∧
      t.boot.strapRaw = (if s.boot.strapOwed = true then BitVec.ofNat 10 (median conv) else s.boot.strapRaw) ∧
      t.link = { s.link with training := s.link.refclk } ∧ t.board.perstLow = false ∧ t.board.resetting = false ∧
      t.board.driven = false ∧ t.board.tap ≠ .extest ∧
      t.draught = { s.draught with vFloorMv := BitVec.ofNat 12 (max 650 s.draught.ageFloorMv.toNat) } ∧ t.fns = s.fns) ∧
  (∀ (mv : Nat) (s : State), s.board.switchClosed = false → s.board.lockedOpen = false → 49000 ≤ mv → mv ≤ 60000 →
    s.board.restart ≠ 0 → railsFree { s.board with switchClosed := true, band := bandOf mv } →
    s.service.mode ≠ .dormant → s.service.mode ≠ .safe →
    ∃ t, exec (.switchReclose mv) s = .next t ∧ resetLeaves s t s.board.restart ∧ t.board.switchClosed = true ∧
      t.board.rails = 1 ∧ t.board.band = bandOf mv) ∧
  (∀ (hot : Int) (s : State), s.board.coolWait = true → hot < 1440 → s.board.restart = 0 →
    railsFree { s.board with hotX16 := hot } → s.service.mode ≠ .dormant → s.service.mode ≠ .safe →
    ∃ t, exec (.junctionSensorsCool hot) s = .next t ∧ t.board.rails = 1 ∧ t.board.coolWait = false ∧ t.boot = s.boot ∧
      t.fns = s.fns)

/-- R59, R60, R64-R66, R70-R73, R189: the rows that take power away, from a node whose PWR_GOOD is high: PWR_GOOD falls, the node's
work is lost, the fact is recorded. POWER_CYCLE waits for the end of a hold-up, and is ignored while a trip is latched and hot. -/
def Obligations.RailsGoOff : Prop :=
  (∀ (code : Nat) (s : State), s.board.rails ≠ 0 → s.board.railLatch = false → s.board.holdUp = false →
    ∃ t, exec (.railFault code) s = .next t ∧ t.board.rails = 0 ∧ t.board.pwrGood = false ∧ t.board.railLatch = true ∧
      t.board.railFault = BitVec.ofNat 8 code ∧ t.board.status.getLsbD 3 = true ∧ t.sched = {} ∧ t.space = {}) ∧
  (∀ (temp : Int) (s : State), s.board.powered = true → s.board.holdUp = false → s.board.rails ≠ 0 → 1840 ≤ temp →
    ∃ t, exec (.thermTrip temp) s = .next t ∧ t.board.rails = 0 ∧ t.board.pwrGood = false ∧
      t.board.tripLatch = true ∧ t.board.thermTripN = false ∧ t.board.hotX16 = temp ∧ t.board.status.getLsbD 2 = true ∧
      t.sched = {} ∧ t.space = {}) ∧
  (∀ s : State, s.board.powered = true → s.board.pwrGood = true →
    ∃ t, exec .inputLoss s = .next t ∧ t.board.holdUp = true ∧ t.board.pwrGood = false ∧ t.board.band = .absent ∧
      t.flash.journal = [] ∧ t.board.status.getLsbD 7 = true ∧ t.sched = {} ∧ t.space = {}) ∧
  (∀ s : State, s.board.powered = true → s.board.pwrGood = true → s.board.switchClosed = true →
    ∃ t, exec .overvoltageSwitchOff s = .next t ∧ t.board.switchClosed = false ∧ t.board.holdUp = true ∧
      t.board.pwrGood = false ∧ t.flash.journal = [] ∧ t.board.status.getLsbD 6 = true ∧ t.board.status.getLsbD 7 = true) ∧
  (∀ s : State, s.board.powered = true → s.board.pwrGood = true → s.board.switchClosed = true →
    ∃ t, exec .ocTrip s = .next t ∧ t.board.switchClosed = false ∧ t.board.holdUp = true ∧ t.board.pwrGood = false ∧
      t.board.lockedOpen = decide (3 ≤ (recentOpenings s).length + 1) ∧
      t.flash.journal = [] ∧ t.board.status.getLsbD 4 = true ∧ t.board.status.getLsbD 7 = true) ∧
  (∀ (pec : Option Byte) (s : State), s.board.powered = true → pecOk 8 [0xA5] pec = true → s.board.holdUp = false →
    (s.board.tripLatch = true → s.board.hotX16 < 1440) →
    ∃ t, exec (.powerCycle 0xA5 pec) s = .next t ∧ t.board.rails = 0 ∧ t.board.pwrGood = false ∧
      t.board.cyclePending = true ∧ t.board.restart = 4 ∧ t.board.railLatch = false ∧ t.board.lockedOpen = false ∧
      t.sched = {} ∧ t.space = {}) ∧
  (∀ (pec : Option Byte) (s : State), s.board.powered = true → pecOk 8 [0xA5] pec = true → s.board.holdUp = true →
    s.board.tripLatch = false → exec (.powerCycle 0xA5 pec) s = .next { s with board := { s.board with heldCycle := true } }) ∧
  (∀ (v : Byte) (pec : Option Byte) (s : State), s.board.powered = true → pecOk 8 [v] pec = true →
    v ≠ 0xA5 ∨ (s.board.tripLatch = true ∧ 1440 ≤ s.board.hotX16) → exec (.powerCycle v pec) s = .next s)

/-- R59, R61, R68, R71-R75: the management endpoint's rows; all but `board` and what is sent stays. Reads have no row of their own and
come with ALERT_RESPONSE (the model's choice, log entry 101). -/
def Obligations.ManagementEndpoint : Prop :=
  (∀ (mv : Nat) (s : State), s.board.powered = true → s.board.band ≠ .absent → 47000 ≤ mv → mv ≤ 63000 →
    s.board.band ≠ (if mv < 50000 then .low else if mv ≤ 60000 then .normal else .high) →
    ∃ b, exec (.inputBandChange mv) s = .next { s with board := b } ∧ b.vinMv = mv ∧ b.rails = s.board.rails ∧
      b.band = (if mv < 50000 then .low else if mv ≤ 60000 then .normal else .high) ∧ b.currentLimit = decide (mv < 50000) ∧
      b.status = (if mv < 50000 then s.board.status ||| (1#16 <<< 5)
        else if mv ≤ 60000 then s.board.status else s.board.status ||| (1#16 <<< 6))) ∧
  (∀ s : State, s.board.powered = true → s.board.band ≠ .absent → ∃ b, exec .stbyLost s = .next { s with board := b } ∧
    b.status = s.board.status ||| (1#16 <<< 8) ∧ b.rails = s.board.rails ∧ b.stby = false ∧ b.powered = true) ∧
  (∀ s : State, s.board.powered = true → s.board.band = .absent → s.board.holdUp = false →
    ∃ t, exec .stbyLost s = .next t ∧ t.board.powered = false ∧ t.board.status = 0) ∧
  (∀ (v : BitVec 16) (pec : Option Byte) (s : State), s.board.powered = true → pecOk 1 (toLE 2 v.toNat) pec = true →
    exec (.statusWrite v pec) s = .next { s with board := { s.board with status := s.board.status &&& ~~~v } }) ∧
  (∀ (v : BitVec 16) (pec : Option Byte) (s : State), s.board.powered = true → pecOk 1 (toLE 2 v.toNat) pec = false →
    exec (.statusWrite v pec) s = .next (emit s (.smbus none))) ∧
  (∀ (v : BitVec 16) (pec : Option Byte) (s : State), s.board.powered = true → pecOk 9 (toLE 2 v.toNat) pec = true →
    ∃ b, exec (.inletTemp v pec) s = .next { s with board := b } ∧ b.inlet = some v.toInt ∧ b.inletAt = now s ∧
    (640 < v.toInt → b.status = s.board.status ||| (1#16 <<< 1)) ∧ (¬ 640 < v.toInt → b.status = s.board.status) ∧
    (b.status ≠ s.board.status → s.board.configured = true → s.board.resetting = false → b.alertN = false) ∧
    (b.status = s.board.status → b.alertN = s.board.alertN)) ∧
  (∀ (v : Int) (s : State), s.board.powered = true → s.board.inlet = some v → (s.board.inletAt + 1000000000).toNat < 2 ^ 64 →
    ∃ t, exec .inletTempTimeout s = .next t ∧ t = { s with time := t.time, board := { s.board with inlet := none } } ∧
      t.time.toNat = max (now s) (s.board.inletAt + 1000000000).toNat) ∧
  (∀ s : State, s.board.powered = true → s.board.alertN = false → exec (.alertResponse .alert) s =
    .next { s with board := { s.board with alertN := true }, sent := s.sent ++ [.smbus (some [0x2A])] }) ∧
  (∀ (code : Byte) (pec : Bool) (s : State), s.board.powered = true →
    ∃ t d, exec (.alertResponse (.read code pec)) s = .next t ∧ t = { s with sent := s.sent ++ [.smbus d], fresh := s.fresh + 1 } ∧
      (pec = false → code = 1 → d = some (toLE 2 s.board.status.toNat)) ∧
      (pec = false → code = 7 → d = some [s.board.railFault]) ∧ (code = 8 → d = none)) ∧
  (∀ (offset : Nat) (data : List Byte) (s : State), s.board.powered = true →
    exec (.alertResponse (.eepromWrite offset data)) s = .next (emit s (.smbus none))) ∧
  (∀ s : State, s.board.powered = true → s.board.band = .low → ∃ b, exec .iinLimit s = .next { s with board := b } ∧
    b.status = s.board.status ||| (1#16 <<< 0) ∧ b.iin10Ma = 4800)

/-- R51, R54, R55, R58, R76, R522, R540: pin configuration, clock, trigger and test access port; the captured contacts are a free
value (log entry 5). -/
def Obligations.PinsAndBoundaryScan : Prop :=
  (∀ s : State, s.board.powered = true →
    exec .pinConfiguration s = .next { s with board := { s.board with configured := true } }) ∧
  (∀ s : State, exec .refclkStable s = .next { s with link := { s.link with
    refclk := true, training := s.link.training || (s.boot.released && !s.link.up) } }) ∧
  (∀ s : State, s.board.powered = true → s.board.configured = true → s.board.resetting = false →
    s.service.snapSrc.getLsbD 0 = true → s.service.frozen = false →
    ∃ t, exec .trigIn s = .next t ∧ t.service.frozen = true ∧ t.service.valid = false ∧ t.service.snapSource = 1 ∧
      t.service.snapSeq = s.service.snapSeq + 1 ∧ t.service.snapTime = s.time ∧ t.sent = s.sent ∧ t.board = s.board) ∧
  (∀ s : State, s.board.powered = true → s.board.resetting = true → exec .trigIn s = .next s) ∧
  (∀ s : State, s.board.powered = true →
    exec .tapReset s = .next { s with board := { s.board with tap := .idcode, driven := false } }) ∧
  (∀ s : State, s.board.powered = true → exec .bypass s = .next { s with
    board := { s.board with tap := .bypass, driven := false }, sent := s.sent ++ [.tdo 1 0] }) ∧
  (∀ s : State, s.board.powered = true → exec .idcode s = .next { s with
    board := { s.board with tap := .idcode, driven := false }, sent := s.sent ++ [.tdo 32 0x15200FDB] }) ∧
  (∀ (bits : BitVec 15) (s : State), s.board.powered = true → ∃ v, exec (.samplePreload bits) s = .next { s with
    board := { s.board with tap := .sample, boundary := bits, driven := false }
    sent := s.sent ++ [.tdo 15 v], fresh := s.fresh + 1 }) ∧
  (∀ (bits : BitVec 15) (s : State), s.board.powered = true → s.board.perstLow = true →
    ∃ v, exec (.extest bits) s = .next { s with
      board := { s.board with tap := .extest, boundary := bits, driven := true }
      sent := s.sent ++ [.tdo 15 v], fresh := s.fresh + 1 }) ∧
  (∀ (bits : BitVec 15) (s : State), s.board.powered = true → s.board.perstLow = false →
    exec (.extest bits) s = exec .bypass s)

/-- R92, R93, R95, R96: hot reset and link down, the host-side state they clear in every function and what of it they keep. -/
def Obligations.LinkResetsFunctions : Prop :=
  (∀ s : State, s.link.up = true →
    (∃ t, exec .hotReset s = .next t ∧ t.link.up = false ∧ t.link.training = true ∧ t.link.vfEnable = false ∧
      t.link.numVfs = 0 ∧ t.time = s.time ∧ t.link.downs24 = s.link.downs24 ∧
      ∀ f, f < 256 → hostSideCleared (fnOf t f) ∧ (fnOf t f).lastReset = 1 ∧ (fnOf t f).present = false) ∧
    (∃ t, exec .linkDown s = .next t ∧ t.link.up = false ∧ t.link.training = true ∧ t.link.vfEnable = false ∧
      t.link.numVfs = 0 ∧ t.time = s.time ∧ t.link.downs24 = Hours.add s.link.downs24 ∧
      ∀ f, f < 256 → hostSideCleared (fnOf t f) ∧ (fnOf t f).lastReset = 2 ∧ (fnOf t f).present = false)) ∧
  (∀ s : State, s.link.up = true → (∀ e ∈ s.fns, e.2.flr = false) →
    (∃ t, exec .hotReset s = .next t ∧ ∀ f, f < 256 → keptThroughHostReset (fnOf s f) (fnOf t f)) ∧
    (∃ t, exec .linkDown s = .next t ∧ ∀ f, f < 256 → keptThroughHostReset (fnOf s f) (fnOf t f)))

/-- R94-R96, R491: a function-level reset of any function that is there begins and completes; its violation counter and settings
stay. -/
def Obligations.FunctionLevelResetRuns : Prop :=
  (∀ (f : Fn) (s : State), exists' s f = true → (fnOf s f).flr = false →
    ∃ t, exec (.functionLevelReset f) s = .next t ∧ (fnOf t f).flr = true ∧ (fnOf t f).hostQ = [] ∧ (fnOf t f).fabQ = [] ∧
      (fnOf t f).waiting = [] ∧ (fnOf t f).inflight = 0 ∧ (∀ a ∈ t.sched.admitted, a.cmd.fn ≠ f) ∧
      (∀ c ∈ t.fabric.colls, c.fn ≠ f) ∧ (∀ e ∈ t.boot.directory, e.2.fn ≠ f) ∧
      (∀ e ∈ t.prog.instances, e.2.fn = f → e.2.stopping = true) ∧
      (f = 0 → t.link.vfEnable = false) ∧ t.time = s.time ∧ t.board = s.board) ∧
  (∀ (f : Fn) (s : State), (fnOf s f).flr = true → exec (.functionLevelReset f) s = .next s) ∧
  (∀ (f : Fn) (s : State), (fnOf s f).flr = true →
    ∃ t, exec (.flrComplete f) s = .next t ∧ (fnOf t f).flr = false ∧ hostSideCleared (fnOf t f) ∧ (fnOf t f).lastReset = 3 ∧
      (fnOf t f).kek = none ∧ (fnOf t f).txKey = none ∧ (fnOf t f).rxKeys = [] ∧ (fnOf t f).energyNj = 0 ∧
      (fnOf t f).objSerial = 0 ∧ (fnOf t f).ready = (s.boot.serviceReady || s.boot.kindlingBolt.isSome) ∧
      (fnOf t f).violations = (fnOf s f).violations ∧ (fnOf t f).weight = (fnOf s f).weight ∧
      (∀ e ∈ t.prog.instances, e.2.fn ≠ f) ∧ (∀ e ∈ t.prog.knots, e.2.fn ≠ f) ∧
      (f = 0 → t.link.numVfs = 0 ∧ t.link.aspmL1 = false) ∧ t.time = s.time)

/-- R77-R82, R84, R86, R90-R92, R97, R98, R482, R483, R540: VF Enable, power management, link training, the errors the endpoint
logs, configuration reads and writes. The bits of the AER registers and the encodings of the payload and request sizes are those of
PCI Express (PRESUMED, log entry 103). -/
def Obligations.VirtualFunctionsAppear : Prop :=
  (∀ s : State, s.link.vfEnable = false → s.boot.kindling = false → (s.link.ari = true ∨ s.link.numVfs ≤ 7) →
    ∃ t, exec .vfEnable s = .next t ∧ t.link = { s.link with vfEnable := true } ∧ (fnOf t 0) = fnOf s 0 ∧
      ∀ f, 1 ≤ f → f < 256 → fnOf t f = (if f ≤ s.link.numVfs then
        { fnOf s f with present := true, ready := s.boot.serviceReady } else fnOf s f)) ∧
  (∀ s : State, s.link.vfEnable = true →
    ∃ t, exec .vfDisable s = .next t ∧ t.link = { s.link with vfEnable := false } ∧
      ∀ f, 1 ≤ f → f < 256 → (fnOf t f).present = false ∧ ((fnOf s f).present = true →
        hostSideCleared (fnOf t f) ∧ (fnOf t f).lastReset = 4 ∧ keptThroughHostReset (fnOf s f) (fnOf t f))) ∧
  (∀ (f : Fn) (s : State), exists' s f = true →
    exec (.powerStateWrite f 3) s = .next (setFn s f { fnOf s f with d3hot := true }) ∧
    exec (.powerStateWrite f 1) s = .next s ∧ exec (.powerStateWrite f 2) s = .next s ∧
    ∃ t, exec (.powerStateWrite f 0) s = .next t ∧ (fnOf t f).d3hot = false ∧ (fnOf t f).msix = (fnOf s f).msix ∧
      t.time = s.time ∧ t.space = s.space) ∧
  (∀ s : State, s.link.up = true → s.link.aspmL1 = true → exec .l1Entry s = .next { s with link := { s.link with l1 := true } }) ∧
  (∀ s : State, s.link.aspmL1 = false → exec .l1Entry s = .next s) ∧
  (∀ (r w : Nat) (flit : Bool) (s : State), s.link.training = true → s.link.refclk = true →
    ∃ t, exec (.pcieLinkUp r w flit) s = .next t ∧ t.link.up = true ∧ t.link.training = false ∧
      t.link.rate = min r (strapRate s.boot) ∧ t.link.width = w ∧ (6 ≤ t.link.rate → t.link.flit = true) ∧
      (t.link.rate < 6 → t.link.flit = flit) ∧ t.time = s.time ∧ t.space = s.space) ∧
  (∀ (f : Fn) (err : LinkError) (s : State), exists' s f = true →
    ∃ t, exec (.poisonedTlp f err) s = .next t ∧ t.space = s.space ∧ t.time = s.time ∧
      fnOf t f = { fnOf s f with cfg := match linkErrorBit err with
        | .inl b => { (fnOf s f).cfg with uncStatus := (fnOf s f).cfg.uncStatus ||| (1#32 <<< b) }
        | .inr b => { (fnOf s f).cfg with corStatus := (fnOf s f).cfg.corStatus ||| (1#32 <<< b) } } ∧
      ((fnOf s f).cfg.reporting = 0 → t.sent = s.sent)) ∧
  (∀ (f : Fn) (acc : CfgAccess) (s : State), s.link.up = true → exists' s f = true → s.boot.stages.contains 3 = false →
    exec (.configRequest f acc) s = .next (emit s (.config f none))) ∧
  (∀ s : State, s.link.up = true → s.boot.stages.contains 3 = true →
    ∀ e ∈ [(CfgField.vendorId, 0x1E7A), (.deviceId, 0x5200), (.revisionId, 1), (.classCode, 0x120000), (.subsysId, 0x20),
        (.interruptPin, 0), (.bar 1, 0), (.bar 4, 0), (.flrCapable, 1), (.timeoutRanges, 15), (.msixTableSize, 7),
        (.msixTableBar, 2), (.msixTableOffset, 0x2000), (.msixPbaOffset, 0x3000), (.nextFunction, 0), (.totalVfs, 255),
        (.initialVfs, 255), (.firstVfOffset, 1), (.vfStride, 1), (.vfDeviceId, 0x5201), (.supportedPageSizes, 0x11),
        (.d1Support, 0), (.capability .sriov, 1), (.capability .acs, 1), (.capability .dsn, 1), (.capability .msi, 0),
        (.capability .ats, 0), (.capability .pasid, 0), (.capability .ptm, 0), (.capability .ide, 0)],
      exec (.configRequest 0 (.read e.1)) s = .next (emit s (.config 0 (some e.2)))) ∧
  (∀ (f : Fn) (s : State), s.link.up = true → exists' s f = true → f ≠ 0 → s.boot.stages.contains 3 = true →
    ∀ e ∈ [(CfgField.deviceId, 0x5201), (.bar 0, 0), (.bar 2, 0), (.capability .pciExpress, 1), (.capability .msix, 1),
        (.capability .aer, 1), (.capability .doe, 1), (.capability .sriov, 0), (.capability .acs, 0)],
      exec (.configRequest f (.read e.1)) s = .next (emit s (.config f (some e.2)))) ∧
  (∀ (v : Nat) (s : State), s.link.up = true → s.boot.stages.contains 3 = true →
    exec (.configRequest 0 (.write .aspmL1 1)) s = .next { s with link := { s.link with aspmL1 := true } } ∧
    exec (.configRequest 0 (.write (.bar 0) v)) s =
      .next (setFn s 0 { fnOf s 0 with cfg := { (fnOf s 0).cfg with bar0 := BitVec.ofNat 64 (v / 0x200000000 * 0x200000000) } }) ∧
    (s.link.vfEnable = false → v ≤ 255 →
      exec (.configRequest 0 (.write .numVfs v)) s = .next { s with link := { s.link with numVfs := v } }) ∧
    (s.link.vfEnable = true → exec (.configRequest 0 (.write .numVfs v)) s = .next s) ∧
    exec (.configRequest 0 (.write .vendorId v)) s = .next s) ∧
  (∀ (f : Fn) (bs : List Byte) (s : State), s.link.up = true → exists' s f = true → s.boot.stages.contains 3 = true →
    (fnOf s f).doe = some bs →
    ∃ t, exec (.configRequest f (.read .doeData)) s = .next t ∧
      t.sent = s.sent ++ [.config f (some (leNat bs)), .doe f 0 bs] ∧ (fnOf t f).doe = none)

/-- R90, R505-R507: mailbox requests are answered, one at a time, and keys are set only in a secured session; the content of
standard answers is a free value (log entry 5). -/
def Obligations.SessionsGuardKeys : Prop :=
  (∀ (f : Fn) (s : State), exists' s f = true →
    ((fnOf s f).doe = none → ∃ bs, exec (.doeRequest f 64 .cma) s = .next (setFn { s with fresh := s.fresh + 1 } f
      { fnOf s f with doe := some bs })) ∧
    ((fnOf s f).doe = none → exec (.doeRequest f 12 (.discovery 0)) s = .next (setFn s f
      { fnOf s f with doe := some [1, 0, 0, 1] })) ∧
    ((fnOf s f).doe = none → exec (.doeRequest f 12 (.discovery 1)) s = .next (setFn s f
      { fnOf s f with doe := some [1, 0, 1, 0] })) ∧
    (∀ obj len, (fnOf s f).doe = none → 65536 < len →
      exec (.doeRequest f len obj) s = .next (setFn s f { fnOf s f with doeError := true })) ∧
    (∀ obj len, (fnOf s f).doe ≠ none → exec (.doeRequest f len obj) s = .next s) ∧
    exec (.doeAbort f) s = .next (setFn s f { fnOf s f with doeError := false, doe := none }) ∧
    (∃ t bs, exec (.spdmRequest f .challenge) s = .next t ∧ t.sent = s.sent ++ [.doe f 0 bs] ∧
      (fnOf t f).lastSigned = some s.fresh) ∧
    (∀ signed, ∃ t bs, exec (.spdmRequest f (.measurements signed)) s = .next t ∧
      t.sent = s.sent ++ [.doe f 0 (measured s f ++ bs)] ∧
      (fnOf t f).lastSigned = (if signed = true then some s.fresh else (fnOf s f).lastSigned)) ∧
    ((fnOf s f).session = false → ∃ t bs, exec (.spdmRequest f .keyExchange) s = .next t ∧
      t.sent = s.sent ++ [.doe f 0 bs] ∧ (fnOf t f).handshake = true ∧ (fnOf t f).session = false) ∧
    ((fnOf s f).session = true → ∃ t, exec (.spdmRequest f .keyExchange) s = .next t ∧
      t.sent = s.sent ++ [.doe f 2 []] ∧ fnOf t f = fnOf s f) ∧
    ((fnOf s f).handshake = true → ∃ t bs, exec (.spdmRequest f .finish) s = .next t ∧ t.sent = s.sent ++ [.doe f 0 bs] ∧
      (fnOf t f).session = true) ∧
    ((fnOf s f).handshake = false → ∃ t, exec (.spdmRequest f .finish) s = .next t ∧ t.sent = s.sent ++ [.doe f 1 []] ∧
      fnOf t f = fnOf s f) ∧
    (∃ t bs, exec (.spdmRequest f .endSession) s = .next t ∧ t.sent = s.sent ++ [.doe f 0 bs] ∧ (fnOf t f).session = false) ∧
    (∀ off n, n ≤ 1024 → exec (.getPqCert f off n) s = .next (emit s (.doe f 0 ((Config.pqChain.drop off).take n)))) ∧
    (∀ off n, 1024 < n → exec (.getPqCert f off n) s = .next (emit s (.doe f 2 []))) ∧
    (∀ n, (fnOf s f).lastSigned = some n → exec (.getPqSig f) s = .next (emit s (.doe f 0 (Config.pqSignature n)))) ∧
    ((fnOf s f).lastSigned = none → exec (.getPqSig f) s = .next (emit s (.doe f 2 []))) ∧
    (∀ k, (fnOf s f).session = true →
      exec (.setKek f true k) s = .next (emit (setFn s f { fnOf s f with kek := some k }) (.doe f 0 []))) ∧
    (∀ k b, b = false ∨ (fnOf s f).session = false → exec (.setKek f b k) s = .next (emit s (.doe f 1 []))) ∧
    (∀ k b, f ≠ 0 → exec (.setCompositionKey f b k) s = .next (emit s (.doe f 2 [])) ∧
      exec (.setNodeKey f b k) s = .next (emit s (.doe f 2 [])))) ∧
  (∀ (s : State) (k : BitVec 256), (fnOf s 0).session = true →
    (∃ t, exec (.setCompositionKey 0 true k) s = .next t ∧ t.glaesh = { s.glaesh with compKey := some k } ∧ t.fns = s.fns ∧
      t.sent = s.sent ++ [.doe 0 0 []]) ∧
    (∃ t, exec (.setNodeKey 0 true k) s = .next t ∧ t.glaesh = { s.glaesh with nodeKey := some k } ∧ t.fns = s.fns ∧
      t.sent = s.sent ++ [.doe 0 0 []])) ∧
  (∀ (s : State) (k : BitVec 256) (b : Bool), b = false ∨ (fnOf s 0).session = false →
    exec (.setCompositionKey 0 b k) s = .next (emit s (.doe 0 1 [])) ∧
    exec (.setNodeKey 0 b k) s = .next (emit s (.doe 0 1 [])))

/-- R85, R155, R159, R162, R172, R173, R516: aperture accesses, on a channel in memory mode. -/
def Obligations.ApertureReachesObjects : Prop :=
  (∀ (f : Fn) (off n addr oid o : Nat) (ecc : List (Nat × Ecc)) (obj : Obj) (s : State), barLive s f = true → apertureAddr s f off = some addr →
    heldOn s f addr = none → resolve s f addr = .bytes oid o → objOf s oid = some obj →
    ((verOf obj obj.current).bind (fun v => frameOf obj v (o / granule))).any (·.tier == .peat) = false →
    ecc.all (fun e => e.2 != .uncorrectable) = true → eccRange obj obj.current o n = false →
    ∃ t, exec (.apertureRead f off n ecc) s = .next t ∧ t.sent = s.sent ++ [.readData f (objectBytes obj obj.current o n)] ∧
      t.space = { s.space with recent := t.space.recent } ∧ t.fns = s.fns ∧ t.time = s.time) ∧
  (∀ (f : Fn) (off n addr : Nat) (ecc : List (Nat × Ecc)) (s : State), barLive s f = true → apertureAddr s f off = some addr →
    resolve s f addr = .unassigned →
    exec (.apertureRead f off n ecc) s = .next (emit (violate s f 1) (.readData f (List.replicate n 0#8)))) ∧
  (∀ (f : Fn) (off addr oid o : Nat) (data : List Byte) (obj : Obj) (v : Version) (fr : Frame) (s : State),
    barLive s f = true → apertureAddr s f off = some addr → heldOn s f addr = none → resolve s f addr = .bytes oid o →
    objOf s oid = some obj → obj.kind = .data → verOf obj obj.current = some v → frameOf obj v (o / granule) = some fr →
    fr.tier = .near → data ≠ [] → o % granule + data.length ≤ granule → o + data.length ≤ v.size → v.bytes.wf →
    ∃ t obj' v', exec (.apertureWrite f off data) s = .next t ∧ objOf t oid = some obj' ∧ verOf obj' obj.current = some v' ∧
      v'.bytes = Mem.write v.bytes o data ∧
      obj'.frames = obj.frames.map (fun x => { x with ue := x.ue.filter (fun b => !coversBlock obj o data.length x.gran b) }) ∧ t.fns = s.fns ∧ t.sent = s.sent ∧
      (∀ i, i < data.length → Mem.read v'.bytes (o + i) = data.getD i 0) ∧
      (∀ x, x < o ∨ o + data.length ≤ x → Mem.read v'.bytes x = Mem.read v.bytes x)) ∧
  (∀ (f : Fn) (off addr : Nat) (data : List Byte) (s : State), barLive s f = true → apertureAddr s f off = some addr →
    resolve s f addr = .unassigned →
    ∃ t, exec (.apertureWrite f off data) s = .next t ∧ t.fns = (violate s f 1).fns ∧ t.space = s.space) ∧
  (∀ (f : Fn) (off n addr c oid o ver : Nat) (ecc : List (Nat × Ecc)) (s : State), barLive s f = true →
    apertureAddr s f off = some addr → heldOn s f addr = some (c, oid, o, ver) → (chanOf s c).held.length < 64 →
    ∃ t ch, exec (.apertureRead f off n ecc) s = .next t ∧ t.sent = s.sent ∧ t.space = s.space ∧ t.fns = s.fns ∧
      AMap.get? t.stk.chans c = some ch ∧ ch.held = (chanOf s c).held ++ [⟨f, .aperture, off, oid, o, ver, n, .read, ecc⟩]) ∧
  (∀ (f : Fn) (off : Nat) (r : ApRead) (s : State), s.space.apReads.find? (fun r => r.fn == f && r.bar == off) = some r →
    r.arrived + 800000 < 2 ^ 64 →
    ∃ t e, exec (.apertureReadTimeout f off) s = .next t ∧ t.sent = s.sent ++ e ++ [.completerAbort f] ∧
      (e = [] ∨ ∃ sev, e = [.errorMessage f sev]) ∧ t.time.toNat = max (now s) (r.arrived + 800000) ∧
      t.space.apReads = s.space.apReads.erase r ∧
      (fnOf t f).tierFail = satAdd (fnOf s f).tierFail 1 ∧ (fnOf t f).cfg.uncStatus.getLsbD 15 = true) ∧
  (∀ (f : Fn) (off n addr oid o b : Nat) (obj : Obj) (v : Version) (fr : Frame) (s : State),
    barLive s f = true → apertureAddr s f off = some addr → heldOn s f addr = none → resolve s f addr = .bytes oid o →
    objOf s oid = some obj → verOf obj obj.current = some v → frameOf obj v (o / granule) = some fr → fr.tier = .near → n ≠ 0 →
    o % granule / 64 + b < 1024 → granule * (o / granule) + 64 * (o % granule / 64 + b) < o + n →
    ∃ t obj' e, exec (.apertureRead f off n [(b, .uncorrectable)]) s = .next t ∧ t.sent = s.sent ++ e ++ [.completerAbort f] ∧
      (e = [] ∨ ∃ sev, e = [.errorMessage f sev]) ∧
      t.service = { s.service with ue := satAdd s.service.ue 1, ue24 := Hours.add s.service.ue24 } ∧
      (fnOf t f).tierFail = (fnOf s f).tierFail ∧ objOf t oid = some obj' ∧ obj'.versions = obj.versions ∧
      eccRange obj' obj.current (granule * (o / granule) + 64 * (o % granule / 64 + b)) 1 = true)

/-- R99-R103, R110, R471: a write to one command-window slot. -/
def Obligations.CommandWindowCommits : Prop :=
  (∀ (f : Fn) (k off : Nat) (data : List Byte) (s : State), barLive s f = true → k < 256 → data ≠ [] →
    off + data.length ≤ 512 → ((slotOf s f k).busy = true ∨ (fnOf s f).ringEn = false ∨ (fnOf s f).ready = false) →
    exec (.commandWindowWrite f (512 * k + off) data) s =
      .next (setFn s f { fnOf s f with cwDiscard := satAdd (fnOf s f).cwDiscard 1 })) ∧
  (∀ (f : Fn) (k off n : Nat) (data : List Byte) (s : State), barLive s f = true → k < 256 → data ≠ [] →
    off + data.length ≤ 512 → (slotOf s f k).busy = false → (fnOf s f).ringEn = true → (fnOf s f).ready = true →
    slotReady (slotWrite (slotOf s f k) off data) = some n →
    ∃ t c, exec (.commandWindowWrite f (512 * k + off) data) s = .next t ∧ (slotOf t f k).busy = true ∧
      (fnOf t f).hostQ = (fnOf s f).hostQ ++ [c] ∧ c.fn = f ∧ c.origin = .host k ∧ c.cid = s.sched.nextCid ∧
      c.packet = (slotWrite (slotOf s f k) off data).bytes.readBytes 0 n ∧ c.commit = s.time.toNat ∧
      c.deadline = (if c.deadlineUs = 0 then none else some (s.time.toNat + 100 * c.deadlineUs)) ∧
      (fnOf t f).inflight = (fnOf s f).inflight + 1 ∧ t.sched.admitted = s.sched.admitted)

/-- R111-R113: for every function whose records lie within its ring, RING_CTL, RING_HEAD and the two record writes keep them
within it; what enabling, disabling and advancing the head do. -/
def Obligations.RingRegistersBehave : Prop :=
  (∀ (f : Fn) (c : Instr) (s t : State), (c = .replyRecordWrite f ∨ c = .eventRecordWrite f ∨ (∃ v, c = .ringEnable f v) ∨
      (∃ v, c = .ringDisable f v) ∨ ∃ v, c = .ringHeadWrite f v) → s.boot.exitPending = none →
    ringWithin (fnOf s f) → exec c s = .next t → ringWithin (fnOf t f)) ∧
  (∀ (f : Fn) (v : BitVec 32) (s : State), barLive s f = true → (fnOf s f).ringEn = false → v.getLsbD 0 = true →
    9 ≤ bits v.toNat 12 8 → bits v.toNat 12 8 ≤ 16 →
    exec (.ringEnable f v) s = .next (setFn s f { fnOf s f with
      ringEn := true, ringHead := 0, ringTail := 0, ringLog2 := BitVec.ofNat 5 (bits v.toNat 12 8) })) ∧
  (∀ (f : Fn) (v : BitVec 32) (s : State), barLive s f = true → (fnOf s f).ringEn = true → (fnOf s f).inflight = 0 →
    v.getLsbD 0 = false → exec (.ringDisable f v) s = .next (setFn s f { fnOf s f with ringEn := false })) ∧
  (∀ (f : Fn) (v : BitVec 32) (s : State), barLive s f = true → ((fnOf s f).ringTail - v).toNat ≤ 2 ^ (fnOf s f).ringLog2.toNat →
    exec (.ringHeadWrite f v) s = .next (setFn s f { fnOf s f with ringHead := v })) ∧
  (∀ (f : Fn) (v : BitVec 32) (s : State), barLive s f = true → 2 ^ (fnOf s f).ringLog2.toNat < ((fnOf s f).ringTail - v).toNat →
    exec (.ringHeadWrite f v) s = .next (setFn s f (fnOf s f)))

/-- R88, R89, R113-R116, R520: the records a function writes into host memory, and their interrupts. -/
def Obligations.RecordsReachTheHost : Prop :=
  (∀ (f : Fn) (w : Waiting) (rest : List Waiting) (s : State), (fnOf s f).waiting = w :: rest → ringRoom (fnOf s f) = true →
    s.boot.exitPending = none →
    ∃ t tail, exec (.replyRecordWrite f) s = .next t ∧
      t.sent = s.sent ++ [.dma f (4096 * (fnOf s f).ringBase.toNat +
          (fnOf s f).ringTail.toNat % 2 ^ (fnOf s f).ringLog2.toNat * 32)
        (lay 32 [(0, 2, w.slot), (2, 1, w.res.status.toNat), (3, 1, w.res.rflags.toNat), (4, 4, w.cookie.toNat),
          (8, 4, w.res.count.toNat), (12, 4, w.res.invalid.toNat), (16, 4, w.res.version.toNat), (20, 4, w.res.value.toNat),
          (24, 4, w.elapsed.toNat), (31, 1, 128 * (((fnOf s f).ringTail.toNat / 2 ^ (fnOf s f).ringLog2.toNat + 1) % 2))]) false] ++ tail ∧
      (fnOf t f).waiting = rest ∧ (fnOf t f).ringTail = (fnOf s f).ringTail + 1 ∧
      (fnOf t f).inflight = (fnOf s f).inflight - 1 ∧ (slotOf t f w.slot).busy = false ∧ (slotOf t f w.slot).written = 0) ∧
  (∀ (f : Fn) (e : Event) (rest : List Event) (s : State), (fnOf s f).events = e :: rest → ringRoom (fnOf s f) = true →
    ∃ t tail, exec (.eventRecordWrite f) s = .next t ∧
      t.sent = s.sent ++ [.dma f (4096 * (fnOf s f).ringBase.toNat +
          (fnOf s f).ringTail.toNat % 2 ^ (fnOf s f).ringLog2.toNat * 32)
        (lay 32 [(0, 2, 0xFFFF), (2, 1, e.code.toNat), (4, 4, (fnOf s f).eventsLost.toNat), (8, 4, e.arg0.toNat),
          (12, 4, e.arg1.toNat), (16, 8, e.arg2.toNat),
          (31, 1, 128 * (((fnOf s f).ringTail.toNat / 2 ^ (fnOf s f).ringLog2.toNat + 1) % 2) + 1)]) false] ++ tail ∧
      (fnOf t f).events = rest ∧ (fnOf t f).eventsLost = 0 ∧ (fnOf t f).ringTail = (fnOf s f).ringTail + 1) ∧
  (∀ (f : Fn) (s : State), (fnOf s f).unannounced ≠ 0 → (fnOf s f).announceBy < 2 ^ 64 →
    ∃ t, exec (.coalesceTimeout f) s = .next t ∧ (fnOf t f).unannounced = 0 ∧ t.time.toNat = max s.time.toNat (fnOf s f).announceBy) ∧
  (∀ (f : Fn) (v : Nat) (s : State), barLive s f = true → v < 8 → (fnOf s f).pba = 0 →
    exec (.msixUnmask f v) s = .next (setFn s f { fnOf s f with
      msix := AMap.insert (fnOf s f).msix v { AMap.getD (fnOf s f).msix v {} with masked := false } })) ∧
  (∀ (f : Fn) (v : Nat) (s : State), barLive s f = true → v < 8 → (fnOf s f).pba = 1#8 <<< v → s.link.up = true →
    (fnOf s f).msixEnable = true → (fnOf s f).msixMask = false → (fnOf s f).d3hot = false →
    ∃ t, exec (.msixUnmask f v) s = .next t ∧ (fnOf t f).pba = 0 ∧ t.sent = s.sent ++
      [.msix f v (AMap.getD (fnOf s f).msix v {}).addr (AMap.getD (fnOf s f).msix v {}).data])

/-- R15, R87, R121, R450, R522, R537, R538, R542: register accesses of function 0 and feature acceptance. -/
def Obligations.RegistersReadAndClear : Prop :=
  (∀ s : State, barLive s 0 = true →
    exec (.readClear 0 0x14018 8) s = .next { emit s (.readData 0 (toLE 8 s.flash.rebuilds.toNat)) with
      flash := { s.flash with rebuilds := 0 } }) ∧
  (∀ (f : Fn) (s : State), barLive s 0 = true → f < 256 →
    ∃ t, exec (.qsampleCountRead f) s = .next t ∧ (fnOf t f).samples = 0 ∧ (fnOf t f).maxDepth = 0 ∧ (fnOf t f).depthSum = 0 ∧
      (fnOf t f).weight = (fnOf s f).weight ∧ t.sched = s.sched) ∧
  (∀ (v : DWord) (s : State), barLive s 0 = true →
    exec (.registerWrite 0 0x10040 8 v) s = .next { s with service := { s.service with
      scratch := AMap.insert s.service.scratch 0 v } }) ∧
  (∀ (v : DWord) (s : State), barLive s 0 = true → s.boot.serviceReady = false →
    exec (.registerWrite 0 0x16000 8 v) s = .next s) ∧
  (∀ (f : Fn) (s : State), barLive s f = true → (fnOf s f).locked = false → (fnOf s f).inflight = 0 →
    exec (.apply f) s = .next (setFn s f { fnOf s f with
      featActive := featClose ((fnOf s f).featAccept &&& featOffer s.boot.kindling f), locked := true, rejected := false })) ∧
  (∀ (f : Fn) (s : State), barLive s f = true → ((fnOf s f).locked = true ∨ (fnOf s f).inflight ≠ 0) →
    exec (.apply f) s = .next (setFn s f { fnOf s f with rejected := true })) ∧
  (∀ s : State, exec .rearm s = .next { s with service := { s.service with frozen := false, valid := false } })

/-- R107, R122, R439, R443, R444, R450: an admission decision, a refill of the shapers and a sample of the queues. -/
def Obligations.SchedulerAdmits : Prop :=
  (∀ (f : Nat) (c : Cmd) (host : Bool) (s : State), chosen (wakeAll s) = some f → candidate (wakeAll s) f = some (c, host) →
    findAdm s c.cid = none →
    ∃ t a, exec .commandAdmit s = .next t ∧ t.sched.admitted = s.sched.admitted ++ [a] ∧ a.cmd = c ∧
      a.seq = s.sched.nextSeq ∧ t.sched.nextSeq = s.sched.nextSeq + 1 ∧ a.admitted = now s ∧
      a.features = featuresFor s c.fn c.origin ∧ t.sched.vtime = (fnOf (wakeAll s) f).startTag ∧
      (fnOf t f).hostQ = (if host then (fnOf s f).hostQ.tail else (fnOf s f).hostQ) ∧
      (fnOf t f).fabQ = (if host then (fnOf s f).fabQ else (fnOf s f).fabQ.tail) ∧
      t = { s with sched := t.sched, fns := t.fns, looms := t.looms, flash := t.flash }) ∧
  (∀ s : State, dueAt s .refill < 2 ^ 64 → ∃ t, exec .shaperRefill s = .next t ∧
    now t = dueAt s .refill ∧ now t % 10000 = 0 ∧ now s ≤ now t ∧
    t.sched.shapers = s.sched.shapers.map (fun e => (e.1, refill e.2 (now t))) ∧
    t = { s with time := t.time, sched := { s.sched with shapers := t.sched.shapers, fired := t.sched.fired } }) ∧
  (∀ (x : Shaper) (n : Nat), x.next = [] → x.rate ≠ 0 →
    refill x n = { x with tokens := min (x.tokens + x.rate.toNat) x.burst.toNat }) ∧
  (∀ (x : Shaper) (r b : BitVec 32) (m n : Nat), x.next = [(r, b, m)] → r ≠ 0 →
    refill x n = (if m < n then { x with rate := r, burst := b, next := [], tokens := min (x.tokens + r.toNat) b.toNat }
      else { x with tokens := if x.rate = 0 then 0 else min (x.tokens + x.rate.toNat) x.burst.toNat })) ∧
  (∀ (f : Nat) (s : State), f < 256 → dueAt s .sample < 2 ^ 64 → ∃ t, exec .queueSample s = .next t ∧
    now t = dueAt s .sample ∧ now t % 1000 = 0 ∧ now s ≤ now t ∧
    (fnOf t f).samples = satAdd (fnOf s f).samples 1 ∧
    (fnOf t f).depthSum = satAdd (fnOf s f).depthSum ((fnOf s f).hostQ.length + (fnOf s f).fabQ.length) ∧
    (fnOf t f).hostQ = (fnOf s f).hostQ ∧ (fnOf t f).fabQ = (fnOf s f).fabQ ∧
    t = { s with fns := t.fns, time := t.time, sched := { s.sched with fired := t.sched.fired } })

/-- R39, R44, R110, R115, R137, R140, R438: how commands and versions end their wait. -/
def Obligations.CommandsEnd : Prop :=
  (∀ (cid d k : Nat) (c : Cmd) (s : State),
    s.fns.findSome? (fun e => (e.2.hostQ ++ e.2.fabQ).find? (fun c => c.cid == cid)) = some c →
    c.deadline = some d → d < 2 ^ 64 → c.origin = .host k → stepsOneTwo s c (featuresFor s c.fn c.origin) = none →
    ∃ t e, exec (.queuedDeadline cid) s = .next t ∧
      (fnOf t c.fn).waiting = (fnOf s c.fn).waiting ++ [⟨c.cid, k, c.cookie, c.irqNow, c.fence, e, .bare stDeadline⟩] ∧
      (fnOf t c.fn).hostQ = (fnOf s c.fn).hostQ.filter (fun y => y.cid != cid) ∧
      t.time.toNat = max s.time.toNat d ∧ t.sched = s.sched ∧ t.space = s.space ∧ t.sent = s.sent) ∧
  (∀ (cid d keys : Nat) (consumed : List Nat) (a : Adm) (r : Result) (s : State), findAdm s cid = some a →
    a.cmd.deadline = some d → d < 2 ^ 64 → a.isDone = false → objChanging a.cmd a.carried = false →
    deadlineResult (advanceTo s d) a consumed = some (r, keys) →
    ∃ t, exec (.deadlineExpire cid consumed) s = .next t ∧ doneWith t cid (· = r) ∧ t.time.toNat = max s.time.toNat d ∧
      otherCommandsKept s t cid ∧ t.space = s.space ∧ t.sent = s.sent ∧
      (meetsForeign (advanceTo s d) a = false → t.fns = s.fns)) ∧
  (∀ (a : Adm) (consumed : List Nat) (s : State), a.cmd.opcode ∉ [0x206, 0x207, 0x300, 0x301, 0x302] →
    deadlineResult s a consumed = some (.bare stDeadline, 0)) ∧
  (∀ (cid k : Nat) (a : Adm) (r : Result) (s : State), findAdm s cid = some a → a.phase = .done r →
    programWaits s.flash cid = false → a.switch = none → a.cmd.origin = .host k →
    ∃ t e, exec (.commandComplete cid) s = .next t ∧ findAdm t cid = none ∧ otherCommandsKept s t cid ∧
      (fnOf t a.cmd.fn).waiting =
        (fnOf s a.cmd.fn).waiting ++ [⟨cid, k, a.cmd.cookie, a.cmd.irqNow, a.cmd.fence, e, atCompletion s a r⟩] ∧
      t.sent = s.sent ++ (if r.data = [] then []
        else [.dma a.cmd.fn a.cmd.resultAddr (atCompletion s a r).data (fnOf s a.cmd.fn).cfg.relaxed]) ∧ t.time = s.time) ∧
  (∀ (a : Adm) (r : Result) (s : State), (atCompletion s a r).status = r.status ∧ (atCompletion s a r).value = r.value ∧
    (r.version ≠ 0 → (atCompletion s a r).version = r.version) ∧
    (a.cmd.opcode ≠ 0x001 → (atCompletion s a r).data = r.data) ∧
    (a.cmd.opcode = 0x001 → r.data.length = 64 →
      (atCompletion s a r).data = r.data.take 48 ++ toLE 8 s.time.toNat ++ r.data.drop 56)) ∧
  (∀ (oid n : Nat) (o : Obj) (v : Version) (s : State), objOf s oid = some o → o.destroyed = false →
    nextBuild s oid o = none → verOf o n = some v → o.current < n →
    s.sched.admitted.any (fun a => a.isDone && a.switch == some n && a.switchObj == oid) = true →
    ∃ t o', exec (.versionSwitch oid n) s = .next t ∧ objOf t oid = some o' ∧ o'.current = n ∧ verOf o' n = some v ∧
      otherObjectsKept s t oid ∧ t.fns = s.fns ∧ t.sched = s.sched) ∧
  (∀ (oid : Nat) (o : Obj) (b : Building) (a : Adm) (s : State), objOf s oid = some o → o.destroyed = false →
    nextBuild s oid o = some b → o.mutations = [] → o.next < 0xFFFFFFFF → o.current < o.next →
    (∀ v ∈ o.versions, v.num < o.next) → findAdm s b.cid = some a →
    ∃ t o', exec (.versionSwitch oid o.next) s = .next t ∧ objOf t oid = some o' ∧ o'.current = o.next ∧
      doneWith t b.cid (fun r => r.status = stOk ∧ r.value = BitVec.ofNat 32 o.next ∧
        r.version = BitVec.ofNat 32 (pinnedVer a oid)))

/-- R132, R444-R447: the admin commands; nothing else changes. -/
def Obligations.AdminCommandsRun : Prop :=
  (∀ (cid : Nat) (a : Adm) (s : State), running s cid 0x000 = some a → exec (.nop cid) s = .next (finish s cid {})) ∧
  (∀ (cid : Nat) (a : Adm) (s : State), running s cid 0x001 = some a →
    exec (.identify cid) s = .next (finish s cid { data := lay 64 [(0, 2, a.cmd.fn), (2, 1, b2n (fnOf s a.cmd.fn).isSealed),
      (3, 1, b2n s.boot.kindling), (4, 4, s.glaesh.fwVersion.toNat),
      (8, 16, (featOffer s.boot.kindling a.cmd.fn).toNat), (24, 16, (fnOf s a.cmd.fn).featActive.toNat),
      (40, 8, Config.serial.toNat), (48, 8, s.time.toNat)] })) ∧
  (∀ (cid : Nat) (a : Adm) (s : State), running s cid 0x002 = some a → settingsTurn s a = true →
    slotBreaks s (a.p 32 1) (a.p 66 1) = false → reservesBut s (a.p 32 1) + a.p 68 2 ≤ 2048 → bit (a.p 67 1) 0 = false →
    exec (.schedSet cid) s = .next (finish (setFn s (a.p 32 1) { fnOf s (a.p 32 1) with
      weight := BitVec.ofNat 16 (a.p 64 2), shaper := BitVec.ofNat 6 (a.p 66 1), poolReserve := a.p 68 2,
      nearLimit := BitVec.ofNat 64 (a.p 72 8), peatLimit := BitVec.ofNat 64 (a.p 80 8) }) cid {})) ∧
  (∀ (cid : Nat) (a : Adm) (s : State), running s cid 0x002 = some a → settingsTurn s a = true →
    slotBreaks s (a.p 32 1) (a.p 66 1) = false → reservesBut s (a.p 32 1) + a.p 68 2 ≤ 2048 → bit (a.p 67 1) 0 = true →
    ∃ t, exec (.schedSet cid) s = .next t ∧ doneWith t cid (· = {}) ∧
      slotShaper t (a.p 66 1) = { slotShaper s (a.p 66 1) with
        next := (slotShaper s (a.p 66 1)).next ++ [(BitVec.ofNat 32 (a.p 88 4), BitVec.ofNat 32 (a.p 92 4), now s)] } ∧
      (fnOf t (a.p 32 1)).weight = BitVec.ofNat 16 (a.p 64 2) ∧ t = { s with sched := t.sched, fns := t.fns }) ∧
  (∀ (cid : Nat) (a : Adm) (s : State), running s cid 0x002 = some a → settingsTurn s a = true →
    (slotBreaks s (a.p 32 1) (a.p 66 1) = true ∨ 2048 < reservesBut s (a.p 32 1) + a.p 68 2) →
    exec (.schedSet cid) s = .next (finish s cid (.bare stInvalidParam))) ∧
  (∀ (cid : Nat) (a : Adm) (s : State), running s cid 0x003 = some a →
    exec (.schedGet cid) s = .next (finish s cid { data := settingsRecord s (a.p 32 1) }))

/-- R127, R133, R136, R137, R158: creation, destruction, grant and revocation. -/
def Obligations.ObjectsComeAndGo : Prop :=
  (∀ (cid oid : Nat) (a : Adm) (s u : State), running s cid 0x100 = some a →
    createObj s a.cmd.fn (if a.p 32 1 = 1 then .data else .bitmap) (BitVec.ofNat 8 (a.p 33 1)) [] (a.p 40 8) (fun _ => false)
      (some cid) = some (u, oid) →
    ∃ t o, exec (.objCreate cid) s = .next t ∧ nextOid s a.cmd.fn = some oid ∧ objOf t oid = some o ∧ o.fn = a.cmd.fn ∧
      o.kind = (if a.p 32 1 = 1 then .data else .bitmap) ∧ o.destroyed = false ∧ verSize o o.current = a.p 40 8 ∧
      (∀ x, Mem.read (verBytes o o.current) x = 0) ∧
      doneWith t cid (fun r => r.status = stOk ∧ r.value = BitVec.ofNat 32 oid) ∧ otherObjectsKept s t oid ∧
      otherCommandsKept s t cid) ∧
  (∀ (cid : Nat) (a : Adm) (s : State), running s cid 0x100 = some a →
    createObj s a.cmd.fn (if a.p 32 1 = 1 then .data else .bitmap) (BitVec.ofNat 8 (a.p 33 1)) [] (a.p 40 8) (fun _ => false)
      (some cid) = none →
    exec (.objCreate cid) s = .next (finish s cid (.bare stNoSpace))) ∧
  (∀ (cid : Nat) (a : Adm) (o : Obj) (s : State), running s cid 0x101 = some a → target s a (a.p 32 4) = .own o →
    ∃ t, exec (.objDestroy cid) s = .next t ∧ liveObj t (a.p 32 4) = none ∧ otherObjectsKept s t (a.p 32 4) ∧
      doneWith t cid (· = {}) ∧ otherCommandsKept s t cid ∧ t.fns = s.fns) ∧
  (∀ (cid : Nat) (a : Adm) (s : State), running s cid 0x101 = some a → target s a (a.p 32 4) = .foreign →
    exec (.objDestroy cid) s = .next (finish (violate s a.cmd.fn 1) cid {})) ∧
  (∀ (cid : Nat) (a : Adm) (s : State), running s cid 0x107 = some a →
    (∃ o, target s a (a.p 32 4) = .own o) → exec (.objGrant cid) s = .next (finish s cid {})) ∧
  (∀ (cid : Nat) (a : Adm) (s : State), running s cid 0x108 = some a →
    (∃ o, target s a (a.p 32 4) = .own o) → exec (.objRevoke cid) s = .next (finish s cid {})) ∧
  (∀ (cid g : Nat) (a : Adm) (o : Obj) (s : State), findAdm s cid = some a → a.phase = .done {} → a.switch = none →
    programWaits s.flash cid = false → (a.cmd.opcode = 0x107 ∨ a.cmd.opcode = 0x108) → g = a.p 36 1 →
    oidFn (a.p 32 4) = a.cmd.fn → objOf s (a.p 32 4) = some o → o.destroyed = false →
    ∃ t o', exec (.commandComplete cid) s = .next t ∧ objOf t (a.p 32 4) = some o' ∧
      (g ∈ o'.grants ↔ a.cmd.opcode = 0x107) ∧ (∀ h, h ≠ g → (h ∈ o'.grants ↔ h ∈ o.grants)))

/-- R129, R130, R133, R135, R182: bytes read, written and copied by commands. -/
def Obligations.ObjectBytesMove : Prop :=
  (∀ (cid : Nat) (a : Adm) (o : Obj) (s : State), running s cid 0x103 = some a →
    (target s a (a.p 32 4) = .own o ∨ target s a (a.p 32 4) = .granted o) → o.kind.addressed = true →
    a.p 40 8 + a.p 48 8 ≤ pinnedSize a (a.p 32 4) o → rangeBad .any o (pinnedVer a (a.p 32 4)) (a.p 40 8) (a.p 48 8) = false →
    ∃ t, exec (.objRead cid) s = .next t ∧
      doneWith t cid (· = {
        version := BitVec.ofNat 32 (pinnedVer a (a.p 32 4))
        data := (pinnedBytes a (a.p 32 4) o).readBytes (a.p 40 8) (a.p 48 8) }) ∧
      otherCommandsKept s t cid ∧ onlyReports s t ∧ t.fns = s.fns) ∧
  (∀ (cid : Nat) (a : Adm) (s : State), running s cid 0x103 = some a → target s a (a.p 32 4) = .foreign →
    ∃ t, exec (.objRead cid) s = .next t ∧ doneWith t cid (· = { data := List.replicate (a.p 48 8) 0#8 }) ∧
      t.fns = (violate s a.cmd.fn 1).fns ∧ otherCommandsKept s t cid ∧ onlyReports s t) ∧
  (∀ (cid : Nat) (host : List Byte) (a : Adm) (o : Obj) (v : Version) (s : State), running s cid 0x102 = some a →
    host.length = a.p 56 8 → mutationTurn s a (a.p 32 4) = true → target s a (a.p 32 4) = .own o → o.kind = .data →
    bit (a.p 36 1) 0 = false → pinnedVer a (a.p 32 4) = o.current → verOf o o.current = some v → v.bytes.wf →
    a.p 40 8 + host.length ≤ v.size →
    (∀ g ∈ rangeGranules (a.p 40 8) host.length, ∃ fr, frameOf o v g = some fr ∧ fr.tier = .near ∧ fr.lost = false) →
    ∃ t o' v', exec (.objWrite cid host) s = .next t ∧ doneWith t cid (· = {}) ∧ objOf t (a.p 32 4) = some o' ∧
      verOf o' o.current = some v' ∧ v'.size = v.size ∧
      o'.frames.map (fun x => { x with ue := [] }) = o.frames.map (fun x => { x with ue := [] }) ∧
      (∀ i, i < host.length → Mem.read v'.bytes (a.p 40 8 + i) = host.getD i 0) ∧
      (∀ x, x < a.p 40 8 ∨ a.p 40 8 + host.length ≤ x → Mem.read v'.bytes x = Mem.read v.bytes x) ∧
      otherObjectsKept s t (a.p 32 4) ∧ otherCommandsKept s t cid ∧ t.fns = s.fns) ∧
  (∀ (cid : Nat) (a : Adm) (so o : Obj) (v : Version) (s : State), running s cid 0x104 = some a →
    mutationTurn s a (a.p 36 4) = true → (target s a (a.p 32 4) = .own so ∨ target s a (a.p 32 4) = .granted so) →
    so.kind.addressed = true → a.p 40 8 + a.p 56 8 ≤ pinnedSize a (a.p 32 4) so →
    rangeBad .any so (pinnedVer a (a.p 32 4)) (a.p 40 8) (a.p 56 8) = false → target s a (a.p 36 4) = .own o → o.kind = .data →
    pinnedVer a (a.p 36 4) = o.current → verOf o o.current = some v → v.bytes.wf → a.p 48 8 + a.p 56 8 ≤ v.size →
    (∀ g ∈ rangeGranules (a.p 48 8) (a.p 56 8), ∃ fr, frameOf o v g = some fr ∧ fr.tier = .near ∧ fr.lost = false) →
    ∃ t o' v', exec (.objCopy cid) s = .next t ∧ doneWith t cid (· = {}) ∧ objOf t (a.p 36 4) = some o' ∧
      verOf o' o.current = some v' ∧ v'.size = v.size ∧
      (∀ i, i < a.p 56 8 → Mem.read v'.bytes (a.p 48 8 + i) = Mem.read (pinnedBytes a (a.p 32 4) so) (a.p 40 8 + i)) ∧
      (∀ x, x < a.p 48 8 ∨ a.p 48 8 + a.p 56 8 ≤ x → Mem.read v'.bytes x = Mem.read v.bytes x) ∧
      otherObjectsKept s t (a.p 36 4) ∧ otherCommandsKept s t cid ∧ t.fns = s.fns)

/-- R91, R135, R165, R182: hints, object records and failed reads of host memory. -/
def Obligations.HintsAndHostErrors : Prop :=
  (∀ (cid : Nat) (a : Adm) (o : Obj) (s : State), running s cid 0x105 = some a → target s a (a.p 32 4) = .own o →
    o.kind.addressed = true →
    ∃ t o', exec (.objHint cid) s = .next t ∧ doneWith t cid (· = {}) ∧ objOf t (a.p 32 4) = some o' ∧
      o'.hint = BitVec.ofNat 8 (a.p 36 1) ∧ o'.versions = o.versions ∧ o'.frames = o.frames ∧ o'.base = o.base ∧
      otherObjectsKept s t (a.p 32 4) ∧ otherCommandsKept s t cid ∧ t.fns = s.fns) ∧
  (∀ (cid : Nat) (a : Adm) (o : Obj) (s : State), running s cid 0x106 = some a →
    (target s a (a.p 32 4) = .own o ∨ target s a (a.p 32 4) = .granted o) →
    exec (.objInfo cid) s = .next (finish s cid { data := objInfo s (a.p 32 4) o })) ∧
  (∀ (cid : Nat) (a : Adm) (s : State), running s cid 0x106 = some a → target s a (a.p 32 4) = .foreign →
    exec (.objInfo cid) s = .next (finish (violate s a.cmd.fn 1) cid { data := List.replicate 64 0#8 })) ∧
  (∀ (cid : Nat) (arrived : List Byte) (err : ReadError) (a : Adm) (s : State), findAdm s cid = some a → a.phase = .running →
    a.cmd.readsHost = true → a.cmd.opcode ≠ 0x102 →
    exec (.hostReadError cid arrived err) s =
      .next (finish (logUncorrectable s a.cmd.fn (readErrorBit err)) cid (.bare stInternal))) ∧
  (∀ (cid : Nat) (arrived : List Byte) (err : ReadError) (a : Adm) (o : Obj) (s : State), findAdm s cid = some a → a.phase = .running →
    a.cmd.opcode = 0x102 → target s a (a.p 32 4) = .own o → o.kind = .data → bit (a.p 36 1) 0 = false →
    a.p 40 8 + a.p 56 8 ≤ pinnedSize a (a.p 32 4) o → arrived.length < a.p 56 8 →
    a.p 40 8 + arrived.length < (a.p 40 8 / granule + 1) * granule →
    exec (.hostReadError cid arrived err) s =
      .next (finish (logUncorrectable s a.cmd.fn (readErrorBit err)) cid { status := stInternal })) ∧
  (∀ (f : Fn) (b : Nat) (s : State), b < 32 → (fnOf (logUncorrectable s f b) f).cfg.uncStatus.getLsbD b = true)

/-- R127, R138, R145, R313, R314, R358, R360: the commands that make indexes and tables. -/
def Obligations.IndexesAndTablesAreMade : Prop :=
  (∀ (cid oid : Nat) (a : Adm) (m : Mem × Nat) (s u : State), running s cid 0x200 = some a →
    m = emptyList (a.p 34 1 == 1) (a.p 32 2) (a.p 36 4) →
    createObj s a.cmd.fn (.listIndex (a.p 32 2) (a.p 34 1 == 1) (a.p 36 4)) (BitVec.ofNat 8 (a.p 40 1)) m.1 m.2 (ixFull m.1)
      (some cid) = some (u, oid) →
    ∃ t o, exec (.indexCreateList cid) s = .next t ∧ nextOid s a.cmd.fn = some oid ∧ objOf t oid = some o ∧
      o.kind = .listIndex (a.p 32 2) (a.p 34 1 == 1) (a.p 36 4) ∧ o.fn = a.cmd.fn ∧ o.current = 1 ∧
      verBytes o 1 = m.1 ∧ verSize o 1 = m.2 ∧ doneWith t cid (· = { value := BitVec.ofNat 32 oid, version := 1 }) ∧
      otherObjectsKept s t oid ∧ otherCommandsKept s t cid) ∧
  (∀ (cid oid : Nat) (a : Adm) (m : Mem × Nat) (s u : State), running s cid 0x201 = some a →
    m = emptyGraph (a.p 34 1 == 1) (a.p 32 2) (a.p 36 2) →
    createObj s a.cmd.fn (.graphIndex (a.p 32 2) (a.p 34 1 == 1) (a.p 36 2)) (BitVec.ofNat 8 (a.p 40 1)) m.1 m.2 (ixFull m.1)
      (some cid) = some (u, oid) →
    ∃ t o, exec (.indexCreateGraph cid) s = .next t ∧ nextOid s a.cmd.fn = some oid ∧ objOf t oid = some o ∧
      o.kind = .graphIndex (a.p 32 2) (a.p 34 1 == 1) (a.p 36 2) ∧ o.fn = a.cmd.fn ∧ o.current = 1 ∧
      verBytes o 1 = m.1 ∧ verSize o 1 = m.2 ∧ doneWith t cid (· = { value := BitVec.ofNat 32 oid, version := 1 }) ∧
      otherObjectsKept s t oid ∧ otherCommandsKept s t cid) ∧
  (∀ (cid oid : Nat) (a : Adm) (x : Tbl) (s u : State), running s cid 0x400 = some a →
    x = ⟨a.p 52 1, a.p 32 8, a.p 40 4, a.p 44 4, a.p 48 4, a.p 56 4⟩ →
    (a.p 56 4 = 0 ∨ ∃ g ms i, target s a (a.p 56 4) = .own g ∧ g.kind = .group ms i ∧ groupBound s a.cmd.fn (a.p 56 4) = false) →
    createObj s a.cmd.fn (.table x.fmt x.rows x.columns x.first x.cols x.group) 0 (Mem.ofBytes (x.header 1)) x.size
      (fun _ => false) (some cid) = some (u, oid) →
    ∃ t o, exec (.tableCreate cid) s = .next t ∧ objOf t oid = some o ∧ tblOf o = some x ∧ o.fn = a.cmd.fn ∧ o.current = 1 ∧
      verBytes o 1 = Mem.ofBytes (x.header 1) ∧ verSize o 1 = 64 + x.rows * x.rowBytes ∧
      doneWith t cid (· = { value := BitVec.ofNat 32 oid, version := 1 }) ∧ otherObjectsKept s t oid ∧
      otherCommandsKept s t cid) ∧
  (∀ (cid : Nat) (a : Adm) (g : Obj) (ms : List Nat) (i : Nat) (s : State), running s cid 0x400 = some a →
    a.p 56 4 ≠ 0 → target s a (a.p 56 4) = .own g → g.kind = .group ms i → groupBound s a.cmd.fn (a.p 56 4) = true →
    exec (.tableCreate cid) s = .next (finish s cid (.bare stInvalidParam)))

/-- R138-R140, R167, R328-R330, R383, R384: loads and compactions of the function's own index or table. -/
def Obligations.LoadsMakeVersions : Prop :=
  (∀ (c : Instr) (cid op : Nat) (host bs : List Byte) (a : Adm) (o : Obj) (img : Mem × Nat) (s u : State),
    ((c = .indexLoad cid host ∧ op = 0x202 ∧ o.isIndex = true ∧ buildRunning s (a.p 32 4) a.seq = false) ∨
      (c = .tableLoad cid host ∧ op = 0x401 ∧ o.isTable = true)) →
    running s cid op = some a → target s a (a.p 32 4) = .own o → o.building.any (·.cid == cid) = false → a.p 36 1 = 0 →
    loadSource s a host = .bytes bs → streamOf o o.next bs = some img → o.next < 0xFFFFFFFF →
    (∀ w ∈ o.versions, w.num < o.next) →
    placeBuild (chargeNear s a.cmd.fn bs.length) (a.p 32 4) (buildTag cid) img.2 (fullTest o img.1) (some cid) = some u →
    (bit (a.p 37 1) 0 = false → ∃ t, exec c s = .next t ∧
      doneWith t cid (fun r => r.status = stOk ∧ r.value = BitVec.ofNat 32 o.next) ∧
      addsVersion s t (a.p 32 4) o.next (withVersion o img.1 o.next) ∧ otherObjectsKept s t (a.p 32 4) ∧
      otherCommandsKept s t cid) ∧
    (bit (a.p 37 1) 0 = true → ∃ t o', exec c s = .next t ∧ objOf t (a.p 32 4) = some o' ∧
      o'.building = o.building ++ [⟨cid, a.seq, img.1, img.2, true⟩] ∧ o'.versions = o.versions ∧ o'.current = o.current ∧
      otherObjectsKept s t (a.p 32 4) ∧ otherCommandsKept s t cid)) ∧
  (∀ (c : Instr) (cid op : Nat) (host bs : List Byte) (a : Adm) (o : Obj) (s : State),
    ((c = .indexLoad cid host ∧ op = 0x202 ∧ o.isIndex = true ∧ buildRunning s (a.p 32 4) a.seq = false) ∨
      (c = .tableLoad cid host ∧ op = 0x401 ∧ o.isTable = true)) →
    running s cid op = some a → target s a (a.p 32 4) = .own o → o.building.any (·.cid == cid) = false → a.p 36 1 = 0 →
    loadSource s a host = .bytes bs → streamOf o o.next bs = none →
    ∃ t, exec c s = .next t ∧ doneWith t cid (· = .bare stInvalidParam) ∧ t.fns = s.fns ∧
      otherObjectsKept s t (a.p 32 4) ∧ otherCommandsKept s t cid) ∧
  (∀ (cid : Nat) (a : Adm) (o : Obj) (s u : State), running s cid 0x205 = some a → target s a (a.p 32 4) = .own o →
    o.isIndex = true → mutationTurn s a (a.p 32 4) = true → o.building.any (·.cid == cid) = false →
    buildRunning s (a.p 32 4) a.seq = false →
    rangeBad .any o (compactBase o a.seq) 0 (verSize o (compactBase o a.seq)) = false → o.next < 0xFFFFFFFF →
    (∀ w ∈ o.versions, w.num < o.next) → bit (a.p 36 1) 0 = false →
    placeBuild s (a.p 32 4) (buildTag cid) (compactImage (ixOf (verBytes o (compactBase o a.seq))) 0).2
      (fullTest o (compactImage (ixOf (verBytes o (compactBase o a.seq))) 0).1) (some cid) = some u →
    ∃ t, exec (.indexCompact cid) s = .next t ∧
      doneWith t cid (fun r => r.status = stOk ∧ r.value = BitVec.ofNat 32 o.next) ∧
      addsVersion s t (a.p 32 4) o.next
        (withVersion o (compactImage (ixOf (verBytes o (compactBase o a.seq))) 0).1 o.next) ∧
      otherObjectsKept s t (a.p 32 4) ∧ otherCommandsKept s t cid) ∧
  (∀ (cid : Nat) (host : List Byte) (a : Adm) (o : Obj) (s : State), running s cid 0x202 = some a →
    target s a (a.p 32 4) = .own o → o.isIndex = true → o.building.any (·.cid == cid) = false → a.p 36 1 ≠ 1 →
    buildRunning s (a.p 32 4) a.seq = true →
    exec (.indexLoad cid host) s = .next (finish s cid (.bare stBusyMode)))

/-- R139, R140, R166, R167, R324, R327, R379-R382, R386: mutations of the function's own index or table. -/
def Obligations.MutationsMakeVersions : Prop :=
  (∀ (cid : Nat) (a : Adm) (o so : Obj) (data : List Byte) (e : Edit) (s u : State) (n : Nat), running s cid 0x203 = some a →
    mutationTurn s a (a.p 32 4) = true → target s a (a.p 32 4) = .own o → o.isIndex = true →
    readsAs (target s a (a.p 36 4)) so → so.kind = .data → (∀ w ∈ o.versions, w.num < o.next) →
    a.p 40 8 + a.p 48 4 * recordBytes o true ≤ pinnedSize a (a.p 36 4) so →
    rangeBad .any so (pinnedVer a (a.p 36 4)) (a.p 40 8) (a.p 48 4 * recordBytes o true) = false → centroidsFail .any o true = false →
    data = (pinnedBytes a (a.p 36 4) so).readBytes (a.p 40 8) (a.p 48 4 * recordBytes o true) →
    (records (recordBytes o true) (a.p 48 4) data).all (fun r => zeroIn r 12 16) = true →
    (editOf o o.tip).upserts (records (recordBytes o true) (a.p 48 4) data) = some e → editFails .any o o.tip e = false →
    makeVersion (chargeNear s a.cmd.fn (a.p 48 4 * recordBytes o true)) (a.p 32 4) o.tip (withVersion o e.mem o.next) e.size
      ((0 :: e.granules).eraseDups) (fullTest o e.mem) (some cid) = some (u, n) →
    ∃ t b, exec (.itemUpsert cid) s = .next t ∧ doneWith t cid (· = {
        count := BitVec.ofNat 32 (a.p 48 4), version := BitVec.ofNat 32 (pinnedVer a (a.p 32 4)), value := BitVec.ofNat 32 o.next }) ∧
      findAdm t cid = some b ∧ b.switch = some o.next ∧ addsVersion s t (a.p 32 4) o.next (withVersion o e.mem o.next) ∧
      otherObjectsKept s t (a.p 32 4) ∧ otherCommandsKept s t cid ∧ t.fns = s.fns) ∧
  (∀ (cid : Nat) (a : Adm) (o so : Obj) (e : Edit × Nat) (s u : State) (n : Nat), running s cid 0x204 = some a →
    mutationTurn s a (a.p 32 4) = true → target s a (a.p 32 4) = .own o → o.isIndex = true →
    readsAs (target s a (a.p 36 4)) so → so.kind = .data → (∀ w ∈ o.versions, w.num < o.next) →
    a.p 40 8 + a.p 48 4 * 8 ≤ pinnedSize a (a.p 36 4) so →
    rangeBad .any so (pinnedVer a (a.p 36 4)) (a.p 40 8) (a.p 48 4 * 8) = false →
    e = (editOf o o.tip).deletes (elems 8 (a.p 48 4) ((pinnedBytes a (a.p 36 4) so).readBytes (a.p 40 8) (a.p 48 4 * 8))) →
    editFails .any o o.tip e.1 = false →
    makeVersion (chargeNear s a.cmd.fn (a.p 48 4 * 8)) (a.p 32 4) o.tip (withVersion o e.1.mem o.next) e.1.size
      ((0 :: e.1.granules).eraseDups) (fullTest o e.1.mem) (some cid) = some (u, n) →
    ∃ t b, exec (.itemDelete cid) s = .next t ∧ doneWith t cid (· = {
        count := BitVec.ofNat 32 e.2, version := BitVec.ofNat 32 (pinnedVer a (a.p 32 4)), value := BitVec.ofNat 32 o.next }) ∧
      findAdm t cid = some b ∧ b.switch = some o.next ∧ addsVersion s t (a.p 32 4) o.next (withVersion o e.1.mem o.next) ∧
      otherObjectsKept s t (a.p 32 4) ∧ otherCommandsKept s t cid ∧ t.fns = s.fns) ∧
  (∀ (cid : Nat) (a : Adm) (o so : Obj) (x : Tbl) (gs : List (Nat × List Word)) (data : List Byte) (e : Edit) (s u : State) (n : Nat),
    running s cid 0x404 = some a → mutationTurn s a (a.p 32 4) = true → target s a (a.p 32 4) = .own o → tblOf o = some x →
    readsAs (target s a (a.p 36 4)) so → so.kind = .data → (∀ w ∈ o.versions, w.num < o.next) →
    a.p 40 4 * x.gradBytes ≤ pinnedSize a (a.p 36 4) so → isFinite32 (BitVec.ofNat 32 (a.p 44 4)) = true →
    rangeBad .any so (pinnedVer a (a.p 36 4)) 0 (a.p 40 4 * x.gradBytes) = false →
    data = (pinnedBytes a (a.p 36 4) so).readBytes 0 (a.p 40 4 * x.gradBytes) → gs = x.grads data (a.p 40 4) →
    gs.all (fun g => decide (g.1 < x.rows) && g.2.all isFinite32) = true →
    e = (editOf o o.tip).updateRows x data (a.p 40 4) (BitVec.ofNat 32 (a.p 44 4)) (a.p 48 1 == 1) →
    (sumGrads x.cols gs).all (fun g => !rangeBad .any o o.tip (x.rowOff g.1) x.rowBytes) = true → editFails .any o o.tip e = false →
    makeVersion (chargeNear s a.cmd.fn (2 * (sumGrads x.cols gs).length * x.rowBytes)) (a.p 32 4) o.tip
      (withVersion o e.mem o.next) e.size ((0 :: e.granules).eraseDups) (fullTest o e.mem) (some cid) = some (u, n) →
    ∃ t b, exec (.rowUpdate cid) s = .next t ∧ doneWith t cid (· = {
        count := BitVec.ofNat 32 (sumGrads x.cols gs).length, version := BitVec.ofNat 32 (pinnedVer a (a.p 32 4))
        value := BitVec.ofNat 32 o.next }) ∧
      findAdm t cid = some b ∧ b.switch = some o.next ∧ addsVersion s t (a.p 32 4) o.next (withVersion o e.mem o.next) ∧
      t.reeds.updates = satAdd s.reeds.updates 1 ∧ t.reeds.rows = satAdd s.reeds.rows (sumGrads x.cols gs).length ∧
      otherObjectsKept s t (a.p 32 4) ∧ otherCommandsKept s t cid ∧ t.fns = s.fns)

/-- R131, R138, R141-R143, R247, R317, R318: the commands that read an index. -/
def Obligations.SearchesAnswer : Prop :=
  (∀ (cid : Nat) (a : Adm) (s : State), running s cid 0x206 = some a →
    (searchTargets s a).all.any (·.isMissing) = false → searchBad a (searchTargets s a) false = false →
    largeFits s a.cmd.selectLarge = true → searchWaits s cid = false → widens a (searchTargets s a) false = false →
    ∃ t, exec (.search cid) s = .next t ∧
      doneWith t cid (· = searchResult (searchVersion a (searchTargets s a)) (runQuery a (searchTargets s a) false 0)) ∧
      otherCommandsKept s t cid ∧ onlyReports s t) ∧
  (∀ (cid : Nat) (a : Adm) (s : State), running s cid 0x207 = some a →
    (searchTargets s a).all.any (·.isMissing) = false → searchBad a (searchTargets s a) true = false →
    largeFits s a.cmd.selectLarge = true → searchWaits s cid = false → widens a (searchTargets s a) true = false →
    ∃ t, exec (.searchBatch cid) s = .next t ∧
      doneWith t cid (· = batchResult (searchVersion a (searchTargets s a)) (a.p 40 4)
        ((List.range (a.p 96 4)).map (runQuery a (searchTargets s a) true))) ∧
      otherCommandsKept s t cid ∧ onlyReports s t) ∧
  (∀ (c : Instr) (cid op : Nat) (batch : Bool) (a : Adm) (s : State),
    ((c = .search cid ∧ op = 0x206 ∧ batch = false) ∨ (c = .searchBatch cid ∧ op = 0x207 ∧ batch = true)) →
    running s cid op = some a → (searchTargets s a).all.any (·.isMissing) = false →
    searchBad a (searchTargets s a) batch = false → largeFits s a.cmd.selectLarge = true → searchWaits s cid = false →
    widens a (searchTargets s a) batch = true →
    ∃ t b, exec c s = .next t ∧ findAdm t cid = some b ∧ b.phase = .running ∧ a.work.length < b.work.length ∧
      inWindow t cid = true ∧ otherCommandsKept s t cid ∧ t = { s with sched := t.sched, looms := t.looms }) ∧
  (∀ (j : SearchOn) (q : Query) (p : SearchPar) (accept : Bool) (before : List Nat) (e : Entry), j.ix.graph = false →
    p.noRerank = true → (searchQuery j q p accept before).status = stOk →
    ((searchQuery j q p accept before).entries.length = p.k ∧
     (e ∈ (searchQuery j q p accept before).entries → ∃ l i, i < j.ix.count l ∧ e.ordinal = listOrdinal l i ∧
       e.item = recItem j.ix.mem (j.ix.recOff l i) ∧ recDead j.ix.mem (j.ix.recOff l i) = false ∧
       j.flt.passes (recRow j.ix.mem (j.ix.recOff l i)) = true ∧ isNan e.score = false))) ∧
  (∀ (cid : Nat) (a : Adm) (o so : Obj) (fs : List (Target × Nat)) (j : SearchOn) (os : List Nat) (s : State),
    running s cid 0x208 = some a → readsAs (target s a (a.p 32 4)) o → o.isIndex = true →
    readsAs (target s a (a.p 64 4)) so → so.kind = .data → fs = filterTargets s a 44 (a.p 42 1) →
    fs.all (fun f => f.1.obj?.any Obj.isBitmap) = true → a.p 72 8 + 8 * a.p 80 4 ≤ pinnedSize a (a.p 64 4) so →
    rangeBad .any so (pinnedVer a (a.p 64 4)) (a.p 72 8) (8 * a.p 80 4) = false →
    os = elems 8 (a.p 80 4) ((pinnedBytes a (a.p 64 4) so).readBytes (a.p 72 8) (8 * a.p 80 4)) →
    j = { obj := o, ver := pinnedVer a (a.p 32 4), ix := ixOf (pinnedBytes a (a.p 32 4) o), flt := filterOf a (a.p 40 2) fs,
          bitFails := filterFails a fs } → os.any (ordinalFails .any j) = false →
    exec (.filterEval cid) s = .next (finish s cid {
      version := BitVec.ofNat 32 (pinnedVer a (a.p 32 4)), data := packBools (os.map (ordinalPasses j.ix j.flt)) })) ∧
  (∀ (cid : Nat) (a : Adm) (o : Obj) (s : State), running s cid 0x209 = some a → readsAs (target s a (a.p 32 4)) o →
    (o.isIndex = true ∨ o.isTable = true) → pinnedVer a (a.p 32 4) = o.current →
    exec (.versionInfo cid) s = .next (finish s cid { data := lay 32 [(0, 4, o.current), (4, 4, o.versions.length),
      (8, 8, pinCount s (a.p 32 4) o.current),
      (16, 8, (o.versions.filter (fun v => decide (v.num < o.current))).foldl (fun n v => n + pinCount s (a.p 32 4) v.num) 0)] }))

/-- R36, R144, R338-R345: selections, and what their cores give. -/
def Obligations.SelectionsAnswer : Prop :=
  (∀ (c : Instr) (cid op : Nat) (a : Adm) (o : Obj) (s : State),
    ((c = .selectTopk cid ∧ op = 0x300) ∨ (c = .selectUnique cid ∧ op = 0x301) ∨ (c = .selectArgmax cid ∧ op = 0x302)) →
    running s cid op = some a → readsAs (target s a (a.p 32 4)) o → o.kind = .data →
    a.p 40 8 + a.p 48 4 * selectWidth op ≤ pinnedSize a (a.p 32 4) o → largeFits s a.cmd.selectLarge = true →
    reedsIdle s a.cmd.fn (a.p 48 4) = true → rangeBad .any o (pinnedVer a (a.p 32 4)) (a.p 40 8) (a.p 48 4 * selectWidth op) = false →
    ∃ t, exec c s = .next t ∧ otherCommandsKept s t cid ∧ onlyReports s t ∧ t.fns = s.fns ∧
      doneWith t cid (· = selectCore (op - 0x300) (op == 0x300 && a.p 36 1 == 1) (op == 0x300 && bit (a.p 37 1) 0) (a.p 52 4)
        ((List.range (a.p 48 4)).map (fun i => (i, (pinnedBytes a (a.p 32 4) o).readBytes (a.p 40 8 + selectWidth op * i) (selectWidth op)))))) ∧
  (∀ (sim : Bool) (k : Nat) (es : List Entry), (∀ e ∈ es, isNan e.score = false) →
    (topK sim false k es).length = min k es.length ∧
    (topK sim false k es).Pairwise (fun x y => rankLt (y.rank sim) (x.rank sim) = false) ∧
    (∀ x ∈ topK sim false k es, x ∈ es) ∧
    (k ≤ es.length → ∀ y ∈ es, y ∉ topK sim false k es → ∀ x ∈ topK sim false k es, rankLt (y.rank sim) (x.rank sim) = false)) ∧
  (∀ (k : Nat) (recs : List (Nat × List Byte)) (sim dedup : Bool), ∃ best : List Nat,
    (selectCore 1 sim dedup k recs).data = best.flatMap (fun v => toLE 8 v ++ toLE 8 ((recs.map (fun r => leNat r.2)).countP (· == v))) ∧
    best.Pairwise (· < ·) ∧ best.length ≤ k ∧ (∀ v ∈ best, v ∈ recs.map (fun r => leNat r.2)) ∧
    (best.length < k → ∀ v ∈ recs.map (fun r => leNat r.2), v ∈ best)) ∧
  (∀ (recs : List (Nat × List Byte)) (sim dedup : Bool) (k : Nat), recs.all (fun r => isNan (BitVec.ofNat 32 (leNat r.2))) = true →
    selectCore 2 sim dedup k recs = { status := stShort, invalid := BitVec.ofNat 32 recs.length })

/-- R145, R363, R364, R366-R375: the commands that read a table. -/
def Obligations.TablesServeRows : Prop :=
  (∀ (cid : Nat) (a : Adm) (o ro : Obj) (x : Tbl) (rs : List Nat) (s : State), running s cid 0x402 = some a →
    readsAs (target s a (a.p 32 4)) o → tblOf o = some x → readsAs (target s a (a.p 40 4)) ro → ro.kind = .data →
    8 * a.p 44 4 ≤ pinnedSize a (a.p 40 4) ro → a.p 48 4 = 0 →
    rs = elems 8 (a.p 44 4) ((pinnedBytes a (a.p 40 4) ro).readBytes 0 (8 * a.p 44 4)) → rs.all (fun r => decide (r < x.rows)) = true →
    a.p 44 4 * x.rowBytes ≤ a.cmd.resultLen → a.cmd.resultAddr ≠ 0 →
    rangeBad .any ro (pinnedVer a (a.p 40 4)) 0 (8 * a.p 44 4) = false →
    rs.all (fun r => !rangeBad .any o (pinnedVer a (a.p 32 4)) (x.rowOff r) x.rowBytes) = true →
    ∃ t, exec (.gather cid) s = .next t ∧ otherCommandsKept s t cid ∧ onlyReports s t ∧ t.fns = s.fns ∧
      doneWith t cid (· = {
        count := BitVec.ofNat 32 (a.p 44 4), version := BitVec.ofNat 32 (pinnedVer a (a.p 32 4))
        data := rs.flatMap (fun r => (pinnedBytes a (a.p 32 4) o).readBytes (x.rowOff r) x.rowBytes) })) ∧
  (∀ (cid : Nat) (a : Adm) (o ro : Obj) (x : Tbl) (rs : List Nat) (s : State), running s cid 0x405 = some a →
    target s a (a.p 32 4) = .own o → tblOf o = some x → readsAs (target s a (a.p 36 4)) ro → ro.kind = .data →
    8 * a.p 40 4 ≤ pinnedSize a (a.p 36 4) ro →
    rs = elems 8 (a.p 40 4) ((pinnedBytes a (a.p 36 4) ro).readBytes 0 (8 * a.p 40 4)) → rs.all (fun r => decide (r < x.rows)) = true →
    rangeBad .any ro (pinnedVer a (a.p 36 4)) 0 (8 * a.p 40 4) = false →
    hotFits s a.cmd.fn (a.p 32 4) o (hotSet s a.cmd.fn rs (a.p 44 1)) = true →
    ∃ t, exec (.hotRowsSet cid) s = .next t ∧ doneWith t cid (· = {}) ∧
      objOf t (a.p 32 4) = some { o with hotRows := hotSet s a.cmd.fn rs (a.p 44 1) } ∧ otherObjectsKept s t (a.p 32 4) ∧
      otherCommandsKept s t cid ∧ t.fns = s.fns) ∧
  (∀ (cid : Nat) (a : Adm) (t0 : RankTargets) (r : RankOn) (bs : List Byte) (sq : Nat × Target) (mo o : Obj) (x : Tbl) (s : State),
    running s cid 0x403 = some a → t0 = rankTargets s a → r = rankOn a t0 → bs = ctxBytes r.m a t0.ctx →
    sq = seqTarget s a.cmd.fn bs (t0.ctx.any (·.isForeign)) → a.p 40 4 = 0 → readsAs t0.model mo → readsAs t0.table o →
    tblOf o = some x → t0.all.any (·.isMissing) = false → t0.all.any (·.isForeign) = false →
    (mdlSeq r.m = true → t0.ctx.isSome = true → sq.2.isMissing = false ∧ sq.2.isForeign = false) →
    rankBad a t0 r bs sq.2 = false → largeFits s a.cmd.selectLarge = true → rankBadRead .any a t0 r sq.2 = false →
    seqOwed s a r.m sq.2 (mdlSeq r.m && t0.ctx.isSome) = false → rankColl s cid = none →
    ∃ t, exec (.rank cid) s = .next t ∧ otherCommandsKept s t cid ∧ t.space = s.space ∧ t.fns = s.fns ∧ t.sent = s.sent ∧
      doneWith t cid (fun res =>
        let scored := r.cands.map (fun e => { e with
          score := rankScore r.m (ctxVectors r.m bs).1 (rankState r.m bs sq.2) [layerChains r.m (layerOf r.m 0) (r.row a e.item)] })
        let best := topK true true (a.p 52 4) (scored.filter (fun e => !isNan e.score))
        res.data = entryBytes best ∧ res.count = BitVec.ofNat 32 best.length ∧ res.status = shortOr best.length (a.p 52 4) ∧
        res.version = BitVec.ofNat 32 (pinnedVer a (a.p 36 4)) ∧ res.rflags = 0))

/-- R274, R275, R279-R281, R290: instructions whose whole effect is one general register; `setReg` discards a write to g0. -/
def Obligations.RegisterInstructions : Prop :=
  (∀ (s : State) (c : ShCtx), atInstruction .alu s c → ∃ t, exec (.alu c.sh) s = .next t ∧
    shuttleOnly s t c (c.x.setReg (fRd c.w) (aluResult (fFn c.w) c.ga c.gb)) (c.x.pc + 4)) ∧
  (∀ (s : State) (c : ShCtx), atInstruction .fpu s c → ∃ t, exec (.fpu c.sh) s = .next t ∧
    shuttleOnly s t c (c.x.setReg (fRd c.w) (fpuResult (fFn c.w) c.ga c.gb)) (c.x.pc + 4)) ∧
  (∀ (s : State) (c : ShCtx), atInstruction .addi s c → ∃ t, exec (.addi c.sh) s = .next t ∧
    shuttleOnly s t c (c.x.setReg (fRd c.w) (c.ga + BitVec.ofInt 64 (fImmS c.w))) (c.x.pc + 4)) ∧
  (∀ (s : State) (c : ShCtx), atInstruction .andi s c → ∃ t, exec (.andi c.sh) s = .next t ∧
    shuttleOnly s t c (c.x.setReg (fRd c.w) (c.ga &&& BitVec.ofNat 64 (fImm c.w))) (c.x.pc + 4)) ∧
  (∀ (s : State) (c : ShCtx), atInstruction .ori s c → ∃ t, exec (.ori c.sh) s = .next t ∧
    shuttleOnly s t c (c.x.setReg (fRd c.w) (c.ga ||| BitVec.ofNat 64 (fImm c.w))) (c.x.pc + 4)) ∧
  (∀ (s : State) (c : ShCtx), atInstruction .xori s c → ∃ t, exec (.xori c.sh) s = .next t ∧
    shuttleOnly s t c (c.x.setReg (fRd c.w) (c.ga ^^^ BitVec.ofNat 64 (fImm c.w))) (c.x.pc + 4)) ∧
  (∀ (s : State) (c : ShCtx), atInstruction .shi s c → ∃ t, exec (.shi c.sh) s = .next t ∧
    shuttleOnly s t c (c.x.setReg (fRd c.w) (match bits c.w 13 12 with
      | 0 => c.ga <<< bits c.w 5 0
      | 1 => c.ga >>> bits c.w 5 0
      | _ => c.ga.sshiftRight (bits c.w 5 0))) (c.x.pc + 4)) ∧
  (∀ (s : State) (c : ShCtx), atInstruction .slti s c → ∃ t, exec (.slti c.sh) s = .next t ∧
    shuttleOnly s t c (c.x.setReg (fRd c.w) (if c.ga.toInt < fImmS c.w then 1 else 0)) (c.x.pc + 4)) ∧
  (∀ (s : State) (c : ShCtx), atInstruction .lui s c → ∃ t, exec (.lui c.sh) s = .next t ∧
    shuttleOnly s t c (c.x.setReg (fRd c.w) (BitVec.ofInt 64 (signed 20 c.w * 2 ^ 14))) (c.x.pc + 4)) ∧
  (∀ (s : State) (c : ShCtx), atInstruction .gets s c → ∃ t, exec (.gets c.sh) s = .next t ∧
    shuttleOnly s t c (c.x.setReg (fRd c.w) (specialReg s c (fImm c.w))) (c.x.pc + 4)) ∧
  (∀ (s : State) (c : ShCtx), atInstruction .ktest s c → ∃ t, exec (.ktest c.sh) s = .next t ∧
    shuttleOnly s t c (c.x.setReg (fRd c.w)
      (((knotOf s (c.ga.toNat % 65536)).filter (fun x => x.fn == c.i.fn)).elim 0 (fun x => x.counter.setWidth 64))) (c.x.pc + 4)) ∧
  (∀ (x : Shuttle) (v : BitVec 64) (r : Nat), (x.setReg 0 v).reg r = x.reg r ∧ x.reg 0 = 0 ∧ (r ≠ 0 → (x.setReg r v).reg r = v)) ∧
  (∀ a : BitVec 64, aluResult 10 a 0 = BitVec.allOnes 64 ∧ aluResult 11 a 0 = a ∧ aluResult 12 a 0 = BitVec.allOnes 64 ∧
    aluResult 13 a 0 = a ∧ aluResult 12 (BitVec.intMin 64) (-1) = BitVec.intMin 64 ∧ aluResult 13 (BitVec.intMin 64) (-1) = 0)

/-- R279, R280, R282, R283, R286, R288: control flow within the code section, FENCE, and VOP. -/
def Obligations.ControlInstructions : Prop :=
  (∀ (i : Instr) (o : ShOp) (s : State) (c : ShCtx),
    ((i = .beq c.sh ∧ o = .beq) ∨ (i = .bne c.sh ∧ o = .bne) ∨ (i = .blt c.sh ∧ o = .blt) ∨ (i = .bge c.sh ∧ o = .bge) ∨
      (i = .bltu c.sh ∧ o = .bltu) ∨ (i = .bgeu c.sh ∧ o = .bgeu)) → atInstruction o s c →
    (branchTaken o c.gd c.ga = false → ∃ t, exec i s = .next t ∧ shuttleOnly s t c c.x (c.x.pc + 4)) ∧
    (∀ pc : Nat, branchTaken o c.gd c.ga = true → (pc : Int) = c.x.pc.toNat + 4 * fImmS c.w → pc % 4 = 0 → pc < imgCodeLen c.m →
      ∃ t, exec i s = .next t ∧ shuttleOnly s t c c.x (BitVec.ofNat 32 pc))) ∧
  (∀ (a b : BitVec 64), (branchTaken .beq a b = true ↔ a = b) ∧ (branchTaken .bne a b = true ↔ a ≠ b) ∧
    (branchTaken .blt a b = true ↔ a.toInt < b.toInt) ∧ (branchTaken .bge a b = true ↔ b.toInt ≤ a.toInt) ∧
    (branchTaken .bltu a b = true ↔ a.toNat < b.toNat) ∧ (branchTaken .bgeu a b = true ↔ b.toNat ≤ a.toNat)) ∧
  (∀ (pc : Nat) (s : State) (c : ShCtx), atInstruction .jal s c → (pc : Int) = c.x.pc.toNat + 4 * signed 26 c.w → pc % 4 = 0 →
    pc < imgCodeLen c.m → ∃ t, exec (.jal c.sh) s = .next t ∧
      shuttleOnly s t c (c.x.setReg 63 (BitVec.ofNat 64 (c.x.pc.toNat + 4))) (BitVec.ofNat 32 pc)) ∧
  (∀ (s : State) (c : ShCtx), atInstruction .jalr s c → (c.ga + BitVec.ofInt 64 (fImmS c.w)).toNat % 4 = 0 →
    (c.ga + BitVec.ofInt 64 (fImmS c.w)).toNat < imgCodeLen c.m → ∃ t, exec (.jalr c.sh) s = .next t ∧
      shuttleOnly s t c (c.x.setReg (fRd c.w) (BitVec.ofNat 64 (c.x.pc.toNat + 4)))
        (BitVec.ofNat 32 (c.ga + BitVec.ofInt 64 (fImmS c.w)).toNat)) ∧
  (∀ (s : State) (c : ShCtx), atInstruction .fence s c → c.x.pending = [] ∧ ∃ t, exec (.fence c.sh) s = .next t ∧
    shuttleOnly s t c c.x (c.x.pc + 4)) ∧
  (∀ (s : State) (c : ShCtx), atInstruction .vop s c → ∃ t, exec (.vop c.sh) s = .next t ∧
    shuttleOnly s t c (c.x.setVec (fVd c.w) (vopResult (fElt c.w) (fVfn c.w) c.va c.vb c.vd c.gb)) (c.x.pc + 4))

/-- R210, R276-R278, R280, R286, R287: accesses that are aligned, with fewer than eight loads outstanding, and readable; a load that a
channel holds keeps its place among the outstanding ones. -/
def Obligations.LoadsAndStores : Prop :=
  (∀ (i : Instr) (o : ShOp) (n : Nat) (sx : Bool) (s : State) (c : ShCtx),
    ((i = .ld1 c.sh ∧ o = .ld1 ∧ n = 1 ∧ sx = false) ∨ (i = .ld2 c.sh ∧ o = .ld2 ∧ n = 2 ∧ sx = false) ∨
      (i = .ld4 c.sh ∧ o = .ld4 ∧ n = 4 ∧ sx = false) ∨ (i = .ld8 c.sh ∧ o = .ld8 ∧ n = 8 ∧ sx = false) ∨
      (i = .lds1 c.sh ∧ o = .lds1 ∧ n = 1 ∧ sx = true) ∨ (i = .lds2 c.sh ∧ o = .lds2 ∧ n = 2 ∧ sx = true) ∨
      (i = .lds4 c.sh ∧ o = .lds4 ∧ n = 4 ∧ sx = true)) → atInstruction o s c → c.addr % n = 0 → c.x.pending.length < 8 →
    progBad .any s c.i c.addr n = false → (progRead s c.i c.loom c.addr n).2 = false →
    (shHeld s c.i c.addr = none → ∃ t p, exec i s = .next t ∧ loadOnly s t c { c.x with pending := c.x.pending ++ [p] } (c.x.pc + 4) ∧
      p.vector = false ∧ p.held = false ∧ p.reg = fRd c.w ∧ p.addr = c.addr ∧ p.value.setWidth 64 =
        (if sx then BitVec.ofInt 64 (signed (8 * n) (leNat (progRead s c.i c.loom c.addr n).1))
         else BitVec.ofNat 64 (leNat (progRead s c.i c.loom c.addr n).1))) ∧
    (∀ ch oid off ver, shHeld s c.i c.addr = some (ch, oid, off, ver) → ∃ t p, exec i s = .next t ∧
      shuttleAt s t c { c.x with pending := c.x.pending ++ [p] } (c.x.pc + 4) ∧ p.held = true ∧ p.reg = fRd c.w ∧ p.addr = c.addr ∧
      metersOnly s t ∧ t = { s with prog := t.prog, draught := t.draught, stk := t.stk } ∧
      (∀ k, k ≠ ch → chanOf t k = chanOf s k))) ∧
  (∀ (s : State) (c : ShCtx), atInstruction .vld s c → c.addr % 64 = 0 → c.x.pending.length < 8 →
    progBad .any s c.i c.addr 64 = false → (progRead s c.i c.loom c.addr 64).2 = false → shHeld s c.i c.addr = none →
    ∃ t, exec (.vld c.sh) s = .next t ∧ loadOnly s t c { c.x with pending := c.x.pending ++
      [{ vector := true, reg := fVd c.w, value := BitVec.ofNat 512 (leNat (progRead s c.i c.loom c.addr 64).1), addr := c.addr, pc := c.x.pc }] }
      (c.x.pc + 4)) ∧
  (∀ (i : Instr) (o : ShOp) (n v off : Nat) (s : State) (c : ShCtx),
    ((i = .st1 c.sh ∧ o = .st1 ∧ n = 1 ∧ v = c.gd.toNat) ∨ (i = .st2 c.sh ∧ o = .st2 ∧ n = 2 ∧ v = c.gd.toNat) ∨
      (i = .st4 c.sh ∧ o = .st4 ∧ n = 4 ∧ v = c.gd.toNat) ∨ (i = .st8 c.sh ∧ o = .st8 ∧ n = 8 ∧ v = c.gd.toNat) ∨
      (i = .vst c.sh ∧ o = .vst ∧ n = 64 ∧ v = c.vd.toNat)) → atInstruction o s c → c.addr % n = 0 →
    shAddr c.addr = .weave off → inRegion c.i c.loom off n = true → (loomOf s c.loom).ws.wf →
    ∃ t, exec i s = .next t ∧ shuttleAt s t c c.x (c.x.pc + 4) ∧ metersOnly s t ∧
      (∀ j, j < n → Mem.read (loomOf t c.loom).ws (off + j) = BitVec.ofNat 8 (v / 256 ^ j)) ∧
      (∀ a, a < off ∨ off + n ≤ a → Mem.read (loomOf t c.loom).ws a = Mem.read (loomOf s c.loom).ws a) ∧
      (∀ l, l ≠ c.loom → loomOf t l = loomOf s l) ∧ t.prog.knots = s.prog.knots ∧
      t = { s with prog := t.prog, draught := t.draught, looms := t.looms }) ∧
  (∀ (i : Instr) (o : ShOp) (n v oid off : Nat) (obj : Obj) (ver : Version) (fr : Frame) (s : State) (c : ShCtx),
    ((i = .st1 c.sh ∧ o = .st1 ∧ n = 1 ∧ v = c.gd.toNat) ∨ (i = .st2 c.sh ∧ o = .st2 ∧ n = 2 ∧ v = c.gd.toNat) ∨
      (i = .st4 c.sh ∧ o = .st4 ∧ n = 4 ∧ v = c.gd.toNat) ∨ (i = .st8 c.sh ∧ o = .st8 ∧ n = 8 ∧ v = c.gd.toNat) ∨
      (i = .vst c.sh ∧ o = .vst ∧ n = 64 ∧ v = c.vd.toNat)) → atInstruction o s c → c.addr % n = 0 →
    shAddr c.addr = .space c.addr → resolve s c.i.fn c.addr = .bytes oid off → off % n = 0 → objOf s oid = some obj → obj.kind = .data →
    verOf obj obj.current = some ver → off + n ≤ ver.size → frameOf obj ver (off / granule) = some fr → fr.tier = .near →
    shHeld s c.i c.addr = none → ver.bytes.wf →
    ∃ t obj' ver', exec i s = .next t ∧ shuttleAt s t c c.x (c.x.pc + 4) ∧ metersOnly s t ∧ objOf t oid = some obj' ∧
      verOf obj' obj.current = some ver' ∧
      (∀ j, j < n → Mem.read ver'.bytes (off + j) = BitVec.ofNat 8 (v / 256 ^ j)) ∧
      (∀ a, a < off ∨ off + n ≤ a → Mem.read ver'.bytes a = Mem.read ver.bytes a) ∧ otherObjectsKept s t oid ∧
      t.prog.knots = s.prog.knots ∧ t = { s with prog := t.prog, draught := t.draught, space := t.space }) ∧
  (∀ (off : Nat) (s : State) (c : ShCtx), atInstruction .amo s c → c.ga.toNat % 8 = 0 → c.x.pending.length < 8 →
    shAddr c.ga.toNat = .weave off → inRegion c.i c.loom off 8 = true → (loomOf s c.loom).ws.wf →
    ∃ t, exec (.amo c.sh) s = .next t ∧ metersOnly s t ∧
      shuttleAt s t c { c.x with pending := c.x.pending ++
        [{ vector := false, reg := fRd c.w, value := BitVec.ofNat 512 (Mem.nat (loomOf s c.loom).ws off 8), addr := c.ga.toNat, pc := c.x.pc }] }
        (c.x.pc + 4) ∧
      Mem.nat (loomOf t c.loom).ws off 8 =
        (amoValue (fFn c.w) (BitVec.ofNat 64 (Mem.nat (loomOf s c.loom).ws off 8)) c.gb c.gd).toNat ∧
      (∀ a, a < off ∨ off + 8 ≤ a → Mem.read (loomOf t c.loom).ws a = Mem.read (loomOf s c.loom).ws a) ∧
      t = { s with prog := t.prog, draught := t.draught, looms := t.looms })

/-- R272, R273, R284-R286, R288, R290, R291, R301, R303: knots, queues and the ends of shuttles. -/
def Obligations.ShuttlesAndKnots : Prop :=
  (∀ (k : Nat) (x : Knot) (s : State) (c : ShCtx), atInstruction .karr s c → k = c.ga.toNat % 65536 → knotOf s k = some x →
    x.fn = c.i.fn → x.counter.toNat + fImm c.w < x.target.toNat →
    ∃ t, exec (.karr c.sh) s = .next t ∧ shuttleAt s t c c.x (c.x.pc + 4) ∧ metersOnly s t ∧
      knotOf t k = some { x with counter := x.counter + BitVec.ofNat 32 (fImm c.w) } ∧ (∀ j, j ≠ k → knotOf t j = knotOf s j) ∧
      t = { s with prog := t.prog, draught := t.draught }) ∧
  (∀ (k : Nat) (x : Knot) (s : State) (c : ShCtx), atInstruction .kwait s c → k = c.ga.toNat % 65536 → knotOf s k = some x →
    x.fn = c.i.fn →
    (x.satisfied = true → ∃ t, exec (.kwait c.sh) s = .next t ∧ shuttleOnly s t c (c.x.setReg (fRd c.w) 0) (c.x.pc + 4)) ∧
    (x.satisfied = false → ∃ t, exec (.kwait c.sh) s = .next t ∧
      shuttleOf t c.sh = { c.x with pc := c.x.pc + 4, state := .waitKnot k, waitReg := fRd c.w } ∧
      t = { s with prog := t.prog, draught := t.draught } ∧ t.prog.knots = s.prog.knots ∧ metersOnly s t)) ∧
  (∀ (k : Nat) (x : Knot) (s : State) (c : ShCtx), atInstruction .kset s c → k = c.ga.toNat % 65536 → knotOf s k = some x →
    x.fn = c.i.fn → 0 < (c.gb.setWidth 32).toNat →
    ∃ t, exec (.kset c.sh) s = .next t ∧ shuttleAt s t c c.x (c.x.pc + 4) ∧ startsOnly s t ∧
      knotOf t k = some { x with counter := 0, target := c.gb.setWidth 32 } ∧ (∀ j, j ≠ k → knotOf t j = knotOf s j) ∧
      t = { s with prog := t.prog, draught := t.draught }) ∧
  (∀ (s : State) (c : ShCtx), atInstruction .issue s c → fVfn c.w = 0 → (loomOf s c.loom).dq.length < 16 →
    ∃ t d, exec (.issue c.sh) s = .next t ∧ shuttleAt s t c (c.x.setReg (fRd c.w) 0) (c.x.pc + 4) ∧ metersOnly s t ∧
      queuedBehind s t c.loom d ∧ d.desc = toLE 64 c.vb.toNat ∧ d.fn = c.i.fn ∧ d.inst = c.no ∧ d.task = none ∧ d.bad = false ∧
      t = { s with prog := t.prog, draught := t.draught, looms := t.looms, flash := t.flash, fns := t.fns } ∧
      (headAtWork s c.loom → (loomOf t c.loom).dq = (loomOf s c.loom).dq ++ [d] ∧
        t = { s with prog := t.prog, draught := t.draught, looms := t.looms })) ∧
  (∀ (r : Nat) (s : State) (c : ShCtx), atInstruction .issue s c → fVfn c.w = 1 → r = c.loom / 8 →
    (reedRejects s c.i c.loom r c.i.features (toLE 64 c.vb.toNat) = true → ∃ t, exec (.issue c.sh) s = .next t ∧
      shuttleOnly s t c (c.x.setReg (fRd c.w) 1) (c.x.pc + 4)) ∧
    (reedRejects s c.i c.loom r c.i.features (toLE 64 c.vb.toNat) = false → (reedOf s r).queue.length < 16 →
      ∃ t, exec (.issue c.sh) s = .next t ∧ shuttleAt s t c (c.x.setReg (fRd c.w) 0) (c.x.pc + 4) ∧ metersOnly s t ∧
      (reedOf t r).queue = (reedOf s r).queue ++ [{ desc := toLE 64 c.vb.toNat, fn := c.i.fn, inst := c.no, loom := c.loom }] ∧
      (∀ k, k ≠ r → reedOf t k = reedOf s k) ∧ t = { s with prog := t.prog, draught := t.draught, reeds := t.reeds })) ∧
  (∀ (s : State) (c : ShCtx), atInstruction .irq s c → c.i.features.getLsbD 15 = true → canSend s c.i.fn (fImm c.w) = true →
    ∃ t, exec (.irq c.sh) s = .next t ∧ shuttleAt s t c c.x (c.x.pc + 4) ∧
      t.sent = s.sent ++ [.msix c.i.fn (fImm c.w) (AMap.getD (fnOf s c.i.fn).msix (fImm c.w) {}).addr
        (AMap.getD (fnOf s c.i.fn).msix (fImm c.w) {}).data] ∧ t.fns = s.fns ∧ t.space = s.space ∧ t.prog.knots = s.prog.knots) ∧
  (∀ (n : Nat) (s : State) (c : ShCtx), atInstruction .halt s c → AMap.get? c.i.running c.x.task = some n → 1 < n →
    ∃ t j, exec (.halt c.sh) s = .next t ∧ shuttleOf t c.sh = { state := .idle, inst := c.no } ∧
      AMap.get? t.prog.instances c.no = some j ∧ j.running = AMap.insert c.i.running c.x.task (n - 1) ∧
      (∀ h, h ≠ c.sh → shuttleOf t h = shuttleOf s h) ∧ t.prog.knots = s.prog.knots ∧ t.space = s.space ∧ t.fns = s.fns) ∧
  (∀ (s : State) (c : ShCtx), atInstruction .exit s c → s.prog.shuttles.Pairwise (fun a b => a.1 < b.1) → c.i.exitKnot = none →
    ∃ t, exec (.exit c.sh) s = .next t ∧ AMap.get? t.prog.instances c.no = none ∧
      (∀ h, (shuttleOf s h).inst = c.no → AMap.get? t.prog.shuttles h = none) ∧ t.prog.faults = s.prog.faults ∧ t.sent = s.sent) ∧
  (∀ (sh : Nat) (i : Instance) (s : State), (shuttleOf s sh).state = .waitFetch →
    AMap.get? s.prog.instances (shuttleOf s sh).inst = some i →
    ∃ t, exec (.fetchComplete sh) s = .next t ∧ lineHere t i.image (sh / 128) (shuttleOf s sh).pc.toNat = true ∧
      shuttleOf t sh = { shuttleOf s sh with state := .ready } ∧ (∀ h, h ≠ sh → shuttleOf t h = shuttleOf s h) ∧
      t = { s with prog := t.prog, looms := t.looms }) ∧
  (∀ (sh : Nat) (e : Ecc) (p : Operand) (s : State), (shuttleOf s sh).pending.find? (fun q => !q.held) = some p → p.vector = false →
    p.reg ≠ 0 → e ≠ .uncorrectable → (∀ i, AMap.get? s.prog.instances (shuttleOf s sh).inst = some i → progBad .lost s i p.addr 1 = false) →
    ∃ t, exec (.operandArrive sh e) s = .next t ∧ (shuttleOf t sh).reg p.reg = p.value.setWidth 64 ∧
      (∀ r, r ≠ p.reg → (shuttleOf t sh).reg r = (shuttleOf s sh).reg r) ∧ (shuttleOf t sh).pending = (shuttleOf s sh).pending.erase p ∧
      (∀ h, h ≠ sh → shuttleOf t h = shuttleOf s h) ∧
      t = { s with prog := t.prog, looms := t.looms, service := t.service, stk := t.stk } ∧
      (e = .clean → t = { s with prog := t.prog })) ∧
  (∀ (sh off : Nat) (p : Operand) (s : State), (shuttleOf s sh).pending.find? (fun q => !q.held) = some p → shAddr p.addr = .weave off →
    ∃ t, exec (.operandArrive sh .uncorrectable) s = .next t ∧ (loomOf t (sh / 128)).out = true ∧
      (loomOf t (sh / 128)).ue = satAdd (loomOf s (sh / 128)).ue 1 ∧ AMap.get? t.prog.instances (shuttleOf s sh).inst = none)

/-- R146, R272, R294, R299-R301, R303, R304: images, instances and their tasks. -/
def Obligations.ProgramsLoadAndStop : Prop :=
  (∀ (cid oid : Nat) (host : List Byte) (a : Adm) (s u : State), running s cid 0x500 = some a → a.p 44 1 = 0 →
    host.length = a.p 40 4 → imageOk host (a.p 40 4) = true →
    createObj s a.cmd.fn .program 0 (Mem.ofBytes host) (a.p 40 4) (fun _ => false) (some cid) = some (u, oid) →
    ∃ t o, exec (.progLoad cid host) s = .next t ∧ objOf t oid = some o ∧ o.kind = .program ∧ o.fn = a.cmd.fn ∧
      verBytes o 0 = Mem.ofBytes host ∧ o.frames.all (·.tier == .near) = true ∧
      doneWith t cid (· = { value := BitVec.ofNat 32 oid }) ∧ otherObjectsKept s t oid ∧ otherCommandsKept s t cid) ∧
  (∀ (cid : Nat) (host : List Byte) (a : Adm) (s : State), running s cid 0x500 = some a → a.p 44 1 = 0 →
    host.length = a.p 40 4 → imageOk host (a.p 40 4) = false →
    exec (.progLoad cid host) s = .next (finish s cid (.bare stInvalidParam))) ∧
  (∀ (cid no : Nat) (a : Adm) (o : Obj) (s u : State), running s cid 0x501 = some a → readsAs (target s a (a.p 32 4)) o →
    o.kind = .program → a.p 40 4 = 0 → a.p 36 4 < imgPlans (verBytes o 0) → needsMet (verBytes o 0) a.features = true →
    (planOf (verBytes o 0) (a.p 36 4)).slots = 0 →
    startInstance s a (verBytes o 0) 0 [] = some (u, no) →
    ∃ t i, exec (.progStart cid) s = .next t ∧ doneWith t cid (· = { value := BitVec.ofNat 32 no }) ∧
      AMap.get? t.prog.instances no = some i ∧ i.fn = a.cmd.fn ∧ i.image = a.p 32 4 ∧ i.plan = a.p 36 4 ∧ i.step = 0 ∧
      i.features = a.features ∧ i.looms.length = (planOf (verBytes o 0) (a.p 36 4)).looms ∧
      i.tasks = List.replicate (planOf (verBytes o 0) (a.p 36 4)).tasks .waiting ∧ t.space = s.space ∧ t.sent = s.sent ∧
      otherCommandsKept s t cid) ∧
  (∀ (cid : Nat) (a : Adm) (o : Obj) (s : State), running s cid 0x501 = some a → readsAs (target s a (a.p 32 4)) o →
    o.kind = .program → a.p 40 4 = 0 → a.p 36 4 < imgPlans (verBytes o 0) → needsMet (verBytes o 0) a.features = true →
    (planOf (verBytes o 0) (a.p 36 4)).slots = 0 → startInstance s a (verBytes o 0) 0 [] = none →
    exec (.progStart cid) s = .next (finish s cid (.bare stNoSpace))) ∧
  (∀ (cid : Nat) (a : Adm) (i : Instance) (s : State), running s cid 0x502 = some a → oidFn (a.p 32 4) = a.cmd.fn →
    AMap.get? s.prog.instances (a.p 32 4) = some i →
    ∃ t b, exec (.progStop cid) s = .next t ∧ AMap.get? t.prog.instances (a.p 32 4) =
        some { i with stopping := true, stopBy := if i.stopping then i.stopBy else a.admitted + 1000000 } ∧
      findAdm t cid = some b ∧ b.phase = .waitStop (a.p 32 4) ∧ otherCommandsKept s t cid ∧ t.space = s.space ∧ t.fns = s.fns) ∧
  (∀ (cid : Nat) (a : Adm) (s : State), running s cid 0x502 = some a → oidFn (a.p 32 4) = a.cmd.fn →
    AMap.get? s.prog.instances (a.p 32 4) = none → exec (.progStop cid) s = .next (finish s cid (.bare stNoObject))) ∧
  (∀ (no task sh : Nat) (i : Instance) (x : Task) (s : State), AMap.get? s.prog.instances no = some i →
    x = taskOf (imageOf s i) (instPlan s i) task → i.tasks[task]? = some .waiting → mayStart s i x = true →
    heldBack s i (imageOf s i) (instPlan s i) task = false → x.kind = 0 → x.count = 1 → x.loom ≠ 65535 →
    (idleShuttles s no (i.looms.getD x.loom 0)).head? = some sh →
    ∃ t j, exec (.taskStart no task) s = .next t ∧ AMap.get? t.prog.instances no = some j ∧ j.tasks = i.tasks.set task .running ∧
      AMap.get? j.running task = some 1 ∧ (shuttleOf t sh).pc = BitVec.ofNat 32 x.entry ∧ (shuttleOf t sh).task = task ∧
      (shuttleOf t sh).reg 1 = BitVec.ofNat 64 no ∧ (shuttleOf t sh).reg 2 = 0 ∧
      ((shuttleOf t sh).state = .ready ∨ (shuttleOf t sh).state = .waitFetch) ∧
      (∀ h, h ≠ sh → shuttleOf t h = shuttleOf s h) ∧ t = { s with prog := t.prog }) ∧
  (∀ (no task l : Nat) (i : Instance) (x : Task) (s : State), AMap.get? s.prog.instances no = some i →
    x = taskOf (imageOf s i) (instPlan s i) task → i.tasks[task]? = some .waiting → mayStart s i x = true →
    heldBack s i (imageOf s i) (instPlan s i) task = false → x.kind ≠ 0 → x.loom ≠ 65535 → l = i.looms.getD x.loom 0 →
    (loomOf s l).dq.length < 16 →
    ∃ t j d, exec (.taskStart no task) s = .next t ∧ AMap.get? t.prog.instances no = some j ∧ j.tasks = i.tasks.set task .running ∧
      queuedBehind s t l d ∧ d.desc = templateOf (imageOf s i) i x l ∧ d.task = some task ∧ d.inst = no ∧
      d.bad = templateBad (imageOf s i) (instPlan s i) x ∧
      t.prog.shuttles = s.prog.shuttles ∧ t.space = s.space ∧ t.sent = s.sent) ∧
  (∀ (no task t0 due : Nat) (i : Instance) (s : State), AMap.get? s.prog.instances no = some i → i.exitKnot = none →
    AMap.get? i.may task = some t0 → (taskOf (imageOf s i) (instPlan s i) task).deadline ≠ 0 →
    due = t0 + 100 * (taskOf (imageOf s i) (instPlan s i) task).deadline → due < 2 ^ 64 →
    ∃ t, exec (.taskDeadline no task) s = .next t ∧ AMap.get? t.prog.instances no = none ∧
      t.prog.faults = satAdd s.prog.faults 1 ∧ t.sent = s.sent ∧ now t = max (now s) due) ∧
  (∀ (no : Nat) (i : Instance) (s : State), AMap.get? s.prog.instances no = some i → i.exitKnot = none → i.stopping = true → i.stopBy < 2 ^ 64 →
    ∃ t, exec (.progStopTimeout no) s = .next t ∧ AMap.get? t.prog.instances no = none ∧ t.prog.faults = s.prog.faults ∧
      t.sent = s.sent ∧ now t = max (now s) i.stopBy)

/-- R129, R146, R290-R293: the knot commands of the host. -/
def Obligations.KnotCommands : Prop :=
  (∀ (cid k : Nat) (a : Adm) (s : State), running s cid 0x503 = some a → freeKnots s a.cmd.fn 1 = some [k] →
    ∃ t, exec (.knotAlloc cid) s = .next t ∧ knotOf t k = some { fn := a.cmd.fn, target := BitVec.ofNat 32 (a.p 32 4) } ∧
      knotOf s k = none ∧ (∀ j, j ≠ k → knotOf t j = knotOf s j) ∧ doneWith t cid (· = { value := BitVec.ofNat 32 k }) ∧
      otherCommandsKept s t cid ∧ t = { s with prog := t.prog, sched := t.sched }) ∧
  (∀ (cid k : Nat) (a : Adm) (x : Knot) (s : State), running s cid 0x504 = some a → k = a.p 32 2 → knotOf s k = some x →
    x.fn = a.cmd.fn → x.boundary = false →
    ∃ t, exec (.knotSet cid) s = .next t ∧
      knotOf t k = some { x with counter := BitVec.ofNat 32 (a.p 36 4), target := BitVec.ofNat 32 (a.p 40 4) } ∧
      (∀ j, j ≠ k → knotOf t j = knotOf s j) ∧ doneWith t cid (· = {}) ∧
      t = { s with prog := t.prog, sched := t.sched, draught := t.draught }) ∧
  (∀ (cid k : Nat) (a : Adm) (x : Knot) (s : State), running s cid 0x505 = some a → k = a.p 32 2 → knotOf s k = some x →
    x.fn = a.cmd.fn → x.boundary = false → x.counter.toNat + 1 < 2 ^ 32 →
    ∃ t, exec (.knotArrive cid) s = .next t ∧ knotOf t k = some { x with counter := x.counter + 1 } ∧
      (∀ j, j ≠ k → knotOf t j = knotOf s j) ∧ doneWith t cid (· = {}) ∧
      t = { s with prog := t.prog, sched := t.sched, draught := t.draught }) ∧
  (∀ (cid k : Nat) (a : Adm) (x : Knot) (s : State), running s cid 0x506 = some a → k = a.p 32 2 → knotOf s k = some x →
    x.fn = a.cmd.fn →
    (x.satisfied = true → exec (.knotWait cid) s = .next (finish s cid {})) ∧
    (x.satisfied = false → exec (.knotWait cid) s = .next (setPhase s cid (.waitKnot k)))) ∧
  (∀ (cid k : Nat) (a : Adm) (x : Knot) (s : State), running s cid 0x508 = some a → k = a.p 32 2 → knotOf s k = some x →
    x.fn = a.cmd.fn → s.prog.knots.Pairwise (fun p q => p.1 < q.1) →
    ∃ t, exec (.knotFree cid) s = .next t ∧ knotOf t k = none ∧ (∀ j, j ≠ k → knotOf t j = knotOf s j) ∧ doneWith t cid (· = {}) ∧
      (∀ (d : Nat) (b : Adm), d ≠ cid → findAdm s d = some b → b.phase = .waitKnot k → doneWith t d (· = .bare stNoObject)) ∧
      t = { s with prog := t.prog, sched := t.sched }) ∧
  (∀ (c : Instr) (cid op : Nat) (a : Adm) (s : State), ((c = .knotSet cid ∧ op = 0x504) ∨ (c = .knotArrive cid ∧ op = 0x505) ∨
      (c = .knotWait cid ∧ op = 0x506) ∨ (c = .knotFree cid ∧ op = 0x508)) → running s cid op = some a →
    (knotOf s (a.p 32 2)).any (fun x => x.fn == a.cmd.fn) = false →
    exec c s = .next (finish (violate s a.cmd.fn 1) cid {}))

/-- R277: accesses of shuttles to unassigned addresses; `progViolate` is the count of one for each step. -/
def Obligations.UnassignedAccessesDoNotFault : Prop :=
  (∀ (i : Instr) (o : ShOp) (n : Nat) (s : State) (c : ShCtx),
    ((i = .ld1 c.sh ∧ o = .ld1 ∧ n = 1) ∨ (i = .ld2 c.sh ∧ o = .ld2 ∧ n = 2) ∨ (i = .ld4 c.sh ∧ o = .ld4 ∧ n = 4) ∨
      (i = .ld8 c.sh ∧ o = .ld8 ∧ n = 8) ∨ (i = .lds1 c.sh ∧ o = .lds1 ∧ n = 1) ∨ (i = .lds2 c.sh ∧ o = .lds2 ∧ n = 2) ∨
      (i = .lds4 c.sh ∧ o = .lds4 ∧ n = 4) ∨ (i = .vld c.sh ∧ o = .vld ∧ n = 64)) → atInstruction o s c → c.addr % n = 0 →
    c.x.pending.length < 8 → (shAddr c.addr = .none ∨ (∃ a, shAddr c.addr = .space a ∧ progPlace s c.i.fn a = none) ∨
      ∃ w, shAddr c.addr = .weave w ∧ inRegion c.i c.loom w n = false) →
    ∃ t p, exec i s = .next t ∧ p.value = 0 ∧ shuttleAt s t c { c.x with pending := c.x.pending ++ [p] } (c.x.pc + 4) ∧
      t.space = s.space ∧ t.looms = s.looms ∧ t.fns = (progViolate s c.no).fns) ∧
  (∀ (i : Instr) (o : ShOp) (n : Nat) (s : State) (c : ShCtx),
    ((i = .st1 c.sh ∧ o = .st1 ∧ n = 1) ∨ (i = .st2 c.sh ∧ o = .st2 ∧ n = 2) ∨ (i = .st4 c.sh ∧ o = .st4 ∧ n = 4) ∨
      (i = .st8 c.sh ∧ o = .st8 ∧ n = 8) ∨ (i = .vst c.sh ∧ o = .vst ∧ n = 64)) → atInstruction o s c → c.addr % n = 0 →
    (shAddr c.addr = .none ∨ (∃ a, shAddr c.addr = .space a ∧ progPlace s c.i.fn a = none) ∨
      ∃ w, shAddr c.addr = .weave w ∧ inRegion c.i c.loom w n = false) →
    ∃ t, exec i s = .next t ∧ shuttleAt s t c c.x (c.x.pc + 4) ∧ t.space = s.space ∧ t.looms = s.looms ∧
      t.fns = (progViolate s c.no).fns) ∧
  (∀ (s : State) (c : ShCtx), atInstruction .amo s c → c.ga.toNat % 8 = 0 → c.x.pending.length < 8 →
    (shAddr c.ga.toNat = .none ∨
      (∃ a, shAddr c.ga.toNat = .space a ∧ progPlace s c.i.fn a = none) ∨
      ∃ w, shAddr c.ga.toNat = .weave w ∧ inRegion c.i c.loom w 8 = false) →
    ∃ t p, exec (.amo c.sh) s = .next t ∧ p.value = 0 ∧ shuttleAt s t c { c.x with pending := c.x.pending ++ [p] } (c.x.pc + 4) ∧
      t.space = s.space ∧ t.looms = s.looms ∧ t.fns = (progViolate s c.no).fns) ∧
  (∀ (no : Nat) (i : Instance) (s : State), AMap.get? s.prog.instances no = some i →
    (i.violated = false → (fnOf s i.fn).flr = false → (fnOf (progViolate s no) i.fn).violations = satAdd (fnOf s i.fn).violations 1 ∧
      ∃ j, AMap.get? (progViolate s no).prog.instances no = some j ∧ j.violated = true) ∧
    (i.violated = true → progViolate s no = s) ∧
    (i.stopping = false → ∃ j, AMap.get? (boundary s no).prog.instances no = some j ∧ j.violated = false ∧ j.step = i.step + 1))

/-- R283: faults; the instance ends with end code 2, told by its event (R303, R520), and counts among the faults. -/
def Obligations.FaultsEndInstances : Prop :=
  (∀ (i : Instr) (s : State) (c : ShCtx), shuttleOf s c.sh = c.x → c.x.state = .ready → issueTurn s c.sh = true → c.no = c.x.inst →
    AMap.get? s.prog.instances c.no = some c.i → c.m = imageOf s c.i → c.w = (imgWord c.m c.x.pc.toNat).toNat →
    c.x.pc.toNat < imgCodeLen c.m → lineHere s c.i.image c.loom c.x.pc.toNat = true → c.i.exitKnot = none →
    (fnOf s c.i.fn).featActive.getLsbD 29 = true → (fnOf s c.i.fn).events.length < 64 → c.i.argObj = 0 →
    instDescs s c.no = [] → instSelections s c.no = [] →
    ((i = .alu c.sh ∧ shDecode c.w (c.i.features.getLsbD 17) = none) ∨
     (∃ o n, (i = .ld2 c.sh ∧ o = .ld2 ∧ n = 2 ∨ i = .ld4 c.sh ∧ o = .ld4 ∧ n = 4 ∨ i = .ld8 c.sh ∧ o = .ld8 ∧ n = 8 ∨
        i = .lds2 c.sh ∧ o = .lds2 ∧ n = 2 ∨ i = .lds4 c.sh ∧ o = .lds4 ∧ n = 4 ∨ i = .st2 c.sh ∧ o = .st2 ∧ n = 2 ∨
        i = .st4 c.sh ∧ o = .st4 ∧ n = 4 ∨ i = .st8 c.sh ∧ o = .st8 ∧ n = 8 ∨ i = .vld c.sh ∧ o = .vld ∧ n = 64 ∨
        i = .vst c.sh ∧ o = .vst ∧ n = 64) ∧
        shDecode c.w (c.i.features.getLsbD 17) = some o ∧ blocked c.x (postedWrites s c.sh) o c.w = false ∧ c.addr % n ≠ 0) ∨
     (i = .amo c.sh ∧ shDecode c.w (c.i.features.getLsbD 17) = some .amo ∧ blocked c.x (postedWrites s c.sh) .amo c.w = false ∧ c.ga.toNat % 8 ≠ 0) ∨
     (i = .jalr c.sh ∧ shDecode c.w (c.i.features.getLsbD 17) = some .jalr ∧ blocked c.x (postedWrites s c.sh) .jalr c.w = false ∧
        (c.addr % 4 ≠ 0 ∨ imgCodeLen c.m ≤ c.addr)) ∨
     (∃ o, (i = .beq c.sh ∧ o = .beq ∨ i = .bne c.sh ∧ o = .bne ∨ i = .blt c.sh ∧ o = .blt ∨ i = .bge c.sh ∧ o = .bge ∨
        i = .bltu c.sh ∧ o = .bltu ∨ i = .bgeu c.sh ∧ o = .bgeu) ∧ shDecode c.w (c.i.features.getLsbD 17) = some o ∧
        blocked c.x (postedWrites s c.sh) o c.w = false ∧ branchTaken o c.gd c.ga = true ∧
        ((c.x.pc.toNat + 4 * fImmS c.w) % 4 ≠ 0 ∨ (c.x.pc.toNat : Int) + 4 * fImmS c.w < 0 ∨
          (imgCodeLen c.m : Int) ≤ c.x.pc.toNat + 4 * fImmS c.w))) →
    ∃ t e, exec i s = .next t ∧ AMap.get? t.prog.instances c.no = none ∧ t.prog.faults = satAdd s.prog.faults 1 ∧
      (fnOf t c.i.fn).events = (fnOf s c.i.fn).events ++ [e] ∧ e.code = 1 ∧ e.arg0 = BitVec.ofNat 32 c.no ∧
      e.arg1.toNat % 256 = 2 ∧ t.sent = s.sent)

/-- R243: dense outputs; every score of a readable row is written, whatever it is. -/
def Obligations.DenseOutputsLie : Prop :=
  ∀ (loom : Nat) (e : Ecc) (d : ArrayDesc) (rest : List ArrayDesc) (x : Arr) (s : State), (loomOf s loom).dq = d :: rest → x = arrOf d.desc →
    e ≠ .uncorrectable → descRejected s d = false → x.dense = true → x.rows ≠ 0 → x.cols ≠ 0 → x.arrives = false → d.task = none →
    d.pick = none → d.started = true → sourceHeld s d = false → arrReadable .any s d = x.rows → (loomOf s loom).ws.wf →
    ∃ t, exec (.descriptorComplete loom e) s = .next t ∧ (loomOf t loom).dq.map (·.desc) = rest.map (·.desc) ∧
      (∀ r q, r < x.rows → q < x.cols →
        Mem.nat (loomOf t loom).ws (x.out + 4 * (q * x.rows + r)) 4 = (arrScore x d.bank q (arrRow s d r)).toNat) ∧
      Mem.nat (loomOf t loom).ws x.doneWs 4 = 0 ∧ Mem.nat (loomOf t loom).ws (x.doneWs + 4) 4 = x.rows ∧
      (∀ a, a < 2097152 → (a < x.out ∨ x.out + 4 * x.cols * x.rows ≤ a) → (a < x.doneWs ∨ x.doneWs + 8 ≤ a) →
        Mem.read (loomOf t loom).ws a = Mem.read (loomOf s loom).ws a) ∧
      (∀ l, l ≠ loom → loomOf t l = loomOf s l) ∧ t.space.objs = s.space.objs ∧ (rest = [] → t.fns = s.fns)

/-- R235, R244, R336, R352, R354, R457, R516: the rows of arrays and reeds. -/
def Obligations.ArraysAndReedsRun : Prop :=
  (∀ (loom array : Nat) (s : State), array ∈ (loomOf s loom).waitRise → AMap.getD (loomOf s loom).phase array .off ≠ .fall →
    AMap.getD s.looms.boltBlocked (loom / 8) 0 ≤ now s →
    ThermLevel.die2 ∉ s.draught.levels → (risesNow s (loom / 8)).1 < 8 → (risesNow s (loom / 8)).2 < 2 →
    ∃ t, exec (.riseAdmit loom array true) s = .next t ∧ AMap.getD (loomOf t loom).phase array .off = .rise ∧
      AMap.getD (loomOf t loom).steps array 1 = 0 ∧ (loomOf t loom).waitRise = (loomOf s loom).waitRise.filter (· != array) ∧
      (loomOf t loom).dq.map (·.desc) = (loomOf s loom).dq.map (·.desc) ∧ (∀ l, l ≠ loom → loomOf t l = loomOf s l) ∧
      t = { s with looms := t.looms, draught := t.draught, flash := t.flash, fns := t.fns }) ∧
  (∀ (loom array : Nat) (s : State), array ∈ (loomOf s loom).waitRise →
    (AMap.getD (loomOf s loom).phase array .off = .fall → ∀ power, exec (.riseAdmit loom array power) s = .next s) ∧
    (AMap.getD (loomOf s loom).phase array .off ≠ .fall → array ∈ (loomOf s loom).delayed →
      exec (.riseAdmit loom array false) s = .next s) ∧
    (AMap.getD (loomOf s loom).phase array .off ≠ .fall → array ∉ (loomOf s loom).delayed →
      exec (.riseAdmit loom array false) s = .next (updLoom { s with
        draught := { s.draught with riseDelayed := satAdd s.draught.riseDelayed 1 } } loom
        (fun l => { l with delayed := array :: l.delayed })))) ∧
  (∀ (loom : Nat) (e : Ecc) (d : ArrayDesc) (rest : List ArrayDesc) (s : State), (loomOf s loom).dq = d :: rest → d.task = none →
    e ≠ .uncorrectable → d.pick = none →
    (arrOf d.desc).arrives = false → (arrOf d.desc).doneWs + 8 ≤ 2097152 → (loomOf s loom).ws.wf →
    (descRejected s d = true ∨ ((arrOf d.desc).rows = 0 ∨ (arrOf d.desc).cols = 0)) →
    ∃ t, exec (.descriptorComplete loom e) s = .next t ∧ (loomOf t loom).dq.map (·.desc) = rest.map (·.desc) ∧
      Mem.nat (loomOf t loom).ws (arrOf d.desc).doneWs 4 = (if descRejected s d then 1 else 0) ∧
      Mem.nat (loomOf t loom).ws ((arrOf d.desc).doneWs + 4) 4 = 0 ∧ (∀ l, l ≠ loom → loomOf t l = loomOf s l) ∧
      t = { s with looms := t.looms, flash := t.flash, fns := t.fns } ∧ (rest = [] → t = { s with looms := t.looms })) ∧
  (∀ (r : Nat) (d : ReedDesc) (rest : List ReedDesc) (s : State), (reedOf s r).running = none → (reedOf s r).queue = d :: rest →
    (field d.desc 0 1 = 2 ∨ field d.desc 8 8 = 0 ∨ field d.desc 4 4 ≤ 65536 ∨ largeFits s (field d.desc 4 4) = true) →
    ∃ t, exec (.reedStart r) s = .next t ∧ (reedOf t r).running = some d ∧ (reedOf t r).queue = rest ∧
      (∀ q, q ≠ r → reedOf t q = reedOf s q) ∧
      t = { s with reeds := t.reeds, flash := { s.flash with reads := t.flash.reads } }) ∧
  (∀ (r off : Nat) (e : Ecc) (d : ReedDesc) (i : Instance) (s : State), (reedOf s r).running = some d → e ≠ .uncorrectable → reedHeld s d = false →
    AMap.get? s.prog.instances d.inst = some i → (field d.desc 0 1 = 2 ∨ field d.desc 4 4 ≠ 0) → field d.desc 8 8 ≠ 0 →
    reedBad .any s d i = false → bit (field d.desc 1 1) 2 = false → shAddr (field d.desc 48 8) = .weave off →
    inRegion i d.loom off 16 = true → (loomOf s d.loom).ws.wf →
    ∃ t, exec (.reedComplete r e) s = .next t ∧ (reedOf t r).running = none ∧ (reedOf t r).queue = (reedOf s r).queue ∧
      Mem.nat (loomOf t d.loom).ws off 4 = (selectCore (field d.desc 0 1) (bit (field d.desc 1 1) 0) (bit (field d.desc 1 1) 1)
        (field d.desc 4 4) (reedSource s d i).1).status.toNat ∧
      Mem.nat (loomOf t d.loom).ws (off + 4) 4 = (selectCore (field d.desc 0 1) (bit (field d.desc 1 1) 0) (bit (field d.desc 1 1) 1)
        (field d.desc 4 4) (reedSource s d i).1).count.toNat ∧ (∀ q, q ≠ r → reedOf t q = reedOf s q) ∧ t.sched = s.sched) ∧
  (∀ (loom : Nat) (d : ArrayDesc) (rest : List ArrayDesc) (s : State), (loomOf s loom).dq = d :: rest →
    ∃ t, exec (.descriptorComplete loom .uncorrectable) s = .next t ∧ (loomOf t loom).out = true ∧
      (loomOf t loom).ue = satAdd (loomOf s loom).ue 1 ∧ AMap.get? t.prog.instances d.inst = none) ∧
  (∀ (r : Nat) (d : ReedDesc) (s : State), (reedOf s r).running = some d →
    ∃ t, exec (.reedComplete r .uncorrectable) s = .next t ∧ (reedOf t r).out = true ∧
      (reedOf t r).ue = satAdd (reedOf s r).ue 1 ∧ AMap.get? t.prog.instances d.inst = none)

/-- R212-R215, R218-R221, R459: segments of SPINDLE_RUN and the states of a channel. -/
def Obligations.SpindlesTakeTurns : Prop :=
  (∀ (cid : Nat) (a : Adm) (o : Obj) (ds : List (List Byte)) (s u : State), running s cid 0x507 = some a →
    readsAs (target s a (a.p 32 4)) o → o.kind = .data → 64 * a.p 36 4 ≤ pinnedSize a (a.p 32 4) o →
    rangeBad .any o (pinnedVer a (a.p 32 4)) 0 (64 * a.p 36 4) = false → ds = records 64 (a.p 36 4) a.carried →
    (∀ d ∈ ds, segForeign s a.cmd.fn (segOf d) = false ∧ segMissing s a.cmd.fn (segOf d) = false ∧ (segOf d).arrives = false) →
    seqOk s a.cmd.fn ds = true → bringAll s (segGranules s a.cmd.fn (ds.map segOf)) = some u →
    (segGranules s a.cmd.fn (ds.map segOf)).any (fun e => bringHeld s e.1 e.2) = false → (∀ d ∈ ds, segEcc s (segOf d) = false) →
    (segGranules s a.cmd.fn (ds.map segOf)).any (granuleLost s) = false → (∃ d ∈ ds, (segOf d).rows ≠ 0) →
    ∃ t b, exec (.spindleRun cid) s = .next t ∧ findAdm t cid = some b ∧ b.phase = .waitSegments ∧
      (∀ d ∈ ds, (segOf d).rows ≠ 0 → ∃ ch, segChannel s a.cmd.fn (segOf d) = some ch ∧
        ∃ i, ds[i]? = some d ∧ ({ desc := d, fn := a.cmd.fn, owner := .inl cid, index := i } : Segment) ∈ (chanOf t ch).queue) ∧
      otherCommandsKept s t cid ∧ t.fns = s.fns ∧ t.sent = s.sent) ∧
  (∀ (ch : Nat) (g : Segment) (s : State), (chanOf s ch).state = .memory → ThermLevel.stack (ch / 32) ∉ s.draught.levels →
    nextSegment s (chanOf s ch) = some g → operandHeld s g = false →
    ∃ t, exec (.segmentStart ch) s = .next t ∧ (chanOf t ch).state = .entry ∧ (chanOf t ch).running = some g ∧
      (chanOf t ch).queue = (chanOf s ch).queue.erase g ∧ (chanOf t ch).owed = false ∧
      ((segOf g.desc).loads = true → g.scan = false → AMap.getD (chanOf t ch).operand (ownerKey g.owner) [] =
        descBytes s g.fn (segOf g.desc).opnd (segOf g.desc).opndOff (segOf g.desc).opndBytes) ∧
      (∀ c, c ≠ ch → chanOf t c = chanOf s c) ∧ t = { s with stk := t.stk }) ∧
  (∀ (ch cid : Nat) (g : Segment) (q : Sequence) (a : Adm) (x : Seg) (o : Obj) (v : Version) (fr : Frame) (outs : List Byte) (s : State),
    (chanOf s ch).running = some g → g.owner = .inl cid → g.scan = false → x = segOf g.desc → x.arrives = false → findAdm s cid = some a →
    s.stk.sequences.find? (fun q => q.cid == cid) = some q → q.off = [] → runTarget s g.fn x.dst = .own o → o.kind = .data →
    verOf o o.current = some v → frameOf o v (x.dstOff / granule) = some fr → fr.tier = .near → v.bytes.wf →
    x.dstOff % granule + 4 * x.rows ≤ granule → x.rows ≠ 0 →
    outs = segOutputs s g.fn x (AMap.getD (chanOf s ch).operand (ownerKey g.owner) []) →
    ∃ t o' v', exec (.segmentEnd ch) s = .next t ∧ (chanOf t ch).state = .exit ∧ (chanOf t ch).running = none ∧
      t.stk.segments = s.stk.segments + 1 ∧ objOf t x.dst = some o' ∧ verOf o' o.current = some v' ∧ outs.length = 4 * x.rows ∧
      (∀ i, i < outs.length → Mem.read v'.bytes (x.dstOff + i) = outs.getD i 0) ∧
      (∀ b, b < x.dstOff ∨ x.dstOff + outs.length ≤ b → Mem.read v'.bytes b = Mem.read v.bytes b) ∧
      otherObjectsKept s t x.dst ∧ t.fns = s.fns ∧
      (q.left ≤ 1 → doneWith t cid (· = { count := BitVec.ofNat 32 (q.rows + x.rows) })) ∧ (1 < q.left → findAdm t cid = some a)) ∧
  (∀ (ch cid : Nat) (g : Segment) (a : Adm) (s : State), (chanOf s ch).running = some g → g.owner = .inl cid →
    findAdm s cid = some a → a.phase = .waitSegments →
    ∃ t, exec (.segmentStop ch) s = .next t ∧ (chanOf t ch).state = .exit ∧ (chanOf t ch).running = none ∧
      t.stk.stopped = satAdd s.stk.stopped 1 ∧ doneWith t cid (· = .bare stInternal) ∧ otherCommandsKept s t cid) ∧
  (∀ (ch holdNs : Nat) (s : State), (chanOf s ch).state = .exit → (chanOf s ch).held = [] → (chanOf s ch).stalled = [] →
    ∃ t, exec (.channelExitEnd ch holdNs) s = .next t ∧ (chanOf t ch).state = .gap ∧ (chanOf t ch).owed = false ∧
      (chanOf t ch).refreshes = (chanOf s ch).refreshes + (if (chanOf s ch).owed then 1 else 0) ∧ t = { s with stk := t.stk }) ∧
  (∀ (ch : Nat) (s : State),
    (((chanOf s ch).state = .entry ∨ (chanOf s ch).state = .segment ∨ (chanOf s ch).state = .exit) →
      ∃ t, exec (.refreshDue ch) s = .next t ∧ chanOf t ch = { chanOf s ch with owed := true } ∧ t = { s with stk := t.stk }) ∧
    ((chanOf s ch).state = .memory →
      ∃ t, exec (.refreshDue ch) s = .next t ∧ chanOf t ch = { chanOf s ch with refreshes := (chanOf s ch).refreshes + 1 } ∧
        t = { s with stk := t.stk })) ∧
  (∀ (ch : Nat) (s : State), (chanOf s ch).state = .gap →
    ((chanOf s ch).queue = [] →
      ∃ t, exec (.gapEnd ch) s = .next t ∧ chanOf t ch = { chanOf s ch with state := .memory } ∧ t = { s with stk := t.stk }) ∧
    (∀ g, nextSegment s (chanOf s ch) = some g → operandHeld s g = false → ThermLevel.stack (ch / 32) ∉ s.draught.levels →
      ∃ t, exec (.gapEnd ch) s = .next t ∧ (chanOf t ch).state = .entry ∧ (chanOf t ch).running = some g ∧
        (chanOf t ch).queue = (chanOf s ch).queue.erase g ∧ t = { s with stk := t.stk })) ∧
  (∀ (stack level : Nat) (s : State), (∀ i, i < 32 → chanHolds s (32 * stack + i) = false ∧ (chanOf s (32 * stack + i)).held = []) →
    level ≤ 2 → (ThermLevel.stack stack ∈ s.draught.levels → level = 2) →
    exec (.ioRateChange stack level) s = .next { s with stk := { s.stk with ioLevel := AMap.insert s.stk.ioLevel stack level } }) ∧
  (∀ (ch level : Nat) (s : State), (∀ i, i < 16 → (dieOf s.flash (16 * ch + i)).programs = []) → level ≤ 2 →
    (ThermLevel.flash ch ∈ s.draught.levels → level = 2) →
    exec (.flashRateChange ch level) s = .next { s with flash := { s.flash with rateLevel := AMap.insert s.flash.rateLevel ch level } })

/-- R42, R43, R248, R249, R253: the close of a window and the merge unit. -/
def Obligations.PicksAndMerges : Prop :=
  (∀ (index version list cls l : Nat) (w : Window) (s : State),
    s.looms.windows.find? (fun w => w.index == index && w.version == version && w.list == list && w.cls == cls) = some w →
    w.closeAt < 2 ^ 64 → w.members ≠ [] → (w.minMembers ≤ w.members.length ∨ ∀ c ∈ w.members, (findAdm s c).any (·.has 7) = false) →
    pickLoom s w.cls = some l →
    ∃ t, exec (.pickWindowClose index version list cls) s = .next t ∧ t.looms.windows = s.looms.windows.erase w ∧
      t.time.toNat = (if w.members.length < 256 then max s.time.toNat w.closeAt else s.time.toNat) ∧
      t.looms.picks = satAdd s.looms.picks 1 ∧ t.looms.members = satAdd s.looms.members w.members.length ∧
      t.looms.small = (if w.members.length < w.minMembers then satAdd s.looms.small 1 else s.looms.small) ∧
      (∃ d, queuedBehind s t l d ∧ d.pick = some (w.members.map (·, true)) ∧ d.ver = w.version) ∧
      t = { s with looms := t.looms, draught := t.draught, time := t.time, flash := t.flash, fns := t.fns, space := t.space } ∧
      t.space = { s.space with streamed := t.space.streamed }) ∧
  (∀ (cid list : Nat) (epoch : BitVec 32) (a : Adm) (s : State), findAdm s cid = some a → a.phase = .running →
    (a.cmd.opcode = 0x206 ∨ a.cmd.opcode = 0x207) → epoch = domainEpoch s (oidFn (a.p 32 4)) (a.p 32 4) → list ∉ a.merged →
    mergeable s a list = true →
    exec (.resultMerge cid list epoch) s = .next (updAdm s cid (fun a => { a with merged := a.merged ++ [list] }))) ∧
  (∀ (cid list : Nat) (epoch : BitVec 32) (a : Adm) (s : State), findAdm s cid = some a → list ∈ a.merged →
    epoch = domainEpoch s (oidFn (a.p 32 4)) (a.p 32 4) → exec (.resultMerge cid list epoch) s = .next s) ∧
  (∀ (cid list : Nat) (epoch : BitVec 32) (a : Adm) (s : State), findAdm s cid = some a → a.phase = .running →
    (a.cmd.opcode = 0x206 ∨ a.cmd.opcode = 0x207) → epoch ≠ domainEpoch s (oidFn (a.p 32 4)) (a.p 32 4) →
    ∃ t b, exec (.resultMerge cid list epoch) s = .next t ∧ findAdm t cid = some b ∧ b.merged = a.merged ∧ b.phase = a.phase ∧
      (list ∉ a.merged → (list, domainEpoch s (oidFn (a.p 32 4)) (a.p 32 4)) ∈ b.work) ∧ otherCommandsKept s t cid ∧
      t.fabric.rejected = satAdd s.fabric.rejected 1 ∧ t = { s with sched := t.sched, fabric := t.fabric })

/-- R452, with the derating of R67 written out: the cap an allocation takes; and the floors of R454. -/
def Obligations.EffectiveCapIsTheLowest : Prop :=
  (∀ (inp : DraughtInput) (s : State), s.board.powered = true → ∃ t, exec (.draughtAllocation inp) s = .next t ∧
    t.draught.capW.toNat = ([2400, s.draught.hostCap,
      (if inletE4 t ≤ 6400000 then 2400 else max 2000 (2400 - ceilDiv (inletE4 t - 6400000).toNat 2000)),
      (if t.board.band = .low then 46 else 50) * t.board.vinMv / 1000, s.draught.junctionCap].foldl min 2400) ∧
    t.board.vinMv = inp.vinMv ∧ t.board.plateX16 = inp.plateX16 ∧ t.board.hotX16 = inp.hotX16 ∧ t.board.pin100Mw = inp.pin100Mw ∧
    t.fns = s.fns ∧ t.space = s.space ∧ t.sched.admitted = s.sched.admitted ∧ t.sent = s.sent) ∧
  (∀ (inp : DraughtInput) (s t : State) (d : Nat), s.board.powered = true → s.draught.order = 0x7654321 → s.draught.etaMilli ≤ 1000 → 1 ≤ d → d ≤ 7 →
    exec (.draughtAllocation inp) s = .next t →
    domainFloor d ≤ (AMap.getD t.draught.grants d 0).toNat)

/-- R461: droop events, what they hold back, and the floor taken every 100 ms (2 us are 200 counts). -/
def Obligations.DroopIsWatched : Prop :=
  (∀ (bolt depth : Nat) (s : State), 30 < depth → exec (.droopEvent bolt depth) s = .next { s with
    looms := { s.looms with boltBlocked := AMap.insert s.looms.boltBlocked bolt (now s + 200) }
    draught := { s.draught with droops := satAdd s.draught.droops 1, deepest := max s.draught.deepest depth } }) ∧
  (∀ (bolt depth : Nat) (s : State), depth ≤ 30 → exec (.droopEvent bolt depth) s = .next s) ∧
  (∀ (loom array : Nat) (power : Bool) (s : State), now s < AMap.getD s.looms.boltBlocked (loom / 8) 0 →
    ∃ t, exec (.riseAdmit loom array power) s = .next t ∧ ∀ l, (loomOf t l).phase = (loomOf s l).phase ∧
      (loomOf t l).waitRise = (loomOf s l).waitRise ∧ (loomOf t l).dq = (loomOf s l).dq) ∧
  (∀ s : State, s.draught.deepest ≤ 650 → ∃ t, exec .droopFloor s = .next t ∧ t.draught.vDroopMv % 5 = 0 ∧
    610 + s.draught.deepest ≤ t.draught.vDroopMv ∧ t.draught.vDroopMv < 615 + s.draught.deepest ∧
    (s.draught.planned = true → s.draught.ageFloorMv.toNat < 4096 →
      t.draught.vFloorMv.toNat = max t.draught.vDroopMv s.draught.ageFloorMv.toNat) ∧
    (s.draught.planned = false → t.draught.vFloorMv = s.draught.vFloorMv) ∧ t.draught.deepest = 0 ∧
    t = { recur s .droop with draught := t.draught })

/-- R25, R455, R458, R460, R463, R467-R470: the rows of the draught controller; `recur` brings node time to a recurring event. -/
def Obligations.DraughtFollowsTheReadings : Prop :=
  (∀ (rs : List Nat) (s : State), ∃ t, exec (.monitorSample rs) s = .next t ∧ t.looms.monitors = rs ∧
    (∀ b i, b < 16 → i < 8 → AMap.getD t.looms.boltRate b 0 ≤ rs.getD (8 * b + i) 0 ∧ AMap.getD t.looms.boltRate b 0 ≤ rs.getD (128 + b) 0) ∧
    t = { recur s .monitors with looms := t.looms }) ∧
  (∀ (eta : Nat) (s : State), exec (.efficiencyMeasure eta) s = .next { recur s .efficiency with draught := { s.draught with etaMilli := eta } }) ∧
  (∀ s : State, inBanked s = true → exec .vloomStep s = .next s) ∧
  (∀ s : State, inBanked s = false → s.draught.vloomMv.toNat < 65000 → ∃ t, exec .vloomStep s = .next t ∧
    t.draught.vloomMv.toNat ≤ s.draught.vloomMv.toNat + 5 ∧ s.draught.vloomMv.toNat ≤ t.draught.vloomMv.toNat + 5 ∧
    (s.draught.vFloorMv.toNat ≤ 900 → s.draught.vFloorMv.toNat ≤ s.draught.vloomMv.toNat → s.draught.vloomMv.toNat ≤ 900 →
      s.draught.vFloorMv.toNat ≤ t.draught.vloomMv.toNat ∧ t.draught.vloomMv.toNat ≤ 900) ∧
    t = { recur s .supply with draught := t.draught }) ∧
  (∀ (nj : Nat) (s : State), s.draught.activityPj = [] → ∃ t, exec (.energyInterval nj) s = .next t ∧
    (fnOf t 0).energyNj = (fnOf s 0).energyNj + nj ∧ (∀ f, f ≠ 0 → fnOf t f = fnOf s f) ∧
    t.draught.energyUj = s.draught.energyUj + BitVec.ofNat 64 ((s.draught.energyRestNj + nj) / 1000) ∧ t.sched.admitted = s.sched.admitted) ∧
  (∀ (f pj nj : Nat) (s : State), s.draught.activityPj = [(f, pj)] → pj ≠ 0 → ∃ t, exec (.energyInterval nj) s = .next t ∧
    (fnOf t f).energyNj = (fnOf s f).energyNj + nj ∧ (∀ g, g ≠ f → fnOf t g = fnOf s g) ∧ t.draught.activityPj = []) ∧
  (∀ (rs : List Nat) (low : Nat) (s : State), low ∈ rs → (∀ r ∈ rs, low ≤ r) → low < 65536 → ∃ t, exec (.ageingHour rs) s = .next t ∧
    t.draught.hours = satAdd s.draught.hours 1 ∧ t.draught.ageMin.toNat = low ∧
    (t.draught.ageWarn = true ↔ 100 * low < 93 * 32768) ∧ t.fns = s.fns ∧ t.space = s.space) ∧
  (∀ (mv : Nat) (s : State), (s.boot.starting = true ∨ s.draught.planHours + 720 ≤ s.draught.hours.toNat) →
    ∃ t, exec (.marginReplan mv) s = .next t ∧ t.draught.planPending = some mv ∧ t.draught.planHours = s.draught.hours.toNat ∧
      t.draught.agePlanned = s.draught.ageMin.toNat ∧ t.draught.ageFloorMv = s.draught.ageFloorMv ∧ t = { s with draught := t.draught }) ∧
  (∀ (l : ThermLevel) (x : Int) (s : State), entryPoint l ≤ x → l ∉ s.draught.levels →
    ∃ t, exec (.thermalLevelEntry l x) s = .next t ∧ t.draught.levels = s.draught.levels ++ [l] ∧ t.fns = s.fns ∧ t.sched = s.sched ∧
      (l = .die2 → t.draught.vloomTarget = max 650 s.draught.vFloorMv.toNat)) ∧
  (∀ (l : ThermLevel) (x : Int) (s : State), x ≤ entryPoint l - 80 → l ∈ s.draught.levels →
    ∃ t, exec (.thermalLevelExit l x) s = .next t ∧ l ∉ t.draught.levels ∧
      (∀ k, k ≠ l → (k ∈ t.draught.levels ↔ k ∈ s.draught.levels)) ∧ t.fns = s.fns ∧ t.sched = s.sched) ∧
  (∀ s : State, exec .junctionCapStep s = .next { recur s .junction with draught := { s.draught with
    junctionCap := if .die2 ∈ s.draught.levels then s.draught.junctionCap
      else if .die1 ∈ s.draught.levels then max 1200 (s.draught.junctionCap - 100) else min 2400 (s.draught.junctionCap + 50) } }) ∧
  (∀ s : State, s.draught.pace = true → (∀ g ∈ s.draught.paceGroups, now (recur s .pace) < g.last + 1000000 →
      s.draught.paceMinUs.toNat < g.slack) →
    exec .paceStep s = .next { recur s .pace with draught := { s.draught with paceCut := min 20 (s.draught.paceCut + 2) } })

/-- R151, R453, R464, R465, R471, R472: the power commands and the ways out of the low-power states. -/
def Obligations.PowerCommandsRun : Prop :=
  (∀ (cid : Nat) (a : Adm) (s : State), running s cid 0x700 = some a →
    exec (.powerCap cid) s = .next (finish { s with draught := { s.draught with hostCap := a.p 32 4 } } cid {})) ∧
  (∀ (cid : Nat) (a : Adm) (s : State), running s cid 0x701 = some a → notAlone s cid = false →
    ∃ t, exec (.enterBanked cid) s = .next t ∧ t.service.mode = .enteringBanked ∧ (∀ c, c < 640 → (chanOf t c).state = .selfRefresh) ∧
      (∀ l, (loomOf t l).phase = []) ∧
      t.flash.journal = [] ∧ t.flash.journalFlash = s.flash.journalFlash ++ s.flash.journal ∧ doneWith t cid (· = {}) ∧
      t.space = s.space ∧ t.fns = s.fns) ∧
  (∀ (cid : Nat) (a : Adm) (s : State), running s cid 0x702 = some a → notAlone s cid = false →
    peatUsed s + (nearFrames s).length ≤ s.flash.capacity.toNat → ((4096 ≤ s.flash.headroom ∧ flashRoom s.flash = true) ∨ nearFrames s = []) →
    ∃ t, exec (.enterDormant cid) s = .next t ∧ t.service.mode = .enteringDormant ∧ t.boot.dormantMark = true ∧
      nearFrames t = [] ∧ t.boot.dormantImage = dormantObjs s ∧ doneWith t cid (· = {}) ∧ t.fns = s.fns) ∧
  (∀ (c : Instr) (cid op : Nat) (a : Adm) (s : State), ((c = .enterBanked cid ∧ op = 0x701) ∨ (c = .enterDormant cid ∧ op = 0x702)) →
    running s cid op = some a → notAlone s cid = true → exec c s = .next (finish s cid (.bare stBusyMode))) ∧
  (∀ (cid p : Nat) (mask : BitVec 256) (a : Adm) (s : State), running s cid 0x703 = some a → p = a.p 32 1 →
    mask = BitVec.ofNat 256 (a.p 64 32) →
    (bit (a.p 33 1) 0 = true → ∀ q, q < 4 → q ≠ p → (AMap.getD s.draught.parts q {}).en = true →
      (AMap.getD s.draught.parts q {}).mask &&& mask = 0) →
    ∃ t, exec (.privPartition cid) s = .next t ∧ (AMap.getD t.draught.parts p {}).en = bit (a.p 33 1) 0 ∧
      (AMap.getD t.draught.parts p {}).mask = mask ∧
      (∀ q, q ≠ p → AMap.getD t.draught.parts q {} = AMap.getD s.draught.parts q {}) ∧ doneWith t cid (· = {}) ∧
      t = { s with draught := t.draught, sched := t.sched }) ∧
  (∀ s : State, s.service.mode = .leavingBanked → s.service.pressPending = false → s.service.deferred = [] →
    ∃ t, exec .bankedExit s = .next t ∧ t.service.mode = .service ∧ t.service.panel = 1 ∧ (∀ c, c < 640 → (chanOf t c).state = .memory) ∧
      t.draught.vloomMv = BitVec.ofNat 16 (max 650 s.draught.vFloorMv.toNat) ∧ t.space = s.space ∧ t.fns = s.fns) ∧
  (∀ s : State, s.service.mode = .enteringDormant → s.sched.admitted = [] →
    ∃ t, exec .dormantRailsOff s = .next t ∧ t.service.mode = .dormant ∧ t.board.rails = 0 ∧ t.board.pwrGood = false)

/-- R467, R490, R493, R519, R522, R531, R532: the health and diagnostic commands. -/
def Obligations.DiagnosticCommandsRun : Prop :=
  (∀ (cid : Nat) (a : Adm) (s : State), running s cid 0x704 = some a →
    exec (.energyRead cid) s = .next (finish s cid { data := toLE 8 ((fnOf s a.cmd.fn).energyNj / 1000) ++ toLE 8 (now s) })) ∧
  (∀ (cid : Nat) (a : Adm) (s : State), running s cid 0x705 = some a →
    exec (.healthRead cid) s = .next (finish s cid { data := healthRecord s })) ∧
  (∀ (cid : Nat) (a : Adm) (s : State), running s cid 0x706 = some a → s.service.frozen = false →
    ∃ t, exec (.snapshotFire cid) s = .next t ∧ t.service.frozen = true ∧ t.service.valid = false ∧
      t.service.snapSeq = s.service.snapSeq + 1 ∧ t.service.snapTime = s.time ∧ t.service.latched = latchAll s ∧
      doneWith t cid (· = { value := s.service.snapSeq + 1 }) ∧ t.space = s.space) ∧
  (∀ (cid : Nat) (a : Adm) (s : State), running s cid 0x706 = some a → s.service.frozen = true →
    exec (.snapshotFire cid) s = .next (finish { s with service := { s.service with missed := satAdd s.service.missed 1 } } cid
      { value := s.service.snapSeq })) ∧
  (∀ (cid us : Nat) (passed : BitVec 32) (ms : List (Nat × BitVec 32)) (a : Adm) (s : State), running s cid 0x707 = some a →
    s.boot.kindling = false → (∀ b, b < 20 → bit (a.p 32 4) b = true → inService s b = false) →
    ∃ w, w < 1152 ∧ exec (.selfTest cid passed us ms) s = .next (finish s cid { data := lay 64 [(0, 4, a.p 32 4),
      (4, 4, (BitVec.ofNat 32 (a.p 32 4) &&& passed).toNat), (8, 4, us), (12, 4, w)] })) ∧
  (∀ (cid us : Nat) (passed : BitVec 32) (ms : List (Nat × BitVec 32)) (a : Adm) (o : Obj) (v : Version) (s : State),
    running s cid 0x707 = some a → s.boot.kindling = true → objOf s 1 = some o → verOf o o.current = some v → v.bytes.wf →
    ∃ t o' v', exec (.selfTest cid passed us ms) s = .next t ∧ objOf t 1 = some o' ∧ verOf o' o.current = some v' ∧
      (∀ i, i < 1152 → Mem.nat v'.bytes (4 * i) 4 = (if bit (a.p 32 4) (testBlock i) then (ms.find? (fun e => e.1 == i)).elim 0xFF800000#32 (fun e => e.2)
        else 0xFF800000#32).toNat) ∧ otherObjectsKept s t 1 ∧ otherCommandsKept s t cid) ∧
  (∀ (cid us b : Nat) (passed : BitVec 32) (ms : List (Nat × BitVec 32)) (a : Adm) (s : State), running s cid 0x707 = some a →
    s.boot.kindling = false → b < 20 → bit (a.p 32 4) b = true → inService s b = true →
    exec (.selfTest cid passed us ms) s = .next (finish s cid (.bare stBusyMode))) ∧
  (∀ (cid k : Nat) (a : Adm) (s : State), running s cid 0x708 = some a → s.boot.kindling = true → a.cmd.origin = .host k →
    s.sched.admitted.all (fun b => b.cmd.opcode != 0x800 && b.cmd.opcode != 0x707) = true →
    exec (.kindlingExit cid) s = .next (finish { s with boot := { s.boot with failCount := 0, exitPending := some k } } cid {})) ∧
  (∀ (cid : Nat) (a : Adm) (s : State), running s cid 0x708 = some a → s.boot.kindling = false →
    exec (.kindlingExit cid) s = .next (finish s cid (.bare stBusyMode)))

/-- R147, R148, R397, R415, R530: groups, composition from the host, and the ports' status. -/
def Obligations.GroupsComposeAndPortStatus : Prop :=
  (∀ (cid oid : Nat) (a : Adm) (s u : State), running s cid 0x600 = some a →
    (memberList a.cmd).getD (a.p 34 2) 65536 = s.fabric.node.toNat →
    createObj s a.cmd.fn (.group (memberList a.cmd) (a.p 34 2)) 0 [] 0 (fun _ => false) (some cid) = some (u, oid) →
    ∃ t o, exec (.groupCreate cid) s = .next t ∧ objOf t oid = some o ∧ o.kind = .group (memberList a.cmd) (a.p 34 2) ∧
      o.fn = a.cmd.fn ∧ o.destroyed = false ∧ o.frames = [] ∧
      doneWith t cid (fun r => r.status = stOk ∧ r.value = BitVec.ofNat 32 oid) ∧ otherObjectsKept s t oid ∧
      otherCommandsKept s t cid) ∧
  (∀ (cid : Nat) (a : Adm) (s : State), running s cid 0x600 = some a →
    (memberList a.cmd).getD (a.p 34 2) 65536 ≠ s.fabric.node.toNat →
    exec (.groupCreate cid) s = .next (finish s cid (.bare stInvalidParam))) ∧
  (∀ (cid : Nat) (a : Adm) (o : Obj) (s : State), running s cid 0x601 = some a → target s a (a.p 32 4) = .own o →
    o.isGroup = true →
    ∃ t, exec (.groupDestroy cid) s = .next t ∧ liveObj t (a.p 32 4) = none ∧ otherObjectsKept s t (a.p 32 4) ∧
      doneWith t cid (· = {}) ∧ otherCommandsKept s t cid ∧ t.fns = s.fns) ∧
  (∀ (cid : Nat) (a : Adm) (o : Obj) (s : State), running s cid 0x601 = some a → target s a (a.p 32 4) = .own o →
    o.isGroup = false → exec (.groupDestroy cid) s = .next (finish s cid (.bare stInvalidParam))) ∧
  (∀ (cid : Nat) (a : Adm) (m : List Byte) (s : State), running s cid 0x604 = some a → m = slice (a.cmd.packet.drop 32) 0 64 →
    composeOk m = true → field m 0 1 = 1 → (a.has 30 = true ∨ s.fabric.cseq.toNat < field m 4 4) →
    exec (.compose cid) s = .next (finish { s with fabric := { s.fabric with
      node := BitVec.ofNat 16 (field m 8 2)
      runtime := BitVec.ofNat 16 (field m 10 2)
      reportMs := BitVec.ofNat 32 (field m 12 4)
      cseq := if a.has 30 then s.fabric.cseq + 1 else BitVec.ofNat 32 (field m 4 4) } } cid {})) ∧
  (∀ (cid : Nat) (a : Adm) (m : List Byte) (s : State), running s cid 0x604 = some a → m = slice (a.cmd.packet.drop 32) 0 64 →
    composeOk m = true → a.has 30 = false → field m 4 4 ≤ s.fabric.cseq.toNat → (field m 0 1 ≠ 4 ∨ field m 4 4 ≠ 0) →
    exec (.compose cid) s = .next (finish s cid {})) ∧
  (∀ (cid : Nat) (a : Adm) (s : State), running s cid 0x604 = some a → composeOk (slice (a.cmd.packet.drop 32) 0 64) = false →
    exec (.compose cid) s = .next (finish s cid (.bare stInvalidParam))) ∧
  (∀ (cid : Nat) (a : Adm) (s : State), running s cid 0x606 = some a →
    exec (.portStatus cid) s = .next (finish s cid { data := (List.range 12).flatMap (fun p => portEntry (portOf s p)) })) ∧
  (∀ x : Port, (portEntry x).length = 16)

/-- R147-R150, R395, R396, R403-R405, R409: the commands whose work is on other nodes too. -/
def Obligations.CommandsOverTheFabric : Prop :=
  (∀ (cid : Nat) (a : Adm) (o : Obj) (s : State), running s cid 0x603 = some a → readsAs (target s a (a.p 36 4)) o →
    o.kind = .data → a.p 40 8 + a.carried.length ≤ pinnedSize a (a.p 36 4) o →
    rangeBad .any o (pinnedVer a (a.p 36 4)) (a.p 40 8) a.carried.length = false →
    reachable s 1 (a.p 32 2) a.cmd.fn (cid % 2 ^ 32) = true →
    ∃ t b r q e, e = domainEpoch s a.cmd.fn (field a.carried 32 4) ∧ exec (.fabricRequest cid) s = .next t ∧ findAdm t cid = some b ∧ b.phase = .waitReply (a.p 32 2) ∧
      r ∈ t.fabric.retained ∧ r.dst = a.p 32 2 ∧ r.seq = q ∧
      r.em = .packet 1 (a.p 32 2) a.cmd.fn (sendKeyId s 1 a.cmd.fn) q e (cid % 2 ^ 32) 0 true false [remainingUs s a] (carriedOut a) ∧
      otherCommandsKept s t cid ∧ t.space = s.space ∧ t.fns = s.fns) ∧
  (∀ (cid : Nat) (a : Adm) (o : Obj) (s : State), running s cid 0x603 = some a → readsAs (target s a (a.p 36 4)) o →
    o.kind = .data → a.p 40 8 + a.carried.length ≤ pinnedSize a (a.p 36 4) o →
    rangeBad .any o (pinnedVer a (a.p 36 4)) (a.p 40 8) a.carried.length = false →
    reachable s 1 (a.p 32 2) a.cmd.fn (cid % 2 ^ 32) = false →
    exec (.fabricRequest cid) s = .next (finish s cid (.bare stInternal))) ∧
  (∀ (a : Adm) (d : Nat) (s : State), a.cmd.deadline = some d → remainingUs s a = max 1 (ceilDiv (d - now s) 100)) ∧
  (∀ (cid self : Nat) (a : Adm) (g so o : Obj) (members : List Nat) (s : State), running s cid 0x602 = some a →
    target s a (a.p 32 4) = .own g → g.kind = .group members self → a.p 36 1 = 0 → a.p 38 2 < members.length →
    self ≠ a.p 38 2 → collOf s a.cmd.fn members (a.p 76 4) = none → readsAs (target s a (a.p 40 4)) so → so.kind = .data →
    0 < a.p 64 8 → a.p 64 8 < 4080 → a.p 64 8 % 4 = 0 → a.p 48 8 + a.p 64 8 ≤ pinnedSize a (a.p 40 4) so →
    rangeBad .any so (pinnedVer a (a.p 40 4)) (a.p 48 8) (a.p 64 8) = false → target s a (a.p 44 4) = .own o → o.kind = .data →
    a.p 44 4 ≠ 0 → a.p 56 8 + a.p 64 8 ≤ pinnedSize a (a.p 44 4) o →
    reachable s 3 (members.getD (a.p 38 2) 0) a.cmd.fn (a.p 76 4) = true →
    ∃ t b c r q, exec (.collective cid) s = .next t ∧ findAdm t cid = some b ∧ b.phase = .waitCollective ∧
      collOf t a.cmd.fn members (a.p 76 4) = some c ∧ c.begun = true ∧ c.cid = some cid ∧
      c.own = (pinnedBytes a (a.p 40 4) so).readBytes (a.p 48 8) (a.p 64 8) ∧
      r ∈ t.fabric.retained ∧ r.dst = members.getD (a.p 38 2) 0 ∧ r.seq = q ∧
      r.em = .packet 3 (members.getD (a.p 38 2) 0) a.cmd.fn (sendKeyId s 3 a.cmd.fn) q (fnOf s a.cmd.fn).shareEpoch (a.p 76 4) 0 true false []
        (collHead 0 (a.p 38 2) (a.p 64 8) (a.p 72 4) ++ c.own) ∧
      otherCommandsKept s t cid ∧ t.space = s.space ∧ t.fns = s.fns) ∧
  (∀ (n : Nat) (ps : List (List Byte)), foldParts (4 * n) ps =
    (ps.foldl (fun acc p => (acc.zip (words p)).map (fun e => fadd e.1 e.2)) (List.replicate n 0)).flatMap (fun w => toLE 4 w.toNat)) ∧
  (∀ (cid : Nat) (a : Adm) (o : Obj) (s : State), running s cid 0x605 = some a → migrateBusy s a = false →
    liveObj s (a.p 32 4) = some o → domainKindOk (a.p 36 1) o = true → a.p 36 1 ≠ 2 →
    (domainEpoch s (oidFn (a.p 32 4)) (a.p 32 4)).toNat < a.p 40 4 →
    reachable s 5 (a.p 38 2) (oidFn (a.p 32 4)) (a.p 32 4) = true → s.glaesh.nodeKey.isSome = true →
    ∃ t b r q, exec (.migrate cid) s = .next t ∧ findAdm t cid = some b ∧ b.phase = .waitMigrate ∧
      r ∈ t.fabric.retained ∧ r.dst = a.p 38 2 ∧ r.seq = q ∧
      r.em = .packet 7 (a.p 38 2) (oidFn (a.p 32 4)) 0 q (BitVec.ofNat 32 (a.p 40 4)) (a.p 32 4) 0 true false
        [oidFn (a.p 32 4), a.p 32 4, a.p 40 4, a.p 38 2] [] ∧
      otherCommandsKept s t cid ∧ t.space = s.space ∧ t.fns = s.fns) ∧
  (∀ (cid : Nat) (a : Adm) (o : Obj) (s : State), findAdm s cid = some a → a.phase = .waitMigrate → a.cmd.opcode = 0x605 →
    (domainEpoch s (oidFn (a.p 32 4)) (a.p 32 4)).toNat < a.p 40 4 → objOf s (a.p 32 4) = some o → o.destroyed = false →
    o.fn = oidFn (a.p 32 4) → oidSerial (a.p 32 4) ≠ 0 →
    ∃ t d, exec (.cutover cid) s = .next t ∧ domainOf t (oidFn (a.p 32 4)) (a.p 32 4) = some d ∧
      d.epoch = BitVec.ofNat 32 (a.p 40 4) ∧ d.node = BitVec.ofNat 16 (a.p 38 2) ∧ liveObj t (a.p 32 4) = none ∧
      otherObjectsKept s t (a.p 32 4) ∧ doneWith t cid (· = {}) ∧
      (∀ c, c ≠ cid → (findAdm t c).map (fun b => (b.cmd, b.phase, b.merged, b.pins)) =
        (findAdm s c).map (fun b => (b.cmd, b.phase, b.merged, b.pins))))

/-- R388-R392, R394, R396, R399, R415, R449: the rows of a port; where nothing waits to leave them, the other ports stay as they
are. -/
def Obligations.PortsTrainAndCarryFlits : Prop :=
  (∀ (p : Nat) (s : State), (portOf s p).state = .detect →
    exec (.portDetect p) s = .next (updPort s p (fun x => { x with state := .equalise }))) ∧
  (∀ (p w : Nat) (lanes : BitVec 4) (s : State), (portOf s p).state = .equalise →
    ((w = 4 ∧ lanes = 15 ∧ strapTwoLanes s.boot = false) ∨
     (w = 2 ∧ lanes.getLsbD 0 = true ∧ lanes.getLsbD 1 = true ∧ (lanes ≠ 15 ∨ strapTwoLanes s.boot = true)) ∨
     (w = 1 ∧ lanes.getLsbD 0 = true ∧ lanes.getLsbD 1 = false)) →
    exec (.equaliseEnd p lanes) s = .next (updPort s p (fun x => { x with state := .align, width := w }))) ∧
  (∀ (p : Nat) (lanes : BitVec 4) (s : State), (portOf s p).state = .equalise → lanes.getLsbD 0 = false →
    ∃ t, exec (.equaliseEnd p lanes) s = .next t ∧ wentDown s t p) ∧
  (∀ (p : Nat) (peer : BitVec 16) (s : State), (portOf s p).state = .align → ∃ t, exec (.alignEnd p peer) s = .next t ∧
    (portOf t p).state = .active ∧ (portOf t p).peer = peer ∧ (portOf t p).width = (portOf s p).width ∧
    (∀ q, q ≠ p → portOf t q = portOf s q) ∧
    (∀ dst, p < 12 → (AMap.getD s.fabric.routes dst 0).getLsbD p = true → p ∈ routePorts t dst)) ∧
  (∀ (p : Nat) (s : State), ((portOf s p).state = .detect ∨ (portOf s p).state = .equalise ∨ (portOf s p).state = .align) →
    (portOf s p).since + 20000000 < 2 ^ 64 →
    ∃ t, exec (.portTrainTimeout p) s = .next t ∧ wentDown s t p ∧ now t = max (now s) ((portOf s p).since + 20000000)) ∧
  (∀ (p : Nat) (s : State), (portOf s p).state = .down → (portOf s p).since + 100000000 < 2 ^ 64 →
    ∃ t, exec (.portDownRetry p) s = .next t ∧ now t = max (now s) ((portOf s p).since + 100000000) ∧
      portOf t p = { portOf s p with state := .detect, since := now t } ∧ (∀ q, q ≠ p → portOf t q = portOf s q)) ∧
  (∀ (p : Nat) (s : State), (portOf s p).state = .active → ∃ t, exec (.retrain p) s = .next t ∧
    portOf t p = { portOf s p with state := .retrain, retrains := satAdd (portOf s p).retrains 1, badFlits := [] } ∧
    (∀ q, q ≠ p → portOf t q = portOf s q) ∧ (∀ dst, p ∉ routePorts t dst) ∧ t.fabric.retained = s.fabric.retained) ∧
  (∀ (p : Nat) (s : State), (portOf s p).state = .retrain →
    (∃ t, exec (.retrainEnd p false) s = .next t ∧ wentDown s t p) ∧
    ∃ t, exec (.retrainEnd p true) s = .next t ∧ (portOf t p).state = .active ∧ (portOf t p).peer = (portOf s p).peer ∧
      (∀ q, (portOf s p).held.head? = some q → .replayFrom p q ∈ t.sent) ∧ (∀ q, q ≠ p → portOf t q = portOf s q)) ∧
  (∀ (p : Nat) (fl : Flit) (bad : List Nat) (s : State), (portOf s p).state = .active → 8 < fl.byteErrors →
    bad = now s :: (portOf s p).badFlits.filter (fun n => decide (now s < n + 100000)) →
    (bad.length < 8 → 0 < (portOf s p).ctrlCredits → ∃ t, exec (.flitReceive p fl) s = .next t ∧ portOf t p = { portOf s p with
        badFlits := bad, discarding := true, ctrlCredits := (portOf s p).ctrlCredits - 1, askOwed := none
        replays := satAdd (portOf s p).replays 1 } ∧
      t.sent = s.sent ++ [.replayAsk p (portOf s p).rxFseq] ∧ (∀ q, q ≠ p → portOf t q = portOf s q)) ∧
    (bad.length < 8 → (portOf s p).ctrlCredits = 0 → exec (.flitReceive p fl) s = .next (updPort s p (fun x => { x with
      badFlits := bad, discarding := true, askOwed := some x.rxFseq }))) ∧
    (8 ≤ bad.length → ∃ t, exec (.flitReceive p fl) s = .next t ∧ (portOf t p).state = .retrain ∧ (portOf t p).badFlits = [] ∧
      (∀ q, q ≠ p → portOf t q = portOf s q))) ∧
  (∀ (p : Nat) (fl : Flit) (s : State), (portOf s p).state = .active → fl.byteErrors ≤ 8 → fl.kind = 1 →
    fl.fseq = (portOf s p).rxFseq → ∃ t, exec (.flitReceive p fl) s = .next t ∧
      portOf t p = countDrop { portOf s p with
        corrected := if fl.byteErrors = 0 then (portOf s p).corrected else satAdd (portOf s p).corrected 1
        rxFseq := (portOf s p).rxFseq + 1
        discarding := false } fl.ends ∧ t.sent = s.sent ∧ (∀ q, q ≠ p → portOf t q = portOf s q)) ∧
  (∀ (p : Nat) (fl : Flit) (s : State), (portOf s p).state = .active → fl.byteErrors = 0 → fl.fseq ≠ (portOf s p).rxFseq →
    exec (.flitReceive p fl) s = .next s) ∧
  (∀ (x : Port), countDrop x (some .badCrc) = { x with crcDrops := satAdd x.crcDrops 1 } ∧
    countDrop x (some .badTag) = { x with tagDrops := satAdd x.tagDrops 1 } ∧
    countDrop x (some .badKind) = { x with tagDrops := satAdd x.tagDrops 1 } ∧ countDrop x (some .good) = x ∧ countDrop x none = x) ∧
  (∀ (p : Nat) (q : BitVec 16) (s : State), q ∈ (portOf s p).held →
    exec (.replayRequest p q) s = .next (emit s (.replayFrom p q))) ∧
  (∀ (p n : Nat) (s : State),
    ((portOf s p).askOwed = none → exec (.creditReturn p true n) s =
      .next (updPort s p (fun x => { x with ctrlCredits := min 4096 (x.ctrlCredits + n) }))) ∧
    (∀ q, (portOf s p).askOwed = some q → 0 < (portOf s p).ctrlCredits + n → ∃ t, exec (.creditReturn p true n) s = .next t ∧
      t.sent = s.sent ++ [.replayAsk p q] ∧ (portOf t p).askOwed = none ∧
      (portOf t p).ctrlCredits = min 4096 ((portOf s p).ctrlCredits + n) - 1 ∧ (∀ q, q ≠ p → portOf t q = portOf s q))) ∧
  (∀ (p n : Nat) (s : State), outQueue s p = [] → exec (.creditReturn p false n) s =
    .next (updPort s p (fun x => { x with dataCredits := min 4096 (x.dataCredits + n) }))) ∧
  (∀ (x : Port) (rs : List Retained) (r : Retained), nextOut x rs = some r →
    r ∈ rs ∧ (r.forNode = false → ∀ q ∈ rs, q.forNode = false)) ∧
  (∀ (p : Nat) (r : Retained) (v : BitVec 64) (s : State), r.forNode = false → v = (egressTags (portOf s p) r.fn).1 →
    (portOf (chargeEgress s p r) p).egressV = v ∧
    egressTags (portOf (chargeEgress s p r) p) r.fn = (v + BitVec.ofNat 64 (r.units * increment (fnOf s r.fn)),
      v + BitVec.ofNat 64 (r.units * increment (fnOf s r.fn)))) ∧
  (∀ (p q : Nat) (g : Port → Port) (s : State), portOf (updPort s p g) q = if q = p then g (portOf s p) else portOf s q)

/-- R395, R397, R414, R429, R430: the duplicate window, and what a duplicate or a packet without its key does. -/
def Obligations.PacketsArriveOnce : Prop :=
  (∀ (f key src : Nat) (q : BitVec 32) (s t : State), takeSeq s f key src q = some t → takeSeq t f key src q = none) ∧
  (∀ (f key src g key' src' : Nat) (q q' : BitVec 32) (s t : State), takeSeq s f key src q = some t → src' ≠ src →
    (takeSeq t g key' src' q').isSome = (takeSeq s g key' src' q').isSome) ∧
  (∀ (c : Instr) (p : Packet) (us member : Nat) (fs : ReplyFields) (ms : List Nat) (s : State),
    (c = .request p us ∨ c = .reply p fs ∨ c = .contribution p ms member ∨ c = .delivery p ms ∨ c = .push p) →
    s.fabric.node ≠ 0xFFFF → (fnOf s p.fn).rxKeys.any (·.1 == p.keyId) = true → p.compressed = false →
    takeSeq s p.fn p.keyId p.src p.seq = none → exec c s = .next (ackPacket s p.src p.fn p.seq)) ∧
  (∀ (c : Instr) (p : Packet) (us member : Nat) (fs : ReplyFields) (ms : List Nat) (s : State),
    (c = .request p us ∨ c = .reply p fs ∨ c = .contribution p ms member ∨ c = .delivery p ms ∨ c = .push p) →
    (s.fabric.node = 0xFFFF → exec c s = .next s) ∧
    (s.fabric.node ≠ 0xFFFF → (fnOf s p.fn).rxKeys.any (·.1 == p.keyId) = false →
      exec c s = .next (updPort s p.port (fun x => { x with tagDrops := satAdd x.tagDrops 1 })))) ∧
  (∀ (src fn domain : Nat) (q epoch : BitVec 32) (node : BitVec 16) (s : State), s.fabric.node ≠ 0xFFFF →
    s.glaesh.nodeKey.isSome = true → takeSeq s nodeKeyFn 0 src q = none →
    exec (.moved src q fn domain epoch node) s = .next (ackPacket s src 0 q)) ∧
  (∀ (c : Instr) (src fn first : Nat) (q cseq features domain epoch ms : BitVec 32) (a b m : BitVec 16) (g : Option Nat)
    (s : State), (c = .node src q cseq a b ms ∨ c = .route src q cseq a b m ∨ c = .tenant src q cseq fn features ∨
      c = .epoch src q cseq first domain epoch a ∨ c = .drain src q cseq g ∨ c = .undrain src q cseq g) →
    (s.glaesh.compKey = none → exec c s = .next s) ∧
    (s.glaesh.compKey.isSome = true → takeSeq s compKeyFn 0 src q = none → exec c s = .next (ackPacket s src 0 q)))

/-- R149, R395, R396, R403-R405, R410, R412: the packet rows on a packet whose number is accepted. -/
def Obligations.PacketsDoTheirWork : Prop :=
  (∀ (p : Packet) (us : Nat) (s s' : State), s.fabric.node ≠ 0xFFFF → (fnOf s p.fn).rxKeys.any (·.1 == p.keyId) = true →
    p.compressed = false → takeSeq s p.fn p.keyId p.src p.seq = some s' → p.last = true → p.offset = 0 → s.fabric.inbox = [] →
    field p.payload 0 2 ≠ 0xFFFF → movedDomain s p.fn p.epoch [shareDomain p.fn, field p.payload 32 4] = none → (fnOf s p.fn).flr = false →
    ∃ t c, exec (.request p us) s = .next t ∧ (fnOf t p.fn).fabQ = (fnOf s p.fn).fabQ ++ [c] ∧ c.fn = p.fn ∧
      c.packet = p.payload ∧ c.origin = .fabric p.src p.ctx ∧ c.commit = now s ∧
      c.deadline = (if us = 0 then none else some (now s + 100 * us)) ∧ t.sched.admitted = s.sched.admitted ∧
      t.space = s.space ∧ t.fabric.inbox = []) ∧
  (∀ (p : Packet) (fs : ReplyFields) (a : Adm) (s s' : State), s.fabric.node ≠ 0xFFFF →
    (fnOf s p.fn).rxKeys.any (·.1 == p.keyId) = true → p.compressed = false →
    takeSeq s p.fn p.keyId p.src p.seq = some s' → p.last = true → p.offset = 0 → s.fabric.inbox = [] →
    s.sched.admitted.all (fun b => b.phase != .waitMigrate) = true → replyFor s p.src p.fn p.ctx = some a →
    findAdm s a.cmd.cid = some a →
    ∃ t, exec (.reply p fs) s = .next t ∧ otherCommandsKept s t a.cmd.cid ∧ t.space = s.space ∧ t.fns = s.fns ∧
      doneWith t a.cmd.cid (· = ⟨BitVec.ofNat 8 fs.status.toNat, BitVec.ofNat 8 fs.rflags.toNat, BitVec.ofNat 32 fs.count.toNat,
        BitVec.ofNat 32 fs.invalid.toNat, BitVec.ofNat 32 fs.version.toNat, BitVec.ofNat 32 fs.value.toNat, p.payload⟩)) ∧
  (∀ (p : Packet) (ms : List Nat) (member : Nat) (s s' : State), s.fabric.node ≠ 0xFFFF →
    (fnOf s p.fn).rxKeys.any (·.1 == p.keyId) = true → p.compressed = false →
    takeSeq s p.fn p.keyId p.src p.seq = some s' → field p.payload 0 1 < 5 → p.epoch = (fnOf s p.fn).shareEpoch →
    collOf s p.fn ms p.ctx = none → (p.fn, ms, p.ctx, member) ∉ s.fabric.late → heldBytes s + p.payload.length ≤ 67108864 →
    ∃ t c, exec (.contribution p ms member) s = .next t ∧ collOf t p.fn ms p.ctx = some c ∧ c.begun = false ∧
      c.parts = [(member, p.offset, p.payload.drop 16)] ∧ c.kind = field p.payload 0 1 ∧ c.root = field p.payload 2 2 ∧
      c.len = field p.payload 4 8 ∧ c.k = field p.payload 12 4 ∧ t.sched = s.sched ∧ t.space = s.space ∧ t.fns = s.fns) ∧
  (∀ (p : Packet) (ms : List Nat) (member : Nat) (s s' : State), s.fabric.node ≠ 0xFFFF →
    (fnOf s p.fn).rxKeys.any (·.1 == p.keyId) = true → p.compressed = false →
    takeSeq s p.fn p.keyId p.src p.seq = some s' → field p.payload 0 1 < 5 → p.epoch ≠ (fnOf s p.fn).shareEpoch →
    heldBytes s + p.payload.length ≤ 67108864 →
    ∃ t, exec (.contribution p ms member) s = .next t ∧ t.fabric.colls = s.fabric.colls ∧
      t.fabric.rejected = satAdd s.fabric.rejected 1 ∧ t.sched = s.sched ∧ t.space = s.space) ∧
  (∀ (p : Packet) (ms : List Nat) (member : Nat) (s : State), 67108864 < heldBytes s + p.payload.length →
    (fnOf s p.fn).rxKeys.any (·.1 == p.keyId) = true → p.compressed = false →
    field p.payload 0 1 ≠ 5 → (collOf s p.fn ms p.ctx).any (·.begun) = false → (takeSeq s p.fn p.keyId p.src p.seq).isSome = true →
    exec (.contribution p ms member) s = .next s) ∧
  (∀ (p : Packet) (ms : List Nat) (c : Coll) (a : Adm) (o : Obj) (v : Version) (cid : Nat) (s s' : State),
    s.fabric.node ≠ 0xFFFF → (fnOf s p.fn).rxKeys.any (·.1 == p.keyId) = true → p.compressed = false →
    takeSeq s p.fn p.keyId p.src p.seq = some s' → collOf s p.fn ms p.ctx = some c → c.begun = true → c.kind = 0 →
    c.self ≠ c.root → c.delivered = false → c.got = [] → p.last = true → p.offset = 0 → c.cid = some cid →
    findAdm s cid = some a → a.p 44 4 ≠ 0 → target s a (a.p 44 4) = .own o → o.kind = .data → o.current = 0 →
    verOf o 0 = some v → v.bytes.wf → a.p 56 8 + p.payload.length ≤ v.size →
    (∀ g ∈ rangeGranules (a.p 56 8) p.payload.length, ∃ fr, frameOf o v g = some fr ∧ fr.tier = .near ∧ fr.lost = false) →
    ∃ t o' v', exec (.delivery p ms) s = .next t ∧ collOf t p.fn ms p.ctx = none ∧ doneWith t cid (· = {}) ∧
      otherCommandsKept s t cid ∧ objOf t (a.p 44 4) = some o' ∧ verOf o' 0 = some v' ∧ v'.size = v.size ∧
      (∀ i, i < p.payload.length → Mem.read v'.bytes (a.p 56 8 + i) = p.payload.getD i 0) ∧
      (∀ x, x < a.p 56 8 ∨ a.p 56 8 + p.payload.length ≤ x → Mem.read v'.bytes x = Mem.read v.bytes x) ∧
      otherObjectsKept s t (a.p 44 4)) ∧
  (∀ (p : Packet) (s s' : State), s.fabric.node ≠ 0xFFFF → (fnOf s p.fn).rxKeys.any (·.1 == p.keyId) = true →
    p.compressed = false → takeSeq s p.fn p.keyId p.src p.seq = some s' → p.epoch = 0 → streamFor s p.fn p.ctx = none →
    p.offset + p.payload.length ≤ 16777216 → heldBytes s + p.payload.length ≤ 67108864 →
    ∃ t st, exec (.push p) s = .next t ∧ streamFor t p.fn p.ctx = some st ∧ st.parts = [(p.offset, false, p.payload)] ∧
      st.last = (if p.last then some (p.offset + p.payload.length) else none) ∧ st.discarded = false ∧
      t.sched = s.sched ∧ t.space = s.space ∧ t.fns = s.fns) ∧
  (∀ (src : Nat) (seqs : List (BitVec 32)) (s : State), s.fabric.node ≠ 0xFFFF → s.glaesh.nodeKey.isSome = true →
    s.fabric.colls = [] → exec (.ack src seqs) s = .next { s with fabric := { s.fabric with
      retained := s.fabric.retained.filter (fun r => !(r.dst == src && seqs.contains r.seq))
      unreachable := s.fabric.unreachable.filter (· != src) } }) ∧
  (∀ (src fn domain : Nat) (q epoch : BitVec 32) (node : BitVec 16) (s s' : State), s.fabric.node ≠ 0xFFFF →
    s.glaesh.nodeKey.isSome = true → takeSeq s nodeKeyFn 0 src q = some s' → node ≠ s.fabric.node →
    ∃ t, exec (.moved src q fn domain epoch node) s = .next t ∧
      ((domainEpoch s fn domain).toNat < epoch.toNat → ∃ d, domainOf t fn domain = some d ∧ d.epoch = epoch ∧ d.node = node ∧
        d.old = domainEpoch s fn domain ∧ d.owed = true) ∧
      (epoch.toNat ≤ (domainEpoch s fn domain).toNat → t.fabric.domains = s.fabric.domains))

/-- R396-R400: the composition rows on a packet whose number is accepted. -/
def Obligations.CompositionApplies : Prop :=
  (∀ (src : Nat) (q cseq ms : BitVec 32) (n rt : BitVec 16) (s s' : State), s.glaesh.compKey.isSome = true →
    takeSeq s compKeyFn 0 src q = some s' → s.fabric.cseq.toNat < cseq.toNat → n.toNat ≤ 4095 → 10 ≤ ms.toNat → ms.toNat ≤ 10000 →
    ∃ t, exec (.node src q cseq n rt ms) s = .next t ∧ t.fabric.node = n ∧ t.fabric.runtime = rt ∧ t.fabric.reportMs = ms ∧
      t.fabric.cseq = cseq ∧ t.fabric.routes = s.fabric.routes ∧ t.fns = s.fns ∧ t.sched = s.sched ∧ t.space = s.space) ∧
  (∀ (src : Nat) (q cseq : BitVec 32) (first count mask : BitVec 16) (s s' : State), s.glaesh.compKey.isSome = true →
    takeSeq s compKeyFn 0 src q = some s' → s.fabric.cseq.toNat < cseq.toNat → 1 ≤ count.toNat → count.toNat ≤ 4096 →
    first.toNat + count.toNat ≤ 4096 → mask.toNat < 4096 →
    ∃ t, exec (.route src q cseq first count mask) s = .next t ∧ t.fabric.cseq = cseq ∧
      (∀ d, AMap.getD t.fabric.routes d 0 =
        if first.toNat ≤ d ∧ d < first.toNat + count.toNat then mask else AMap.getD s.fabric.routes d 0) ∧
      (∀ d, d ∈ t.fabric.unreachable ↔ d ∈ s.fabric.unreachable ∧
        ¬(first.toNat ≤ d ∧ d < first.toNat + count.toNat ∧ routePorts t d ≠ [])) ∧
      t.fabric.node = s.fabric.node ∧ t.fns = s.fns ∧ t.sched = s.sched ∧ t.space = s.space) ∧
  (∀ (src fn : Nat) (q cseq features : BitVec 32) (s s' : State), s.glaesh.compKey.isSome = true →
    takeSeq s compKeyFn 0 src q = some s' → s.fabric.cseq.toNat < cseq.toNat →
    ∃ t, exec (.tenant src q cseq fn features) s = .next t ∧ fnOf t fn = { fnOf s fn with tenant := some features } ∧
      (∀ g, g ≠ fn → fnOf t g = fnOf s g) ∧ t.fabric.cseq = cseq) ∧
  (∀ (src fn : Nat) (q cseq domain e : BitVec 32) (node : BitVec 16) (s s' : State), s.glaesh.compKey.isSome = true →
    takeSeq s compKeyFn 0 src q = some s' → (cseq = 0 ∨ s.fabric.cseq.toNat < cseq.toNat) →
    ∃ t, exec (.epoch src q cseq fn domain e node) s = .next t ∧
      t.fabric.cseq = (if cseq = 0 then s.fabric.cseq else cseq) ∧
      ((domainEpoch s fn domain.toNat).toNat < e.toNat →
        ∃ d, domainOf t fn domain.toNat = some d ∧ d.epoch = e ∧ d.node = node ∧ d.owed = true) ∧
      (e.toNat ≤ (domainEpoch s fn domain.toNat).toNat → t.fabric.domains = s.fabric.domains)) ∧
  (∀ (c : Instr) (on : Bool) (src fn : Nat) (q cseq : BitVec 32) (s s' : State),
    ((c = .drain src q cseq (some fn) ∧ on = true) ∨ (c = .undrain src q cseq (some fn) ∧ on = false)) →
    s.glaesh.compKey.isSome = true → takeSeq s compKeyFn 0 src q = some s' → s.fabric.cseq.toNat < cseq.toNat →
    ∃ t, exec c s = .next t ∧ fnOf t fn = { fnOf s fn with drained := on } ∧ (∀ g, g ≠ fn → fnOf t g = fnOf s g) ∧
      t.fabric.cseq = cseq ∧ t.sched = s.sched) ∧
  (∀ (c : Instr) (on : Bool) (src f : Nat) (q cseq : BitVec 32) (s s' : State),
    ((c = .drain src q cseq none ∧ on = true) ∨ (c = .undrain src q cseq none ∧ on = false)) → f < 256 →
    s.glaesh.compKey.isSome = true → takeSeq s compKeyFn 0 src q = some s' → s.fabric.cseq.toNat < cseq.toNat →
    ∃ t, exec c s = .next t ∧ fnOf t f = { fnOf s f with drained := on } ∧ t.fabric.cseq = cseq) ∧
  (∀ (c : Instr) (src fn : Nat) (q cseq features domain e ms : BitVec 32) (a b m : BitVec 16) (g : Option Nat) (s s' : State),
    (c = .node src q cseq a b ms ∨ c = .route src q cseq a b m ∨ c = .tenant src q cseq fn features ∨
      (c = .epoch src q cseq fn domain e a ∧ cseq ≠ 0) ∨ c = .drain src q cseq g ∨ c = .undrain src q cseq g) →
    s.glaesh.compKey.isSome = true → takeSeq s compKeyFn 0 src q = some s' → cseq.toNat ≤ s.fabric.cseq.toNat →
    exec c s = .next (ackPacket s' src 0 q))

/-- R149, R395, R396, R402, R408, R411, R413, R528: the fabric's timers. -/
def Obligations.FabricTimersAct : Prop :=
  (∀ (dst p : Nat) (q : BitVec 32) (r : Retained) (s : State),
    s.fabric.retained.filter (fun x => x.dst == dst && x.seq == q) = [r] → r.sends ≠ 0 → r.sends < 8 → r.again = false → r.once = false →
    routePorts s dst = [p] → outQueue s p = [] → r.flits ≤ (portOf s p).dataCredits → r.sentAt + 5000 < 2 ^ 64 →
    ∃ t x, exec (.retransmitTimeout dst q) s = .next t ∧ t.sent = s.sent ++ [r.em] ∧ x ∈ t.fabric.retained ∧
      now t = max (now s) (r.sentAt + 5000) ∧ x = { r with sends := r.sends + 1, port := p, sentAt := now t } ∧
      (portOf t p).dataCredits = (portOf s p).dataCredits - r.flits ∧
      (∀ y ∈ s.fabric.retained, ¬(y.dst = dst ∧ y.seq = q) → y ∈ t.fabric.retained) ∧ t.fabric.unreachable = s.fabric.unreachable ∧
      t.sched = s.sched) ∧
  (∀ (dst : Nat) (q : BitVec 32) (r : Retained) (s : State),
    s.fabric.retained.find? (fun r => r.dst == dst && r.seq == q && r.sends != 0) = some r → 8 ≤ r.sends → s.fabric.colls = [] →
    ∃ t, exec (.retransmitTimeout dst q) s = .next t ∧ dst ∈ t.fabric.unreachable ∧ (∀ x ∈ t.fabric.retained, x.dst ≠ dst) ∧
      t.fabric.unreachableCount = satAdd s.fabric.unreachableCount 1 ∧ (∀ kind f ctx, reachable t kind dst f ctx = false) ∧
      (∀ cid a, findAdm s cid = some a → a.phase = .waitReply dst → doneWith t cid (· = .bare stInternal)) ∧
      (∀ cid a, findAdm s cid = some a → a.phase ≠ .waitReply dst → findAdm t cid = some a)) ∧
  (∀ (dst p : Nat) (s : State), dst ∈ s.fabric.unreachable → s.fabric.node ≠ 0xFFFF → s.glaesh.nodeKey.isSome = true →
    routePort s dst 0 0 = some p → 1 ≤ (portOf s p).dataCredits → outQueue s p = [] → (∀ x ∈ s.fabric.retained, x.dst ≠ dst) →
    ∃ t q, exec (.probe dst) s = .next t ∧ t.sent = s.sent ++ [.packet 9 dst 0 0 q 0 0 0 true false [] []] ∧
      t.fabric.retained = s.fabric.retained ∧ t.fabric.unreachable = s.fabric.unreachable ∧
      now t = now (recur s (.probe dst)) ∧ t.sched.admitted = s.sched.admitted) ∧
  (∀ s u : State, s.fabric.runtime ≠ 0xFFFF → reachable s 9 s.fabric.runtime.toNat 0 0 = true → u = recur s .report →
    ∃ t r q, exec .report s = .next t ∧ r ∈ t.fabric.retained ∧ r.dst = s.fabric.runtime.toNat ∧ r.seq = q ∧
      r.em = .packet 9 s.fabric.runtime.toNat 0 0 q 0 0 0 true false [] (reportBytes u 1 (healthRecord u)) ∧
      t.fabric.rseq = s.fabric.rseq + 1 ∧ t.sched.admitted = s.sched.admitted ∧ t.space = s.space) ∧
  (∀ s : State, s.fabric.runtime = 0xFFFF → exec .report s = .next s) ∧
  (∀ s : State, (healthRecord s).length = 64) ∧
  (∀ (fn domain : Nat) (d : Domain) (s : State), domainOf s fn domain = some d → d.owed = true →
    ∃ t, exec (.epochReport fn domain) s = .next t ∧ exec (.epochReport fn domain) t = .next t ∧
      domainOf t fn domain = some { d with owed := false, rejected := 0 } ∧ t.sched = s.sched ∧ t.space = s.space ∧
      (oldWork s d = false → t.time = s.time)) ∧
  (∀ (fn stream : Nat) (st : Stream) (s : State), streamFor s fn stream = some st → st.whole? = none →
    st.gained + 1000000000 < 2 ^ 64 →
    ∃ t, exec (.streamAbandon fn stream) s = .next t ∧ streamFor t fn stream = none ∧ now t = max (now s) (st.gained + 1000000000) ∧
      (∀ a ∈ s.sched.admitted, (a.cmd.opcode = 0x202 ∨ a.cmd.opcode = 0x401) → a.cmd.fn = fn → a.phase = .running →
        a.p 36 1 = 2 → a.p 56 4 = stream → doneWith t a.cmd.cid (· = .bare stInternal))) ∧
  (∀ (fn seq : Nat) (c : Coll) (sh issued : Nat) (d : List Byte) (no : Nat) (i : Instance) (s : State),
    s.fabric.colls.find? (fun c => c.fn == fn && c.seq == seq && c.begun &&
      c.desc.any (fun d => field d.2.1 44 4 != 0)) = some c → c.kind ≠ 5 → c.desc = some (sh, d, issued) →
    bit (field d 1 1) 0 = false → issued + 100 * field d 44 4 < 2 ^ 64 → no = (shuttleOf s sh).inst → AMap.get? s.prog.instances no = some i →
    (∀ n : Nat, shAddr (field d 48 8) = .weave n → inRegion i (sh / 128) n 16 = true) →
    ∃ t, exec (.collectiveDescriptorDeadline fn seq) s = .next t ∧ collOf t fn c.members seq = none ∧
      t.time.toNat = max s.time.toNat (issued + 100 * field d 44 4) ∧
      (∀ n, shAddr (field d 48 8) = .weave n →
        (loomOf t (sh / 128)).ws = (loomOf s (sh / 128)).ws.write n (lay 16 [(0, 4, 4), (4, 4, 0)])))

/-- R162, R163, R173, R181, R185, R188-R201: the rows of the peat tier. -/
def Obligations.FlashEventsEnd : Prop :=
  (∀ (d : Nat) (p : Program) (rest : List Program) (s : State), (dieOf s.flash d).programs = p :: rest → p.parity = false →
    p.moot = false → (∀ x ∈ s.flash.map, x.names p.obj p.ver p.gran = true → x.seq ≤ p.seq) →
    ∃ t, exec (.programComplete d true) s = .next t ∧
      locOf t.flash p.obj p.ver p.gran = some ⟨p.obj, p.ver, p.gran, d, p.set, p.page, p.stripe, p.seq⟩ ∧
      t.flash.journal = s.flash.journal ++ [⟨p.obj, p.ver, p.gran, d, p.set, p.page, p.stripe, p.seq⟩] ∧
      (∀ obj ver gran, ¬(obj = p.obj ∧ ver = p.ver ∧ gran = p.gran) → locOf t.flash obj ver gran = locOf s.flash obj ver gran) ∧
      t.space = s.space ∧ t.sched = s.sched ∧ t.fns = s.fns) ∧
  (∀ (d : Nat) (p : Program) (rest : List Program) (s : State), (dieOf s.flash d).programs = p :: rest → p.parity = false →
    p.moot = true → ∃ t, exec (.programComplete d true) s = .next t ∧ t.flash.map = s.flash.map ∧
      t.flash.journal = s.flash.journal ∧ t.space = s.space ∧ t.sched = s.sched ∧ t.fns = s.fns) ∧
  (∀ (d : Nat) (p : Program) (rest : List Program) (s : State), (dieOf s.flash d).programs = p :: rest → p.parity = true →
    ∃ t, exec (.programComplete d true) s = .next t ∧ t.flash.map = s.flash.map ∧ t.flash.journal = s.flash.journal ∧
      (∀ st ∈ t.flash.stripes, ¬(st.stripe = p.stripe ∧ st.page = p.stripePage)) ∧
      (blockSetOf (dieOf t.flash d) p.set).pages =
        (blockSetOf (dieOf s.flash d) p.set).pages ++ [(p.page, p.obj, p.ver, p.gran, p.seq)] ∧
      t.space = s.space ∧ t.sched = s.sched ∧ t.fns = s.fns ∧ t.draught = s.draught) ∧
  (∀ (d : Nat) (p : Program) (rest : List Program) (s : State), (dieOf s.flash d).programs = p :: rest →
    (dieOf s.flash d).failed = false → (blockSetOf (dieOf s.flash d) p.set).state ≠ .retired →
    Hours.total (dieOf s.flash d).retired24 < 63 →
    ∃ t, exec (.programComplete d false) s = .next t ∧ (blockSetOf (dieOf t.flash d) p.set).state = .retired ∧
      t.flash.retired = satAdd s.flash.retired 1 ∧ t.flash.headroom = s.flash.headroom - 1 ∧ t.flash.map = s.flash.map ∧
      (∀ x, x ∈ t.flash.lost ↔ x ∈ s.flash.lost) ∧ t.space = s.space ∧ t.sched = s.sched) ∧
  (∀ (fl : Flash) (p : Program) (st : Stripe), p.parity = false → p.moot = false → superseded fl p = false →
    fl.stripes.find? (·.takes (putStream fl 0 none)) = some st →
    anyProgram (redoProgram fl p) (fun q => q.names p.obj p.ver p.gran && q.cid == p.cid &&
      q.seq == (fl.writeSeq + 1).toNat) = true) ∧
  (∀ (d b : Nat) (s : State), (dieOf s.flash d).failed = false → d < 512 → b < 828 →
    (blockSetOf (dieOf s.flash d) b).state = .closed → validIn s.flash d b = [] →
    (dieOf s.flash d).programs.any (·.set == b) = false →
    exec (.eraseComplete d b true) s = .next { s with flash := updSet { s.flash with
      movedParity := s.flash.movedParity.filter (fun x => !(x.die == d && x.set == b)) } d b (fun x => {
        erases := x.erases + 1,
        suspect := x.suspect }) }) ∧
  (∀ (d b : Nat) (s : State), (dieOf s.flash d).failed = false → d < 512 → b < 828 →
    (blockSetOf (dieOf s.flash d) b).state = .closed → validIn s.flash d b = [] →
    (dieOf s.flash d).programs.any (·.set == b) = false → Hours.total (dieOf s.flash d).retired24 < 63 →
    ∃ t, exec (.eraseComplete d b false) s = .next t ∧ (blockSetOf (dieOf t.flash d) b).state = .retired ∧
      t.flash.headroom = s.flash.headroom - 1 ∧ t.flash.map = s.flash.map ∧ t.space = s.space ∧ t.sched = s.sched) ∧
  (∀ (d b : Nat) (s : State), validIn s.flash d b ≠ [] → ∀ ok, exec (.eraseComplete d b ok) s = .next s) ∧
  (∀ s : State, exec .journalWrite s = .next { recur s .journal with flash := { s.flash with
    journalFlash := s.flash.journalFlash ++ s.flash.journal, journal := [] } }) ∧
  (∀ s : State, exec .mapWrite s = .next { recur s .map with flash := { s.flash with
    mapFlash := s.flash.map, journalFlash := [], journal := [] } }) ∧
  (∀ s : State, exec .zqCalibration s = .next { recur s .calibration with
    flash := { s.flash with calibrated := now (recur s .calibration) } }) ∧
  (∀ s : State, (eraseSpread s.flash).1 - (eraseSpread s.flash).2 ≤ 300 → exec .wearLevelCheck s = .next (recur s .wear)) ∧
  (∀ s : State, 300 < (eraseSpread s.flash).1 - (eraseSpread s.flash).2 →
    ∃ t, exec .wearLevelCheck s = .next t ∧ t = { recur s .wear with flash := t.flash } ∧ t.flash.map = s.flash.map ∧
      t.flash.journal = s.flash.journal ∧
      (∀ e ∈ setsInService s.flash, e.2.2.erases + 150 < (eraseSpread s.flash).1 → validIn s.flash e.1 e.2.1 ≠ [] →
        (blockSetOf (dieOf t.flash e.1) e.2.1).relocate = true)) ∧
  (∀ (weak : List (Nat × Nat)) (s : State), ∃ t, exec (.patrol weak) s = .next t ∧ t = { s with flash := t.flash } ∧
    t.flash.map = s.flash.map ∧ t.flash.journal = s.flash.journal ∧
    (∀ w ∈ weak, (setsInService s.flash).any (fun e => e.2.2.nextPage ≠ 0 && e.1 == w.1 && e.2.1 == w.2) = true →
      (blockSetOf (dieOf t.flash w.1) w.2).relocate = true)) ∧
  (∀ (d : Nat) (s : State), d < 512 → (dieOf s.flash d).failed = false →
    ∃ t, exec (.dieTimeout d) s = .next t ∧ (dieOf t.flash d).failed = true ∧ (dieOf t.flash d).programs = [] ∧
      t.flash.headroom = s.flash.headroom -
        ((List.range 828).countP (fun b => (blockSetOf (dieOf s.flash d) b).state ≠ .retired) : Nat) ∧
      t.flash.map = s.flash.map ∧ t.sched = s.sched ∧
      (∀ l ∈ s.flash.map, l.die = d → l.stripe < s.flash.nextStripe →
        (∃ e ∈ rebuildingDies s.flash d, e ≠ d ∧ ∃ m ∈ membersOf s.flash l, m.1 = e) →
        (l.obj, l.ver, l.gran) ∈ t.flash.lost)) ∧
  (∀ (d : Nat) (s : State), 512 ≤ d → exec (.dieTimeout d) s = .next s) ∧
  (∀ (d : Nat) (s : State), (dieQueue s d).Pairwise (fun a b => readBefore b.deadline a.deadline = false)) ∧
  (∀ (obj gran : Nat) (need : List Nat) (o : FlashOutcome) (c : FlashClient) (fr : Frame) (x : Loc) (s : State),
    (objOf s obj).bind (fun y => (verOf y (clientVer s obj y c)).bind (fun v => frameOf y v gran)) = some fr →
    fr.tier ≠ .near → locOf s.flash obj fr.ver gran = some x → readTurn s x c = false →
    exec (.flashReadComplete obj gran c o need) s = .next s ∧ c ≠ .background ∧
      (readQueue s x c).1.head? ≠ some (readQueue s x c).2) ∧
  (∀ (obj gran : Nat) (need : List Nat) (o : Obj) (v : Version) (fr : Frame) (l : Loc) (s : State), objOf s obj = some o →
    verOf o o.current = some v → frameOf o v gran = some fr → frameNamed s obj fr.ver gran = some fr → fr.tier ≠ .near →
    locOf s.flash obj fr.ver gran = some l →
    ∃ t fr', exec (.flashReadComplete obj gran .background .unrecoverable need) s = .next t ∧
      frameNamed t obj fr.ver gran = some fr' ∧ fr'.lost = true ∧ (obj, fr.ver, gran) ∈ t.flash.lost ∧
      otherObjectsKept s t obj ∧ t.flash.map = s.flash.map ∧ t.sched = s.sched ∧
      ((dieOf s.flash l.die).failed = false →
        AMap.getD t.flash.soft (l.die / 16) 0 = AMap.getD s.flash.soft (l.die / 16) 0 + 1)) ∧
  (∀ (obj gran : Nat) (need bad : List Nat) (o : Obj) (v : Version) (fr : Frame) (l : Loc) (s : State), objOf s obj = some o →
    verOf o o.current = some v → frameOf o v gran = some fr → frameNamed s obj fr.ver gran = some fr → fr.tier ≠ .near →
    fr.lost = false → locOf s.flash obj fr.ver gran = some l → (dieOf s.flash l.die).failed = false →
    stripeShort s.flash l = false → (blockSetOf (dieOf s.flash l.die) l.set).suspect = false →
    ∃ t, exec (.flashReadComplete obj gran .background (.rebuilt bad) need) s = .next t ∧
      (blockSetOf (dieOf t.flash l.die) l.set).suspect = true ∧ (blockSetOf (dieOf t.flash l.die) l.set).relocate = true ∧
      t.flash.rebuilds = satAdd s.flash.rebuilds bad.length ∧ t.flash.map = s.flash.map ∧ t.flash.lost = s.flash.lost ∧
      t.sched = s.sched ∧ t.fns = s.fns) ∧
  (∀ (obj gran : Nat) (need : List Nat) (s : State),
    (∀ o v fr, objOf s obj = some o → verOf o o.current = some v → frameOf o v gran = some fr → fr.lost = false ∧
      ∀ l, locOf s.flash obj fr.ver gran = some l → (dieOf s.flash l.die).failed = false) →
    ∃ t, exec (.flashReadComplete obj gran .background (.corrected 1) need) s = .next t ∧
    t.flash.map = s.flash.map ∧ t.flash.soft = s.flash.soft ∧ t.sent = s.sent ∧ t.sched = s.sched ∧ t.fns = s.fns ∧
    (∀ x o', objOf t x = some o' → ∃ o, objOf s x = some o ∧ o'.versions = o.versions ∧ o'.current = o.current)) ∧
  (∀ (obj gran f bar len : Nat) (need : List Nat) (w : ApRead) (o : Obj) (v : Version) (fr : Frame) (s : State),
    objOf s obj = some o → apWaits s obj gran (.aperture f bar len) = some w →
    clientVer s obj o (.aperture f bar len) = w.ver → verOf o w.ver = some v → frameOf o v gran = some fr →
    frameNamed s obj fr.ver gran = some fr → fr.tier = .near → fr.lost = false →
    ∃ t, exec (.flashReadComplete obj gran (.aperture f bar len) (.corrected 1) need) s = .next t ∧
      t.sent = s.sent ++ [.readData f (objectBytes o w.ver w.off w.len)] ∧
      t.space.apReads = s.space.apReads.erase w ∧ t.fns = s.fns) ∧
  (∀ (data : List (List Byte)) (parity : List Byte) (i n : Nat), i < data.length → (∀ x ∈ data, x.length = n) →
    parity = parityBytes n data → rebuiltBytes n (data.eraseIdx i) parity = data.getD i []) ∧
  (∀ (obj gran : Nat) (o : Obj) (v : Version) (fr : Frame) (s : State), objOf s obj = some o →
    chanHolds s (channelOf s obj gran) = false →
    s.space.moves.find? (fun m => m.obj == obj && m.gran == gran) = none → verOf o o.current = some v →
    frameOf o v gran = some fr → frameNamed s obj fr.ver gran = some fr → fr.tier ≠ .near → fr.lost = false →
    fr.full = false → o.hint ≠ 2 → nearRoom s obj gran = true →
    ∃ t fr', exec (.granuleMoveComplete obj gran) s = .next t ∧ frameNamed t obj fr.ver gran = some fr' ∧ fr'.tier = .near ∧
      locOf t.flash obj fr.ver gran = none ∧ otherObjectsKept s t obj ∧
      (∃ o', objOf t obj = some o' ∧ o'.versions = o.versions ∧ o'.current = o.current) ∧ t.sched = s.sched ∧ t.fns = s.fns) ∧
  (∀ (obj gran : Nat) (o : Obj) (v : Version) (fr : Frame) (fl : Flash) (s : State), objOf s obj = some o →
    chanHolds s (channelOf s obj gran) = false →
    s.space.moves.find? (fun m => m.obj == obj && m.gran == gran) = none → verOf o o.current = some v →
    frameOf o v gran = some fr → frameNamed s obj fr.ver gran = some fr → fr.tier = .near → mayEvict s obj o fr = true →
    heldNear s obj gran = false → peatRoom s obj = true → flashNow s.flash obj fr.ver gran = some fl →
    ∃ t fr', exec (.granuleMoveComplete obj gran) s = .next t ∧ frameNamed t obj fr.ver gran = some fr' ∧ fr'.tier = .peat ∧
      t.flash = fl ∧ otherObjectsKept s t obj ∧ t.sched = s.sched ∧ t.fns = s.fns) ∧
  (∀ (obj gran : Nat) (o : Obj) (v : Version) (fr : Frame) (s : State), objOf s obj = some o →
    chanHolds s (channelOf s obj gran) = false →
    s.space.moves.find? (fun m => m.obj == obj && m.gran == gran) = none → verOf o o.current = some v →
    frameOf o v gran = some fr → fr.tier = .near → fr.full = false → mayEvict s obj o fr = false →
    exec (.granuleMoveComplete obj gran) s = .next (reviewHint s obj)) ∧
  (∀ (obj gran : Nat) (s : State), chanHolds s (channelOf s obj gran) = true →
    exec (.granuleMoveComplete obj gran) s = .next s)

/-- R480-R489: the start sequence. -/
def Obligations.StartSequenceRuns : Prop :=
  (∀ (k : Nat) (failed : Bool) (bad : List Nat) (s : State), s.boot.starting = true → s.boot.kindling = false → 1 ≤ k → k ≤ 9 →
    (stageNeeds false k).all s.boot.stages.contains = true → k ∉ s.boot.stages →
    stageFails s k failed bad = false →
    exec (.startStageEnd k failed bad) s = .next { stageEffect s bad k with
      boot := { (stageEffect s bad k).boot with stages := (stageEffect s bad k).boot.stages ++ [k] } }) ∧
  (∀ (k : Nat) (failed : Bool) (bad : List Nat) (s : State), stageFails s k failed bad = true ↔
    (k = 2 ∧ (failed = true ∨ imagePasses s = false)) ∨
    (k = 6 ∧ ∃ d e, d < 512 ∧ e < 512 ∧ d ∈ bad ∧ e ∈ bad ∧ d ≠ e ∧ d % 16 = e % 16) ∨
    ((k = 4 ∨ k = 5 ∨ k = 7 ∨ k = 8) ∧ failed = true)) ∧
  (∀ s : State, (3 ≤ s.boot.failCount.toNat ∧ s.boot.strapCode ≠ 9 ∨ s.boot.strapShort = true ∨ s.boot.strapCode = 8) →
    (stageEffect s [] 1).boot.kindling = true ∧ (stageEffect s [] 1).service.panel = 3) ∧
  (∀ s : State, (s.boot.failCount.toNat < 3 ∨ s.boot.strapCode = 9) → s.boot.strapShort = false → s.boot.strapCode ≠ 8 →
    (stageEffect s [] 1).boot.kindling = s.boot.kindling ∧
    (stageEffect s [] 1).boot.slotRun = BitVec.ofNat 4 (if s.boot.strapCode = 6 then 0 else if s.boot.strapCode = 7 then 1
      else s.boot.trial.getD (s.boot.lastGood.getD (if s.boot.trialFailed then 1 else 0)))) ∧
  (∀ s : State, (stageEffect s [] 8).space.objs = (if s.boot.strapCode = 5 then [] else
    if s.boot.dormantMark then s.boot.dormantImage else s.boot.directory).map
      (fun e => (e.1, { e.2 with frames := e.2.frames.map (fun fr =>
        { fr with lost := s.flash.lost.contains (e.1, fr.ver, fr.gran) }) }))) ∧
  (∀ (s : State) (bad : List Nat), stageEffect s bad 6 = afterMedia s (startFlash s.flash (now s) bad)) ∧
  (∀ (s : State), (stageEffect s [] 9).boot.serviceReady = true ∧ (stageEffect s [] 9).boot.starting = false ∧
    (stageEffect s [] 9).boot.failCount = 0 ∧ (fnOf (stageEffect s [] 9) 0).ready = true ∧ (stageEffect s [] 9).service.panel = 1 ∧
    (∀ f, 0 < f → f < 256 → (fnOf (stageEffect s [] 9) f).ready = ((fnOf s f).present || (fnOf s f).ready)) ∧
    (strapNoFabric s.boot = false → ∀ p, p < 12 → (portOf (stageEffect s [] 9) p).state = .detect)) ∧
  (∀ (k : Nat) (failed : Bool) (bad : List Nat) (s : State), s.boot.starting = true → s.boot.kindling = false → k ≤ 9 → k ≠ 0 →
    (stageNeeds false k).all s.boot.stages.contains = true → k ∉ s.boot.stages → stageFails s k failed bad = true →
    ∃ t, exec (.startStageEnd k failed bad) s = .next t ∧ t.boot.failCount = satAdd s.boot.failCount 1 ∧
      t.boot.failStage = BitVec.ofNat 4 k ∧ t.boot.cause = 5 ∧ t.boot.starting = false ∧ t.time = 0 ∧
      (s.boot.stages.contains 1 = true → s.boot.trial.isSome = true → s.boot.trial = runningSlot s.boot →
        t.boot.trial = none ∧ t.boot.trialFailed = true)) ∧
  (∀ s : State, s.boot.starting = true → s.boot.kindling = false →
    ∃ t, exec .startTimeout s = .next t ∧ t.boot.failCount = satAdd s.boot.failCount 1 ∧
      t.boot.failStage = BitVec.ofNat 4 (stageNow s) ∧ t.boot.cause = 5 ∧ t.time = 0 ∧ t.space = {} ∧ t.sched = {}) ∧
  (∀ s : State, s.boot.kindling = true → exec .startTimeout s = .next s) ∧
  (∀ (failed : Bool) (bad : List Nat) (s : State), s.boot.starting = true → s.boot.kindling = true → 3 ∈ s.boot.stages →
    ∃ t, exec (.startStageEnd 4 failed bad) s = .next t ∧ t.boot.boltsTested = s.boot.boltsTested + 1 ∧
      t.boot.starting = decide (s.boot.boltsTested + 1 < 16) ∧ t.boot.serviceReady = s.boot.serviceReady ∧
      t.boot.failedBolts = s.boot.failedBolts ++ (if failed then [s.boot.boltsTested] else []) ∧
      t.boot.kindlingBolt = (if failed = false ∧ s.boot.kindlingBolt = none then some s.boot.boltsTested
        else s.boot.kindlingBolt) ∧
      (s.boot.boltsTested + 1 < 16 ∨ t.boot.kindlingBolt = none → t.fns = s.fns ∧ t.space = s.space) ∧
      (16 ≤ s.boot.boltsTested + 1 → t.boot.kindlingBolt.isSome = true →
        (fnOf t 0).ready = true ∧ t.space.objs = [(1, kindlingObj)]))

/-- R517, R518, R521, R522, R524-R526, R533: the service rows that time, the panel and the trigger bring. -/
def Obligations.HealthPanelAndSnapshots : Prop :=
  (∀ s : State, ∃ t u, exec .healthEvaluate s = .next t ∧ u = recur s .health ∧ t.time = u.time ∧
    t.service.score = BitVec.ofNat 8 (healthScore u) ∧ t.service.faults = BitVec.ofNat 16 (healthFaults u) ∧
    t.service.state = (if s.boot.kindling then 3 else if healthScore u < 50 ∨ healthFaults u ≠ 0 then 2
      else if healthScore u < 80 then 1 else 0) ∧ t.sched.admitted = s.sched.admitted ∧ t.space = s.space ∧ t.board = s.board ∧
    (t.service.state = s.service.state → t.fns = s.fns) ∧
    (t.service.state ≠ s.service.state → (fnOf s 0).featActive.getLsbD 29 = true → (fnOf s 0).events.length < 64 →
      (fnOf t 0).events.length = (fnOf s 0).events.length + 1) ∧
    (t.service.state = 2 → s.service.state ≠ 2 → s.service.snapSrc.getLsbD 3 = true → 3 ∈ t.service.snapDue)) ∧
  (∀ s : State, healthScore s ≤ 100) ∧
  (∀ s : State, s.service.mode = .service → s.boot.serviceReady = true → s.service.panel = 1 →
    s.service.pressPending = false →
    ∃ t, exec .panelPress s = .next t ∧ t.service.mode = .removal ∧ t.service.panel = 4 ∧ t.service.removalSince = now s ∧
      t.sched = s.sched ∧ t.space = s.space ∧ t.board = s.board) ∧
  (∀ s : State, s.service.mode = .removal → s.board.holdUp = false →
    ∃ t, exec .panelPress s = .next t ∧ t.service.mode = .service ∧ t.service.panel = 1 ∧ t.sched = s.sched ∧
      t.space = s.space ∧ t.board = s.board) ∧
  (∀ s : State, s.service.mode = .banked → s.service.pressPending = false → ∃ t, exec .panelPress s = .next t ∧ t.service.mode = .leavingBanked ∧
    t.service.pressPending = true ∧ t.service.removalSince = now s ∧ t.service.panel = s.service.panel) ∧
  (∀ s : State, (s.service.mode = .enteringBanked ∨ s.service.mode = .leavingBanked) → exec .panelPress s = .next (
    if s.service.pressPending then s
    else { s with service := { s.service with pressPending := true, removalSince := now s } })) ∧
  (∀ s : State, s.service.mode = .safe → s.board.tripLatch = false → s.board.holdUp = false →
    ∃ t, exec .panelPress s = .next t ∧ t.board.cyclePending = true ∧ t.board.rails = 0 ∧ t.sched = {}) ∧
  (∀ s : State, (s.service.mode = .dormant ∨ s.service.mode = .enteringDormant) → exec .panelPress s = .next s) ∧
  (∀ s : State, s.service.mode ≠ .safe → s.board.pwrGood = true →
    ∃ t, exec .panelHold s = .next t ∧ t.board.holdUp = true ∧ t.board.pwrGood = false ∧ t.service.mode = .removal ∧
      t.flash.journal = [] ∧ t.sched = {} ∧ t.space = {} ∧ t.board.status.getLsbD 7 = true) ∧
  (∀ s : State, s.service.mode ≠ .safe → s.board.pwrGood = false → s.board.holdUp = false →
    ∃ t, exec .panelHold s = .next t ∧ t.service.mode = .safe ∧ t.service.panel = 5 ∧ t.board.rails = 0) ∧
  (∀ s : State, s.service.mode = .safe → exec .panelHold s = .next s) ∧
  (∀ s : State, s.service.mode = .removal → s.board.holdUp = false → s.service.removalSince + 3000000000 < 2 ^ 64 →
    ∃ t, exec .removalProceed s = .next t ∧ t.service.mode = .safe ∧ t.service.panel = 5 ∧ t.board.rails = 0 ∧
      t.board.pwrGood = false ∧ t.flash.mapFlash = (holdUp s.flash).map ∧ t.flash.journal = [] ∧ t.flash.journalFlash = [] ∧ t.sched = {} ∧
      (drainedForRemoval s = true → t.time = s.time) ∧
      (drainedForRemoval s = false → t.time.toNat = max s.time.toNat (s.service.removalSince + 3000000000))) ∧
  (∀ (src : Nat) (s : State), src ∈ s.service.snapDue → s.service.frozen = false → src < 255 →
    ∃ t, exec (.snapshotTrigger src) s = .next t ∧ t.service.frozen = true ∧ t.service.valid = false ∧
      t.service.snapSeq = s.service.snapSeq + 1 ∧ t.service.snapSource = BitVec.ofNat 8 (src + 1) ∧
      t.service.snapTime = s.time ∧ t.service.snapDue = s.service.snapDue.erase src ∧
      t.sent = s.sent ++ (if src = 0 then [] else [.trigOut]) ∧ t.service.store = s.service.store) ∧
  (∀ (src : Nat) (s : State), src ∈ s.service.snapDue → s.service.frozen = true →
    exec (.snapshotTrigger src) s = .next { s with service := { s.service with
      snapDue := s.service.snapDue.erase src, missed := satAdd s.service.missed 1 } }) ∧
  (∀ s : State, s.service.frozen = true → s.service.valid = false →
    exec .snapshotCopyDone s = .next { s with service := { s.service with store := s.service.latched, valid := true } })

/-- R152, R429, R430, R445, R487, R498, R499, R502, R509, R513: the security commands. -/
def Obligations.SecurityCommandsRun : Prop :=
  (∀ (cid k : Nat) (host : List Byte) (a : Adm) (s : State), running s cid 0x800 = some a →
    s.sched.admitted.any commitRuns = false → host.length = a.p 40 4 → k = stageSlot s →
    (slotMem s.boot k).wf →
    ∃ t, exec (.fwStage cid host) s = .next t ∧ doneWith t cid (· = {}) ∧ otherCommandsKept s t cid ∧
      (∀ i, i < host.length → Mem.read (slotMem t.boot k) (a.p 44 4 + i) = host.getD i 0) ∧
      (∀ x, x < a.p 44 4 ∨ a.p 44 4 + host.length ≤ x → Mem.read (slotMem t.boot k) x = Mem.read (slotMem s.boot k) x) ∧
      slotLen t.boot k = max (slotLen s.boot k) (a.p 44 4 + host.length) ∧ slotMem t.boot (1 - k) = slotMem s.boot (1 - k) ∧
      t.boot.trial = s.boot.trial ∧ t.fns = s.fns ∧ t.space = s.space) ∧
  (∀ (k : Nat) (s : State), s.boot.kindling = false → runningSlot s.boot = some k → stageSlot s ≠ k ∧ stageSlot s ≤ 1) ∧
  (∀ (k : Nat) (s : State), s.boot.kindling = true → s.boot.lastGood = some k → k ≤ 1 → stageSlot s ≠ k ∧ stageSlot s ≤ 1) ∧
  (∀ (cid : Nat) (host : List Byte) (a : Adm) (s : State), running s cid 0x800 = some a →
    s.sched.admitted.any commitRuns = true →
    exec (.fwStage cid host) s = .next (finish s cid (.bare stBusyMode))) ∧
  (∀ (cid : Nat) (a : Adm) (s : State), running s cid 0x801 = some a → a.p 32 4 ≤ slotLen s.boot (stageSlot s) →
    exec (.fwCommit cid) s = .next (if fwPasses s.glaesh.minSvn (slotMem s.boot (stageSlot s)) (a.p 32 4) = true then
      finish s cid {}
    else finish s cid (.bare stSecurity))) ∧
  (∀ a : Adm, (commitRuns a = true ↔ a.cmd.opcode = 0x801 ∧ ∀ r, a.phase = .done r → r.status = 0)) ∧
  (∀ (cid : Nat) (a : Adm) (r : Result) (s : State), findAdm s cid = some a → a.cmd.opcode = 0x801 → a.phase = .done r →
    r.status = 0 → programWaits s.flash cid = false → a.switch = none →
    ∃ t, exec (.commandComplete cid) s = .next t ∧ t.boot.trial = some (stageSlot s) ∧ t.boot.trialFailed = false ∧
      t.boot.slotA = s.boot.slotA ∧ t.boot.slotB = s.boot.slotB) ∧
  (∀ (m : Mem) (n : Nat) (minSvn : BitVec 32), m.nat 12 4 < minSvn.toNat → fwPasses minSvn m n = false) ∧
  (∀ (cid : Nat) (a : Adm) (s : State), running s cid 0x802 = some a →
    (fnOf s a.cmd.fn).kek.bind (fun k => Config.keyUnwrap k (slice (a.cmd.packet.drop 40) 0 40)) = none →
    exec (.fabricKeySet cid) s = .next (finish s cid (.bare stSecurity))) ∧
  (∀ (cid : Nat) (a : Adm) (key : BitVec 256) (s : State), running s cid 0x802 = some a →
    (fnOf s a.cmd.fn).kek.bind (fun k => Config.keyUnwrap k (slice (a.cmd.packet.drop 40) 0 40)) = some key →
    ∃ t, exec (.fabricKeySet cid) s = .next t ∧ doneWith t cid (· = {}) ∧ otherCommandsKept s t cid ∧
      (∀ g, g ≠ a.cmd.fn → fnOf t g = fnOf s g) ∧
      (a.p 34 1 = 0 → fnOf t a.cmd.fn = { fnOf s a.cmd.fn with txKey := some (a.p 32 2, key) }) ∧
      (a.p 34 1 ≠ 0 → fnOf t a.cmd.fn = { fnOf s a.cmd.fn with rxKeys := setRxKey (fnOf s a.cmd.fn).rxKeys (a.p 32 2, key) } ∧
        ∀ src, highOf t a.cmd.fn (a.p 32 2) src = none)) ∧
  (∀ (ks : List (Nat × BitVec 256)) (k : Nat × BitVec 256), k ∈ setRxKey ks k ∧
    (ks.length ≤ 4 → (setRxKey ks k).length ≤ 4) ∧
    (ks.length = 4 → ks.any (·.1 == k.1) = false → setRxKey ks k = ks.drop 1 ++ [k])) ∧
  (∀ (cid : Nat) (a : Adm) (s : State), running s cid 0x803 = some a →
    (s.sched.admitted.any (fun b => b.cmd.fn == a.p 32 1 && b.cmd.cid != cid) = true ∨
      s.prog.instances.any (fun e => e.2.fn == a.p 32 1) = true) →
    exec (.isolationSet cid) s = .next (finish s cid (.bare stBusyMode))) ∧
  (∀ (cid : Nat) (a : Adm) (s : State), running s cid 0x803 = some a →
    s.sched.admitted.any (fun b => b.cmd.fn == a.p 32 1 && b.cmd.cid != cid) = false →
    s.prog.instances.any (fun e => e.2.fn == a.p 32 1) = false → a.p 33 1 = 1 →
    exec (.isolationSet cid) s = .next (match sealFn s (a.p 32 1) with
      | some t => if segmentsMeet s t then s else finish t cid {}
      | none => finish s cid (.bare stNoSpace))) ∧
  (∀ (f : Nat) (s t : State), sealFn s f = some t → (fnOf t f).isSealed = true ∧
    (fnOf t f).bolts.length = (fnOf s f).sealBolts.toNat ∧ (fnOf t f).dedStacks.length = (fnOf s f).sealStacks.toNat ∧
    (∀ b ∈ (fnOf t f).bolts, b < 16 ∧ b ∉ heldBolts s f) ∧ (∀ b ∈ (fnOf t f).dedStacks, b < 20 ∧ b ∉ heldStacks s f) ∧
    (heldBolts s f).length + (fnOf t f).bolts.length ≤ 12 ∧ (heldStacks s f).length + (fnOf t f).dedStacks.length ≤ 15 ∧
    (∀ g, g ≠ f → fnOf t g = fnOf s g)) ∧
  (∀ (cid : Nat) (a : Adm) (s : State), running s cid 0x803 = some a →
    s.sched.admitted.any (fun b => b.cmd.fn == a.p 32 1 && b.cmd.cid != cid) = false →
    s.prog.instances.any (fun e => e.2.fn == a.p 32 1) = false → a.p 33 1 ≠ 1 → (fnOf s (a.p 32 1)).isSealed = false →
    exec (.isolationSet cid) s = .next (finish s cid {})) ∧
  (∀ (cid : Nat) (a : Adm) (u : State) (s : State), running s cid 0x803 = some a →
    s.sched.admitted.any (fun b => b.cmd.fn == a.p 32 1 && b.cmd.cid != cid) = false →
    s.prog.instances.any (fun e => e.2.fn == a.p 32 1) = false → a.p 33 1 ≠ 1 → (fnOf s (a.p 32 1)).isSealed = true →
    u = setShaper (setFn s (a.p 32 1) { fnOf s (a.p 32 1) with isSealed := false, bolts := [], dedStacks := [], shaper := 0 })
      (fnOf s (a.p 32 1)).shaper.toNat {} →
    exec (.isolationSet cid) s = .next (if channelsFit u = true then (if segmentsMeet s u then s else finish u cid {})
      else finish s cid (.bare stNoSpace))) ∧
  (∀ (cid : Nat) (a : Adm) (s : State), running s cid 0x804 = some a →
    exec (.violationRead cid) s = .next (finish (if bit (a.p 33 1) 0 then
      setFn s (a.p 32 1) { fnOf s (a.p 32 1) with violations := 0 } else s) cid
        { data := toLE 8 (fnOf s (a.p 32 1)).violations.toNat }))

/-- R74, R51: ALERT_N (low: asserted) after every step, and its release. -/
def Obligations.AlertFollowsStatus : Prop :=
  (∀ s t : State, step s = .next t →
    (pinsSetUp s.board = true → pinsSetUp t.board = true →
      ∀ b, s.board.status.getLsbD b = false → t.board.status.getLsbD b = true → t.board.alertN = false) ∧
    (s.board.alertN = true → t.board.alertN = false →
      ∃ b, s.board.status.getLsbD b = false ∧ t.board.status.getLsbD b = true) ∧
    (s.board.alertN = false → t.board.alertN = true →
      (∃ rest, s.pending = .alertResponse .alert :: rest) ∨ pinsSetUp t.board = false)) ∧
  (∀ s : State, s.board.powered = true → s.board.alertN = false →
    ∃ t, exec (.alertResponse .alert) s = .next t ∧ t.board = { s.board with alertN := true } ∧
      t.sent = s.sent ++ [.smbus (some [0x2A])] ∧ t.space = s.space ∧ t.sched = s.sched ∧ t.fns = s.fns)
end

