-- ==== Sys2Proof/Laws/Maps.lean ====
section
/-! SUPPORT. The laws of sparse maps and sparse byte memories: what is read after a write, and that every operation keeps
the canonical form. -/

namespace Sys2Proof.Machine
open Sys2Proof

/-! ### Maps -/

@[simp] theorem AMap.get?_nil {α : Type} (i : Nat) : AMap.get? ([] : AMap α) i = none := rfl

@[simp] theorem AMap.get?_insert_same {α : Type} (m : AMap α) (i : Nat) (v : α) :
    AMap.get? (AMap.insert m i v) i = some v := by
  induction m with
  | nil => simp [AMap.insert, AMap.get?]
  | cons e m ih =>
    obtain ⟨k, w⟩ := e
    by_cases h1 : i < k
    · simp [AMap.insert, AMap.get?, h1]
    · by_cases h2 : k = i
      · simp [AMap.insert, AMap.get?, h2]
      · simp [AMap.insert, AMap.get?, h1, h2, ih]

@[simp] theorem AMap.get?_insert_other {α : Type} (m : AMap α) (i j : Nat) (v : α) (h : i ≠ j) :
    AMap.get? (AMap.insert m i v) j = AMap.get? m j := by
  induction m with
  | nil => simp [AMap.insert, AMap.get?, h]
  | cons e m ih =>
    obtain ⟨k, w⟩ := e
    by_cases h1 : i < k
    · simp [AMap.insert, AMap.get?, h1, h]
    · by_cases h2 : k = i
      · subst h2; simp [AMap.insert, AMap.get?, h]
      · have e : AMap.insert ((k, w) :: m) i v = (k, w) :: AMap.insert m i v := by simp [AMap.insert, h1, h2]
        simp [e, AMap.get?, ih]

@[simp] theorem AMap.getD_insert_same {α : Type} (m : AMap α) (i : Nat) (v d : α) :
    AMap.getD (AMap.insert m i v) i d = v := by simp [AMap.getD]

theorem AMap.getD_insert_other {α : Type} (m : AMap α) (i j : Nat) (v d : α) (h : i ≠ j) :
    AMap.getD (AMap.insert m i v) j d = AMap.getD m j d := by simp [AMap.getD, h]

/-- Every key of an insertion is the new one or an old one. -/
theorem AMap.mem_insert {α : Type} (m : AMap α) (i : Nat) (v : α) (e : Nat × α) (h : e ∈ AMap.insert m i v) :
    e = (i, v) ∨ e ∈ m := by
  induction m with
  | nil => simpa [AMap.insert] using h
  | cons x m ih =>
    obtain ⟨k, w⟩ := x
    by_cases h1 : i < k
    · simpa [AMap.insert, h1] using h
    · by_cases h2 : k = i
      · simp [AMap.insert, h2] at h
        rcases h with h | h
        · exact .inl h
        · exact .inr (List.mem_cons_of_mem _ h)
      · simp [AMap.insert, h1, h2] at h
        rcases h with h | h
        · exact .inr (by simp [h])
        · exact (ih h).imp id (List.mem_cons_of_mem _)

/-- An insertion keeps the keys rising. -/
theorem AMap.insert_rising {α : Type} (m : AMap α) (i : Nat) (v : α) (h : m.Pairwise (fun a b => a.1 < b.1)) :
    (AMap.insert m i v).Pairwise (fun a b => a.1 < b.1) := by
  induction m with
  | nil => simp [AMap.insert]
  | cons x m ih =>
    obtain ⟨k, w⟩ := x
    rw [List.pairwise_cons] at h
    by_cases h1 : i < k
    · simp only [AMap.insert, h1, if_true, List.pairwise_cons]
      refine ⟨fun e he => ?_, h⟩
      rcases List.mem_cons.1 he with rfl | he
      · exact h1
      · exact Nat.lt_trans h1 (h.1 e he)
    · by_cases h2 : k = i
      · subst h2
        simp only [AMap.insert, h1, if_false, if_true, List.pairwise_cons]
        exact h
      · simp only [AMap.insert, h1, h2, if_false, List.pairwise_cons]
        refine ⟨fun e he => ?_, ih h.2⟩
        rcases AMap.mem_insert m i v e he with rfl | he
        · exact Nat.lt_of_le_of_ne (Nat.not_lt.1 h1) h2
        · exact h.1 e he

/-! ### Byte memories -/

/-- A listed byte is what an address reads. -/
theorem Mem.read_of_mem (m : Mem) (a : Nat) (v : Byte) (h : m.Pairwise (fun x y => x.1 < y.1)) (hv : (a, v) ∈ m) :
    Mem.read m a = v := by
  induction m with
  | nil => cases hv
  | cons e m ih =>
    obtain ⟨k, w⟩ := e
    rw [List.pairwise_cons] at h
    rcases List.mem_cons.1 hv with hv | hv
    · cases hv; simp [Mem.read]
    · have hk : k < a := h.1 _ hv
      simp [Mem.read, Nat.ne_of_lt hk, Nat.not_lt.2 (Nat.le_of_lt hk), ih h.2 hv]

/-- An address that is not listed reads 0. -/
theorem Mem.read_of_not_mem (m : Mem) (a : Nat) (h : ∀ v, (a, v) ∉ m) : Mem.read m a = 0#8 := by
  induction m with
  | nil => rfl
  | cons e m ih =>
    obtain ⟨k, w⟩ := e
    have hk : k ≠ a := fun hk => h w (by simp [hk])
    have hm : ∀ v, (a, v) ∉ m := fun v hv => h v (List.mem_cons_of_mem _ hv)
    simp [Mem.read, hk, ih hm]

theorem mem_cellsAt (a : Nat) (bs : List Byte) (b : Nat) (v : Byte) :
    (b, v) ∈ cellsAt a bs ↔ a ≤ b ∧ bs[b - a]? = some v ∧ v ≠ 0#8 := by
  induction bs generalizing a with
  | nil => simp [cellsAt]
  | cons x bs ih =>
    have hrec : (b, v) ∈ cellsAt (a + 1) bs ↔ a + 1 ≤ b ∧ bs[b - (a + 1)]? = some v ∧ v ≠ 0#8 := ih (a + 1)
    by_cases hb : b = a
    · subst hb
      by_cases hx : x = 0#8
      · simp [cellsAt, hx, hrec]
        rintro rfl
        simp
      · simp [cellsAt, hx, hrec]
        constructor
        · rintro rfl; exact ⟨rfl, hx⟩
        · rintro ⟨rfl, _⟩; rfl
    · have e1 : (a ≤ b ∧ (x :: bs)[b - a]? = some v ∧ v ≠ 0#8) ↔ (a + 1 ≤ b ∧ bs[b - (a + 1)]? = some v ∧ v ≠ 0#8) := by
        constructor
        · rintro ⟨h1, h2, h3⟩
          have : b - a = (b - (a + 1)) + 1 := by omega
          rw [this] at h2
          exact ⟨by omega, by simpa using h2, h3⟩
        · rintro ⟨h1, h2, h3⟩
          have : b - a = (b - (a + 1)) + 1 := by omega
          rw [this]
          exact ⟨by omega, by simpa using h2, h3⟩
      rw [e1, ← hrec]
      by_cases hx : x = 0#8
      · simp [cellsAt, hx]
      · simp [cellsAt, hx, hb]

theorem cellsAt_wf (a : Nat) (bs : List Byte) : Mem.wf (cellsAt a bs) := by
  constructor
  · induction bs generalizing a with
    | nil => simp [cellsAt]
    | cons x bs ih =>
      by_cases hx : x = 0#8
      · simpa [cellsAt, hx] using ih (a + 1)
      · simp only [cellsAt, hx, if_false, List.pairwise_cons]
        refine ⟨fun e he => ?_, ih (a + 1)⟩
        have := (mem_cellsAt (a + 1) bs e.1 e.2).1 he
        omega
  · intro c hc
    exact ((mem_cellsAt a bs c.1 c.2).1 hc).2.2

/-- A write keeps the canonical form. -/
theorem Mem.write_wf (m : Mem) (a : Nat) (bs : List Byte) (h : Mem.wf m) : Mem.wf (Mem.write m a bs) := by
  obtain ⟨hs, hz⟩ := h
  obtain ⟨cs, cz⟩ := cellsAt_wf a bs
  constructor
  · rw [Mem.write, List.pairwise_append, List.pairwise_append]
    refine ⟨⟨hs.filter _, cs, fun x hx y hy => ?_⟩, hs.filter _, fun x hx y hy => ?_⟩
    · have := (mem_cellsAt a bs y.1 y.2).1 hy
      have := List.mem_filter.1 hx
      simp at this
      omega
    · have hy := List.mem_filter.1 hy
      simp at hy
      rcases List.mem_append.1 hx with hx | hx
      · have := List.mem_filter.1 hx
        simp at this
        omega
      · have := (mem_cellsAt a bs x.1 x.2).1 hx
        have h2 := (List.getElem?_eq_some_iff.1 this.2.1).1
        omega
  · intro c hc
    simp only [Mem.write, List.mem_append] at hc
    rcases hc with (hc | hc) | hc
    · exact hz c (List.mem_filter.1 hc).1
    · exact cz c hc
    · exact hz c (List.mem_filter.1 hc).1

/-- A cut keeps the canonical form. -/
theorem Mem.cut_wf (m : Mem) (n : Nat) (h : Mem.wf m) : Mem.wf (Mem.cut m n) :=
  ⟨h.1.filter _, fun c hc => h.2 c (List.mem_filter.1 hc).1⟩

theorem Mem.ofBytes_wf (bs : List Byte) : Mem.wf (Mem.ofBytes bs) := cellsAt_wf 0 bs

/-- A byte inside a write reads what was written. -/
theorem Mem.read_write_in (m : Mem) (a i : Nat) (bs : List Byte) (h : Mem.wf m) (hi : i < bs.length) :
    Mem.read (Mem.write m a bs) (a + i) = bs[i] := by
  have hw := (Mem.write_wf m a bs h).1
  by_cases hz : bs[i] = 0#8
  · rw [hz]
    apply Mem.read_of_not_mem
    intro v hv
    simp only [Mem.write, List.mem_append, List.mem_filter, mem_cellsAt] at hv
    rcases hv with (hv | hv) | hv
    · have := hv.2; simp at this
    · have h2 : bs[i]? = some v := by simpa using hv.2.1
      rw [List.getElem?_eq_getElem hi] at h2
      exact hv.2.2 ((Option.some.inj h2).symm.trans hz)
    · have := hv.2; simp at this; omega
  · apply Mem.read_of_mem _ _ _ hw
    simp only [Mem.write, List.mem_append]
    exact .inl (.inr ((mem_cellsAt _ _ _ _).2 ⟨by omega, by simp [hi], hz⟩))

/-- A byte outside a write reads what it read before. -/
theorem Mem.read_write_out (m : Mem) (a b : Nat) (bs : List Byte) (h : Mem.wf m) (hb : b < a ∨ a + bs.length ≤ b) :
    Mem.read (Mem.write m a bs) b = Mem.read m b := by
  have hw := (Mem.write_wf m a bs h).1
  have key : ∀ v, (b, v) ∈ Mem.write m a bs ↔ (b, v) ∈ m := by
    intro v
    simp only [Mem.write, List.mem_append, List.mem_filter, mem_cellsAt]
    constructor
    · rintro ((hv | hv) | hv)
      · exact hv.1
      · have := (List.getElem?_eq_some_iff.1 hv.2.1).1; omega
      · exact hv.1
    · intro hv
      rcases hb with hb | hb
      · exact .inl (.inl ⟨hv, by simpa using hb⟩)
      · exact .inr ⟨hv, by simpa using hb⟩
  by_cases hm : ∃ v, (b, v) ∈ m
  · obtain ⟨v, hv⟩ := hm
    rw [Mem.read_of_mem _ _ _ h.1 hv, Mem.read_of_mem _ _ _ hw ((key v).2 hv)]
  · have hm' : ∀ v, (b, v) ∉ m := fun v hv => hm ⟨v, hv⟩
    rw [Mem.read_of_not_mem _ _ hm', Mem.read_of_not_mem _ _ (fun v hv => hm' v ((key v).1 hv))]

/-! ### Bytes -/

@[simp] theorem toLE_length (n v : Nat) : (toLE n v).length = n := by
  induction n generalizing v with
  | zero => rfl
  | succ n ih => simp [toLE, ih]

/-- Little-endian bytes give their value back. -/
theorem leNat_toLE (n v : Nat) : leNat (toLE n v) = v % 256 ^ n := by
  induction n generalizing v with
  | zero => simp [toLE, leNat, Nat.mod_one]
  | succ n ih =>
    simp only [toLE, leNat, ih, BitVec.toNat_ofNat]
    have e : 256 ^ (n + 1) = 256 * 256 ^ n := by rw [Nat.pow_succ, Nat.mul_comm]
    rw [e, Nat.mod_mul]

theorem leNat_lt (bs : List Byte) : leNat bs < 256 ^ bs.length := by
  induction bs with
  | nil => simp [leNat]
  | cons b bs ih =>
    simp only [leNat, List.length_cons, Nat.pow_succ]
    have := b.isLt
    omega

@[simp] theorem slice_length (bs : List Byte) (off n : Nat) : (slice bs off n).length = n := by
  simp [slice]

end Sys2Proof.Machine
end

