-- ==== Sys2Proof/Laws/State.lean ====
section
/-! SUPPORT. What each basic update of the state leaves alone: one lemma for each field, true by unfolding, so that no
later proof opens a record update. -/

namespace Sys2Proof.Machine
open Sys2Proof

@[simp] theorem emit_pending (s : State) (e : Emission) : (emit s e).pending = s.pending := rfl
@[simp] theorem emit_time (s : State) (e : Emission) : (emit s e).time = s.time := rfl
@[simp] theorem emit_board (s : State) (e : Emission) : (emit s e).board = s.board := rfl
@[simp] theorem emit_boot (s : State) (e : Emission) : (emit s e).boot = s.boot := rfl
@[simp] theorem emit_glaesh (s : State) (e : Emission) : (emit s e).glaesh = s.glaesh := rfl
@[simp] theorem emit_draught (s : State) (e : Emission) : (emit s e).draught = s.draught := rfl
@[simp] theorem emit_service (s : State) (e : Emission) : (emit s e).service = s.service := rfl
@[simp] theorem emit_fns (s : State) (e : Emission) : (emit s e).fns = s.fns := rfl
@[simp] theorem emit_sched (s : State) (e : Emission) : (emit s e).sched = s.sched := rfl
@[simp] theorem emit_space (s : State) (e : Emission) : (emit s e).space = s.space := rfl
@[simp] theorem emit_flash (s : State) (e : Emission) : (emit s e).flash = s.flash := rfl
@[simp] theorem emit_stk (s : State) (e : Emission) : (emit s e).stk = s.stk := rfl
@[simp] theorem emit_looms (s : State) (e : Emission) : (emit s e).looms = s.looms := rfl
@[simp] theorem emit_reeds (s : State) (e : Emission) : (emit s e).reeds = s.reeds := rfl
@[simp] theorem emit_prog (s : State) (e : Emission) : (emit s e).prog = s.prog := rfl
@[simp] theorem emit_fabric (s : State) (e : Emission) : (emit s e).fabric = s.fabric := rfl
@[simp] theorem emit_fresh (s : State) (e : Emission) : (emit s e).fresh = s.fresh := rfl

@[simp] theorem charge_pending (s : State) (f pj : Nat) (b : Bool) : (charge s f pj b).pending = s.pending := rfl
@[simp] theorem charge_time (s : State) (f pj : Nat) (b : Bool) : (charge s f pj b).time = s.time := rfl
@[simp] theorem charge_board (s : State) (f pj : Nat) (b : Bool) : (charge s f pj b).board = s.board := rfl
@[simp] theorem charge_link (s : State) (f pj : Nat) (b : Bool) : (charge s f pj b).link = s.link := rfl
@[simp] theorem charge_boot (s : State) (f pj : Nat) (b : Bool) : (charge s f pj b).boot = s.boot := rfl
@[simp] theorem charge_glaesh (s : State) (f pj : Nat) (b : Bool) : (charge s f pj b).glaesh = s.glaesh := rfl
@[simp] theorem charge_service (s : State) (f pj : Nat) (b : Bool) : (charge s f pj b).service = s.service := rfl
@[simp] theorem charge_fns (s : State) (f pj : Nat) (b : Bool) : (charge s f pj b).fns = s.fns := rfl
@[simp] theorem charge_sched (s : State) (f pj : Nat) (b : Bool) : (charge s f pj b).sched = s.sched := rfl
@[simp] theorem charge_space (s : State) (f pj : Nat) (b : Bool) : (charge s f pj b).space = s.space := rfl
@[simp] theorem charge_flash (s : State) (f pj : Nat) (b : Bool) : (charge s f pj b).flash = s.flash := rfl
@[simp] theorem charge_stk (s : State) (f pj : Nat) (b : Bool) : (charge s f pj b).stk = s.stk := rfl
@[simp] theorem charge_looms (s : State) (f pj : Nat) (b : Bool) : (charge s f pj b).looms = s.looms := rfl
@[simp] theorem charge_reeds (s : State) (f pj : Nat) (b : Bool) : (charge s f pj b).reeds = s.reeds := rfl
@[simp] theorem charge_prog (s : State) (f pj : Nat) (b : Bool) : (charge s f pj b).prog = s.prog := rfl
@[simp] theorem charge_fabric (s : State) (f pj : Nat) (b : Bool) : (charge s f pj b).fabric = s.fabric := rfl
@[simp] theorem charge_sent (s : State) (f pj : Nat) (b : Bool) : (charge s f pj b).sent = s.sent := rfl
@[simp] theorem charge_fresh (s : State) (f pj : Nat) (b : Bool) : (charge s f pj b).fresh = s.fresh := rfl

@[simp] theorem advanceTo_pending (s : State) (d : Nat) : (advanceTo s d).pending = s.pending := rfl
@[simp] theorem advanceTo_board (s : State) (d : Nat) : (advanceTo s d).board = s.board := rfl
@[simp] theorem advanceTo_link (s : State) (d : Nat) : (advanceTo s d).link = s.link := rfl
@[simp] theorem advanceTo_boot (s : State) (d : Nat) : (advanceTo s d).boot = s.boot := rfl
@[simp] theorem advanceTo_glaesh (s : State) (d : Nat) : (advanceTo s d).glaesh = s.glaesh := rfl
@[simp] theorem advanceTo_draught (s : State) (d : Nat) : (advanceTo s d).draught = s.draught := rfl
@[simp] theorem advanceTo_service (s : State) (d : Nat) : (advanceTo s d).service = s.service := rfl
@[simp] theorem advanceTo_fns (s : State) (d : Nat) : (advanceTo s d).fns = s.fns := rfl
@[simp] theorem advanceTo_sched (s : State) (d : Nat) : (advanceTo s d).sched = s.sched := rfl
@[simp] theorem advanceTo_space (s : State) (d : Nat) : (advanceTo s d).space = s.space := rfl
@[simp] theorem advanceTo_flash (s : State) (d : Nat) : (advanceTo s d).flash = s.flash := rfl
@[simp] theorem advanceTo_stk (s : State) (d : Nat) : (advanceTo s d).stk = s.stk := rfl
@[simp] theorem advanceTo_looms (s : State) (d : Nat) : (advanceTo s d).looms = s.looms := rfl
@[simp] theorem advanceTo_reeds (s : State) (d : Nat) : (advanceTo s d).reeds = s.reeds := rfl
@[simp] theorem advanceTo_prog (s : State) (d : Nat) : (advanceTo s d).prog = s.prog := rfl
@[simp] theorem advanceTo_fabric (s : State) (d : Nat) : (advanceTo s d).fabric = s.fabric := rfl
@[simp] theorem advanceTo_sent (s : State) (d : Nat) : (advanceTo s d).sent = s.sent := rfl
@[simp] theorem advanceTo_fresh (s : State) (d : Nat) : (advanceTo s d).fresh = s.fresh := rfl

@[simp] theorem recur_pending (s : State) (p : Periodic) : (recur s p).pending = s.pending := rfl
@[simp] theorem recur_board (s : State) (p : Periodic) : (recur s p).board = s.board := rfl
@[simp] theorem recur_link (s : State) (p : Periodic) : (recur s p).link = s.link := rfl
@[simp] theorem recur_boot (s : State) (p : Periodic) : (recur s p).boot = s.boot := rfl
@[simp] theorem recur_glaesh (s : State) (p : Periodic) : (recur s p).glaesh = s.glaesh := rfl
@[simp] theorem recur_draught (s : State) (p : Periodic) : (recur s p).draught = s.draught := rfl
@[simp] theorem recur_service (s : State) (p : Periodic) : (recur s p).service = s.service := rfl
@[simp] theorem recur_fns (s : State) (p : Periodic) : (recur s p).fns = s.fns := rfl
@[simp] theorem recur_space (s : State) (p : Periodic) : (recur s p).space = s.space := rfl
@[simp] theorem recur_flash (s : State) (p : Periodic) : (recur s p).flash = s.flash := rfl
@[simp] theorem recur_stk (s : State) (p : Periodic) : (recur s p).stk = s.stk := rfl
@[simp] theorem recur_looms (s : State) (p : Periodic) : (recur s p).looms = s.looms := rfl
@[simp] theorem recur_reeds (s : State) (p : Periodic) : (recur s p).reeds = s.reeds := rfl
@[simp] theorem recur_prog (s : State) (p : Periodic) : (recur s p).prog = s.prog := rfl
@[simp] theorem recur_fabric (s : State) (p : Periodic) : (recur s p).fabric = s.fabric := rfl
@[simp] theorem recur_sent (s : State) (p : Periodic) : (recur s p).sent = s.sent := rfl
@[simp] theorem recur_fresh (s : State) (p : Periodic) : (recur s p).fresh = s.fresh := rfl

@[simp] theorem tick_pending (s : State) : (tick s).pending = s.pending := by unfold tick; split <;> rfl
@[simp] theorem tick_board (s : State) : (tick s).board = s.board := by unfold tick; split <;> rfl
@[simp] theorem tick_link (s : State) : (tick s).link = s.link := by unfold tick; split <;> rfl
@[simp] theorem tick_boot (s : State) : (tick s).boot = s.boot := by unfold tick; split <;> rfl
@[simp] theorem tick_glaesh (s : State) : (tick s).glaesh = s.glaesh := by unfold tick; split <;> rfl
@[simp] theorem tick_draught (s : State) : (tick s).draught = s.draught := by unfold tick; split <;> rfl
@[simp] theorem tick_service (s : State) : (tick s).service = s.service := by unfold tick; split <;> rfl
@[simp] theorem tick_fns (s : State) : (tick s).fns = s.fns := by unfold tick; split <;> rfl
@[simp] theorem tick_sched (s : State) : (tick s).sched = s.sched := by unfold tick; split <;> rfl
@[simp] theorem tick_space (s : State) : (tick s).space = s.space := by unfold tick; split <;> rfl
@[simp] theorem tick_flash (s : State) : (tick s).flash = s.flash := by unfold tick; split <;> rfl
@[simp] theorem tick_reeds (s : State) : (tick s).reeds = s.reeds := by unfold tick; split <;> rfl
@[simp] theorem tick_prog (s : State) : (tick s).prog = s.prog := by unfold tick; split <;> rfl
@[simp] theorem tick_fabric (s : State) : (tick s).fabric = s.fabric := by unfold tick; split <;> rfl
@[simp] theorem tick_sent (s : State) : (tick s).sent = s.sent := by unfold tick; split <;> rfl
@[simp] theorem tick_fresh (s : State) : (tick s).fresh = s.fresh := by unfold tick; split <;> rfl

@[simp] theorem setFn_pending (s : State) (f : Nat) (x : FnState) : (setFn s f x).pending = s.pending := rfl
@[simp] theorem setFn_time (s : State) (f : Nat) (x : FnState) : (setFn s f x).time = s.time := rfl
@[simp] theorem setFn_board (s : State) (f : Nat) (x : FnState) : (setFn s f x).board = s.board := rfl
@[simp] theorem setFn_link (s : State) (f : Nat) (x : FnState) : (setFn s f x).link = s.link := rfl
@[simp] theorem setFn_boot (s : State) (f : Nat) (x : FnState) : (setFn s f x).boot = s.boot := rfl
@[simp] theorem setFn_glaesh (s : State) (f : Nat) (x : FnState) : (setFn s f x).glaesh = s.glaesh := rfl
@[simp] theorem setFn_draught (s : State) (f : Nat) (x : FnState) : (setFn s f x).draught = s.draught := rfl
@[simp] theorem setFn_service (s : State) (f : Nat) (x : FnState) : (setFn s f x).service = s.service := rfl
@[simp] theorem setFn_sched (s : State) (f : Nat) (x : FnState) : (setFn s f x).sched = s.sched := rfl
@[simp] theorem setFn_space (s : State) (f : Nat) (x : FnState) : (setFn s f x).space = s.space := rfl
@[simp] theorem setFn_flash (s : State) (f : Nat) (x : FnState) : (setFn s f x).flash = s.flash := rfl
@[simp] theorem setFn_stk (s : State) (f : Nat) (x : FnState) : (setFn s f x).stk = s.stk := rfl
@[simp] theorem setFn_looms (s : State) (f : Nat) (x : FnState) : (setFn s f x).looms = s.looms := rfl
@[simp] theorem setFn_reeds (s : State) (f : Nat) (x : FnState) : (setFn s f x).reeds = s.reeds := rfl
@[simp] theorem setFn_prog (s : State) (f : Nat) (x : FnState) : (setFn s f x).prog = s.prog := rfl
@[simp] theorem setFn_fabric (s : State) (f : Nat) (x : FnState) : (setFn s f x).fabric = s.fabric := rfl
@[simp] theorem setFn_sent (s : State) (f : Nat) (x : FnState) : (setFn s f x).sent = s.sent := rfl
@[simp] theorem setFn_fresh (s : State) (f : Nat) (x : FnState) : (setFn s f x).fresh = s.fresh := rfl

@[simp] theorem updFn_pending (s : State) (f : Nat) (g : FnState → FnState) : (updFn s f g).pending = s.pending := rfl
@[simp] theorem updFn_time (s : State) (f : Nat) (g : FnState → FnState) : (updFn s f g).time = s.time := rfl
@[simp] theorem updFn_board (s : State) (f : Nat) (g : FnState → FnState) : (updFn s f g).board = s.board := rfl
@[simp] theorem updFn_link (s : State) (f : Nat) (g : FnState → FnState) : (updFn s f g).link = s.link := rfl
@[simp] theorem updFn_boot (s : State) (f : Nat) (g : FnState → FnState) : (updFn s f g).boot = s.boot := rfl
@[simp] theorem updFn_glaesh (s : State) (f : Nat) (g : FnState → FnState) : (updFn s f g).glaesh = s.glaesh := rfl
@[simp] theorem updFn_draught (s : State) (f : Nat) (g : FnState → FnState) : (updFn s f g).draught = s.draught := rfl
@[simp] theorem updFn_service (s : State) (f : Nat) (g : FnState → FnState) : (updFn s f g).service = s.service := rfl
@[simp] theorem updFn_sched (s : State) (f : Nat) (g : FnState → FnState) : (updFn s f g).sched = s.sched := rfl
@[simp] theorem updFn_space (s : State) (f : Nat) (g : FnState → FnState) : (updFn s f g).space = s.space := rfl
@[simp] theorem updFn_flash (s : State) (f : Nat) (g : FnState → FnState) : (updFn s f g).flash = s.flash := rfl
@[simp] theorem updFn_stk (s : State) (f : Nat) (g : FnState → FnState) : (updFn s f g).stk = s.stk := rfl
@[simp] theorem updFn_looms (s : State) (f : Nat) (g : FnState → FnState) : (updFn s f g).looms = s.looms := rfl
@[simp] theorem updFn_reeds (s : State) (f : Nat) (g : FnState → FnState) : (updFn s f g).reeds = s.reeds := rfl
@[simp] theorem updFn_prog (s : State) (f : Nat) (g : FnState → FnState) : (updFn s f g).prog = s.prog := rfl
@[simp] theorem updFn_fabric (s : State) (f : Nat) (g : FnState → FnState) : (updFn s f g).fabric = s.fabric := rfl
@[simp] theorem updFn_sent (s : State) (f : Nat) (g : FnState → FnState) : (updFn s f g).sent = s.sent := rfl
@[simp] theorem updFn_fresh (s : State) (f : Nat) (g : FnState → FnState) : (updFn s f g).fresh = s.fresh := rfl

@[simp] theorem mapFns_pending (s : State) (g : Nat → FnState → FnState) : (mapFns s g).pending = s.pending := rfl
@[simp] theorem mapFns_time (s : State) (g : Nat → FnState → FnState) : (mapFns s g).time = s.time := rfl
@[simp] theorem mapFns_board (s : State) (g : Nat → FnState → FnState) : (mapFns s g).board = s.board := rfl
@[simp] theorem mapFns_link (s : State) (g : Nat → FnState → FnState) : (mapFns s g).link = s.link := rfl
@[simp] theorem mapFns_boot (s : State) (g : Nat → FnState → FnState) : (mapFns s g).boot = s.boot := rfl
@[simp] theorem mapFns_glaesh (s : State) (g : Nat → FnState → FnState) : (mapFns s g).glaesh = s.glaesh := rfl
@[simp] theorem mapFns_draught (s : State) (g : Nat → FnState → FnState) : (mapFns s g).draught = s.draught := rfl
@[simp] theorem mapFns_service (s : State) (g : Nat → FnState → FnState) : (mapFns s g).service = s.service := rfl
@[simp] theorem mapFns_sched (s : State) (g : Nat → FnState → FnState) : (mapFns s g).sched = s.sched := rfl
@[simp] theorem mapFns_space (s : State) (g : Nat → FnState → FnState) : (mapFns s g).space = s.space := rfl
@[simp] theorem mapFns_flash (s : State) (g : Nat → FnState → FnState) : (mapFns s g).flash = s.flash := rfl
@[simp] theorem mapFns_stk (s : State) (g : Nat → FnState → FnState) : (mapFns s g).stk = s.stk := rfl
@[simp] theorem mapFns_looms (s : State) (g : Nat → FnState → FnState) : (mapFns s g).looms = s.looms := rfl
@[simp] theorem mapFns_reeds (s : State) (g : Nat → FnState → FnState) : (mapFns s g).reeds = s.reeds := rfl
@[simp] theorem mapFns_prog (s : State) (g : Nat → FnState → FnState) : (mapFns s g).prog = s.prog := rfl
@[simp] theorem mapFns_fabric (s : State) (g : Nat → FnState → FnState) : (mapFns s g).fabric = s.fabric := rfl
@[simp] theorem mapFns_sent (s : State) (g : Nat → FnState → FnState) : (mapFns s g).sent = s.sent := rfl
@[simp] theorem mapFns_fresh (s : State) (g : Nat → FnState → FnState) : (mapFns s g).fresh = s.fresh := rfl

@[simp] theorem violate_pending (s : State) (f n : Nat) : (violate s f n).pending = s.pending := rfl
@[simp] theorem violate_time (s : State) (f n : Nat) : (violate s f n).time = s.time := rfl
@[simp] theorem violate_board (s : State) (f n : Nat) : (violate s f n).board = s.board := rfl
@[simp] theorem violate_link (s : State) (f n : Nat) : (violate s f n).link = s.link := rfl
@[simp] theorem violate_boot (s : State) (f n : Nat) : (violate s f n).boot = s.boot := rfl
@[simp] theorem violate_glaesh (s : State) (f n : Nat) : (violate s f n).glaesh = s.glaesh := rfl
@[simp] theorem violate_draught (s : State) (f n : Nat) : (violate s f n).draught = s.draught := rfl
@[simp] theorem violate_service (s : State) (f n : Nat) : (violate s f n).service = s.service := rfl
@[simp] theorem violate_sched (s : State) (f n : Nat) : (violate s f n).sched = s.sched := rfl
@[simp] theorem violate_space (s : State) (f n : Nat) : (violate s f n).space = s.space := rfl
@[simp] theorem violate_flash (s : State) (f n : Nat) : (violate s f n).flash = s.flash := rfl
@[simp] theorem violate_stk (s : State) (f n : Nat) : (violate s f n).stk = s.stk := rfl
@[simp] theorem violate_looms (s : State) (f n : Nat) : (violate s f n).looms = s.looms := rfl
@[simp] theorem violate_reeds (s : State) (f n : Nat) : (violate s f n).reeds = s.reeds := rfl
@[simp] theorem violate_prog (s : State) (f n : Nat) : (violate s f n).prog = s.prog := rfl
@[simp] theorem violate_fabric (s : State) (f n : Nat) : (violate s f n).fabric = s.fabric := rfl
@[simp] theorem violate_sent (s : State) (f n : Nat) : (violate s f n).sent = s.sent := rfl
@[simp] theorem violate_fresh (s : State) (f n : Nat) : (violate s f n).fresh = s.fresh := rfl

@[simp] theorem postEvent_pending (s : State) (f : Nat) (c : Byte) (a b : BitVec 32) (d : BitVec 64) : (postEvent s f c a b d).pending = s.pending := rfl
@[simp] theorem postEvent_time (s : State) (f : Nat) (c : Byte) (a b : BitVec 32) (d : BitVec 64) : (postEvent s f c a b d).time = s.time := rfl
@[simp] theorem postEvent_board (s : State) (f : Nat) (c : Byte) (a b : BitVec 32) (d : BitVec 64) : (postEvent s f c a b d).board = s.board := rfl
@[simp] theorem postEvent_link (s : State) (f : Nat) (c : Byte) (a b : BitVec 32) (d : BitVec 64) : (postEvent s f c a b d).link = s.link := rfl
@[simp] theorem postEvent_boot (s : State) (f : Nat) (c : Byte) (a b : BitVec 32) (d : BitVec 64) : (postEvent s f c a b d).boot = s.boot := rfl
@[simp] theorem postEvent_glaesh (s : State) (f : Nat) (c : Byte) (a b : BitVec 32) (d : BitVec 64) : (postEvent s f c a b d).glaesh = s.glaesh := rfl
@[simp] theorem postEvent_draught (s : State) (f : Nat) (c : Byte) (a b : BitVec 32) (d : BitVec 64) : (postEvent s f c a b d).draught = s.draught := rfl
@[simp] theorem postEvent_service (s : State) (f : Nat) (c : Byte) (a b : BitVec 32) (d : BitVec 64) : (postEvent s f c a b d).service = s.service := rfl
@[simp] theorem postEvent_sched (s : State) (f : Nat) (c : Byte) (a b : BitVec 32) (d : BitVec 64) : (postEvent s f c a b d).sched = s.sched := rfl
@[simp] theorem postEvent_space (s : State) (f : Nat) (c : Byte) (a b : BitVec 32) (d : BitVec 64) : (postEvent s f c a b d).space = s.space := rfl
@[simp] theorem postEvent_flash (s : State) (f : Nat) (c : Byte) (a b : BitVec 32) (d : BitVec 64) : (postEvent s f c a b d).flash = s.flash := rfl
@[simp] theorem postEvent_stk (s : State) (f : Nat) (c : Byte) (a b : BitVec 32) (d : BitVec 64) : (postEvent s f c a b d).stk = s.stk := rfl
@[simp] theorem postEvent_looms (s : State) (f : Nat) (c : Byte) (a b : BitVec 32) (d : BitVec 64) : (postEvent s f c a b d).looms = s.looms := rfl
@[simp] theorem postEvent_reeds (s : State) (f : Nat) (c : Byte) (a b : BitVec 32) (d : BitVec 64) : (postEvent s f c a b d).reeds = s.reeds := rfl
@[simp] theorem postEvent_prog (s : State) (f : Nat) (c : Byte) (a b : BitVec 32) (d : BitVec 64) : (postEvent s f c a b d).prog = s.prog := rfl
@[simp] theorem postEvent_fabric (s : State) (f : Nat) (c : Byte) (a b : BitVec 32) (d : BitVec 64) : (postEvent s f c a b d).fabric = s.fabric := rfl
@[simp] theorem postEvent_sent (s : State) (f : Nat) (c : Byte) (a b : BitVec 32) (d : BitVec 64) : (postEvent s f c a b d).sent = s.sent := rfl
@[simp] theorem postEvent_fresh (s : State) (f : Nat) (c : Byte) (a b : BitVec 32) (d : BitVec 64) : (postEvent s f c a b d).fresh = s.fresh := rfl

@[simp] theorem setStatus_pending (s : State) (b : Nat) : (setStatus s b).pending = s.pending := rfl
@[simp] theorem setStatus_time (s : State) (b : Nat) : (setStatus s b).time = s.time := rfl
@[simp] theorem setStatus_link (s : State) (b : Nat) : (setStatus s b).link = s.link := rfl
@[simp] theorem setStatus_boot (s : State) (b : Nat) : (setStatus s b).boot = s.boot := rfl
@[simp] theorem setStatus_glaesh (s : State) (b : Nat) : (setStatus s b).glaesh = s.glaesh := rfl
@[simp] theorem setStatus_draught (s : State) (b : Nat) : (setStatus s b).draught = s.draught := rfl
@[simp] theorem setStatus_service (s : State) (b : Nat) : (setStatus s b).service = s.service := rfl
@[simp] theorem setStatus_fns (s : State) (b : Nat) : (setStatus s b).fns = s.fns := rfl
@[simp] theorem setStatus_sched (s : State) (b : Nat) : (setStatus s b).sched = s.sched := rfl
@[simp] theorem setStatus_space (s : State) (b : Nat) : (setStatus s b).space = s.space := rfl
@[simp] theorem setStatus_flash (s : State) (b : Nat) : (setStatus s b).flash = s.flash := rfl
@[simp] theorem setStatus_stk (s : State) (b : Nat) : (setStatus s b).stk = s.stk := rfl
@[simp] theorem setStatus_looms (s : State) (b : Nat) : (setStatus s b).looms = s.looms := rfl
@[simp] theorem setStatus_reeds (s : State) (b : Nat) : (setStatus s b).reeds = s.reeds := rfl
@[simp] theorem setStatus_prog (s : State) (b : Nat) : (setStatus s b).prog = s.prog := rfl
@[simp] theorem setStatus_fabric (s : State) (b : Nat) : (setStatus s b).fabric = s.fabric := rfl
@[simp] theorem setStatus_sent (s : State) (b : Nat) : (setStatus s b).sent = s.sent := rfl
@[simp] theorem setStatus_fresh (s : State) (b : Nat) : (setStatus s b).fresh = s.fresh := rfl

@[simp] theorem updAdm_pending (s : State) (cid : Nat) (g : Adm → Adm) : (updAdm s cid g).pending = s.pending := rfl
@[simp] theorem updAdm_time (s : State) (cid : Nat) (g : Adm → Adm) : (updAdm s cid g).time = s.time := rfl
@[simp] theorem updAdm_board (s : State) (cid : Nat) (g : Adm → Adm) : (updAdm s cid g).board = s.board := rfl
@[simp] theorem updAdm_link (s : State) (cid : Nat) (g : Adm → Adm) : (updAdm s cid g).link = s.link := rfl
@[simp] theorem updAdm_boot (s : State) (cid : Nat) (g : Adm → Adm) : (updAdm s cid g).boot = s.boot := rfl
@[simp] theorem updAdm_glaesh (s : State) (cid : Nat) (g : Adm → Adm) : (updAdm s cid g).glaesh = s.glaesh := rfl
@[simp] theorem updAdm_draught (s : State) (cid : Nat) (g : Adm → Adm) : (updAdm s cid g).draught = s.draught := rfl
@[simp] theorem updAdm_service (s : State) (cid : Nat) (g : Adm → Adm) : (updAdm s cid g).service = s.service := rfl
@[simp] theorem updAdm_fns (s : State) (cid : Nat) (g : Adm → Adm) : (updAdm s cid g).fns = s.fns := rfl
@[simp] theorem updAdm_space (s : State) (cid : Nat) (g : Adm → Adm) : (updAdm s cid g).space = s.space := rfl
@[simp] theorem updAdm_flash (s : State) (cid : Nat) (g : Adm → Adm) : (updAdm s cid g).flash = s.flash := rfl
@[simp] theorem updAdm_stk (s : State) (cid : Nat) (g : Adm → Adm) : (updAdm s cid g).stk = s.stk := rfl
@[simp] theorem updAdm_looms (s : State) (cid : Nat) (g : Adm → Adm) : (updAdm s cid g).looms = s.looms := rfl
@[simp] theorem updAdm_reeds (s : State) (cid : Nat) (g : Adm → Adm) : (updAdm s cid g).reeds = s.reeds := rfl
@[simp] theorem updAdm_prog (s : State) (cid : Nat) (g : Adm → Adm) : (updAdm s cid g).prog = s.prog := rfl
@[simp] theorem updAdm_fabric (s : State) (cid : Nat) (g : Adm → Adm) : (updAdm s cid g).fabric = s.fabric := rfl
@[simp] theorem updAdm_sent (s : State) (cid : Nat) (g : Adm → Adm) : (updAdm s cid g).sent = s.sent := rfl
@[simp] theorem updAdm_fresh (s : State) (cid : Nat) (g : Adm → Adm) : (updAdm s cid g).fresh = s.fresh := rfl

@[simp] theorem finish_pending (s : State) (cid : Nat) (r : Result) : (finish s cid r).pending = s.pending := rfl
@[simp] theorem finish_time (s : State) (cid : Nat) (r : Result) : (finish s cid r).time = s.time := rfl
@[simp] theorem finish_board (s : State) (cid : Nat) (r : Result) : (finish s cid r).board = s.board := rfl
@[simp] theorem finish_link (s : State) (cid : Nat) (r : Result) : (finish s cid r).link = s.link := rfl
@[simp] theorem finish_boot (s : State) (cid : Nat) (r : Result) : (finish s cid r).boot = s.boot := rfl
@[simp] theorem finish_glaesh (s : State) (cid : Nat) (r : Result) : (finish s cid r).glaesh = s.glaesh := rfl
@[simp] theorem finish_draught (s : State) (cid : Nat) (r : Result) : (finish s cid r).draught = s.draught := rfl
@[simp] theorem finish_service (s : State) (cid : Nat) (r : Result) : (finish s cid r).service = s.service := rfl
@[simp] theorem finish_fns (s : State) (cid : Nat) (r : Result) : (finish s cid r).fns = s.fns := rfl
@[simp] theorem finish_space (s : State) (cid : Nat) (r : Result) : (finish s cid r).space = s.space := rfl
@[simp] theorem finish_flash (s : State) (cid : Nat) (r : Result) : (finish s cid r).flash = s.flash := rfl
@[simp] theorem finish_stk (s : State) (cid : Nat) (r : Result) : (finish s cid r).stk = s.stk := rfl
@[simp] theorem finish_looms (s : State) (cid : Nat) (r : Result) : (finish s cid r).looms = s.looms := rfl
@[simp] theorem finish_reeds (s : State) (cid : Nat) (r : Result) : (finish s cid r).reeds = s.reeds := rfl
@[simp] theorem finish_prog (s : State) (cid : Nat) (r : Result) : (finish s cid r).prog = s.prog := rfl
@[simp] theorem finish_fabric (s : State) (cid : Nat) (r : Result) : (finish s cid r).fabric = s.fabric := rfl
@[simp] theorem finish_sent (s : State) (cid : Nat) (r : Result) : (finish s cid r).sent = s.sent := rfl
@[simp] theorem finish_fresh (s : State) (cid : Nat) (r : Result) : (finish s cid r).fresh = s.fresh := rfl

@[simp] theorem fail_pending (s : State) (cid : Nat) (st : Byte) : (fail s cid st).pending = s.pending := rfl
@[simp] theorem fail_time (s : State) (cid : Nat) (st : Byte) : (fail s cid st).time = s.time := rfl
@[simp] theorem fail_board (s : State) (cid : Nat) (st : Byte) : (fail s cid st).board = s.board := rfl
@[simp] theorem fail_link (s : State) (cid : Nat) (st : Byte) : (fail s cid st).link = s.link := rfl
@[simp] theorem fail_boot (s : State) (cid : Nat) (st : Byte) : (fail s cid st).boot = s.boot := rfl
@[simp] theorem fail_glaesh (s : State) (cid : Nat) (st : Byte) : (fail s cid st).glaesh = s.glaesh := rfl
@[simp] theorem fail_draught (s : State) (cid : Nat) (st : Byte) : (fail s cid st).draught = s.draught := rfl
@[simp] theorem fail_service (s : State) (cid : Nat) (st : Byte) : (fail s cid st).service = s.service := rfl
@[simp] theorem fail_fns (s : State) (cid : Nat) (st : Byte) : (fail s cid st).fns = s.fns := rfl
@[simp] theorem fail_space (s : State) (cid : Nat) (st : Byte) : (fail s cid st).space = s.space := rfl
@[simp] theorem fail_flash (s : State) (cid : Nat) (st : Byte) : (fail s cid st).flash = s.flash := rfl
@[simp] theorem fail_stk (s : State) (cid : Nat) (st : Byte) : (fail s cid st).stk = s.stk := rfl
@[simp] theorem fail_looms (s : State) (cid : Nat) (st : Byte) : (fail s cid st).looms = s.looms := rfl
@[simp] theorem fail_reeds (s : State) (cid : Nat) (st : Byte) : (fail s cid st).reeds = s.reeds := rfl
@[simp] theorem fail_prog (s : State) (cid : Nat) (st : Byte) : (fail s cid st).prog = s.prog := rfl
@[simp] theorem fail_fabric (s : State) (cid : Nat) (st : Byte) : (fail s cid st).fabric = s.fabric := rfl
@[simp] theorem fail_sent (s : State) (cid : Nat) (st : Byte) : (fail s cid st).sent = s.sent := rfl
@[simp] theorem fail_fresh (s : State) (cid : Nat) (st : Byte) : (fail s cid st).fresh = s.fresh := rfl

@[simp] theorem setPhase_pending (s : State) (cid : Nat) (p : Phase) : (setPhase s cid p).pending = s.pending := rfl
@[simp] theorem setPhase_time (s : State) (cid : Nat) (p : Phase) : (setPhase s cid p).time = s.time := rfl
@[simp] theorem setPhase_board (s : State) (cid : Nat) (p : Phase) : (setPhase s cid p).board = s.board := rfl
@[simp] theorem setPhase_link (s : State) (cid : Nat) (p : Phase) : (setPhase s cid p).link = s.link := rfl
@[simp] theorem setPhase_boot (s : State) (cid : Nat) (p : Phase) : (setPhase s cid p).boot = s.boot := rfl
@[simp] theorem setPhase_glaesh (s : State) (cid : Nat) (p : Phase) : (setPhase s cid p).glaesh = s.glaesh := rfl
@[simp] theorem setPhase_draught (s : State) (cid : Nat) (p : Phase) : (setPhase s cid p).draught = s.draught := rfl
@[simp] theorem setPhase_service (s : State) (cid : Nat) (p : Phase) : (setPhase s cid p).service = s.service := rfl
@[simp] theorem setPhase_fns (s : State) (cid : Nat) (p : Phase) : (setPhase s cid p).fns = s.fns := rfl
@[simp] theorem setPhase_space (s : State) (cid : Nat) (p : Phase) : (setPhase s cid p).space = s.space := rfl
@[simp] theorem setPhase_flash (s : State) (cid : Nat) (p : Phase) : (setPhase s cid p).flash = s.flash := rfl
@[simp] theorem setPhase_stk (s : State) (cid : Nat) (p : Phase) : (setPhase s cid p).stk = s.stk := rfl
@[simp] theorem setPhase_looms (s : State) (cid : Nat) (p : Phase) : (setPhase s cid p).looms = s.looms := rfl
@[simp] theorem setPhase_reeds (s : State) (cid : Nat) (p : Phase) : (setPhase s cid p).reeds = s.reeds := rfl
@[simp] theorem setPhase_prog (s : State) (cid : Nat) (p : Phase) : (setPhase s cid p).prog = s.prog := rfl
@[simp] theorem setPhase_fabric (s : State) (cid : Nat) (p : Phase) : (setPhase s cid p).fabric = s.fabric := rfl
@[simp] theorem setPhase_sent (s : State) (cid : Nat) (p : Phase) : (setPhase s cid p).sent = s.sent := rfl
@[simp] theorem setPhase_fresh (s : State) (cid : Nat) (p : Phase) : (setPhase s cid p).fresh = s.fresh := rfl

@[simp] theorem owe_pending (s : State) (cid ver : Nat) : (owe s cid ver).pending = s.pending := rfl
@[simp] theorem owe_time (s : State) (cid ver : Nat) : (owe s cid ver).time = s.time := rfl
@[simp] theorem owe_board (s : State) (cid ver : Nat) : (owe s cid ver).board = s.board := rfl
@[simp] theorem owe_link (s : State) (cid ver : Nat) : (owe s cid ver).link = s.link := rfl
@[simp] theorem owe_boot (s : State) (cid ver : Nat) : (owe s cid ver).boot = s.boot := rfl
@[simp] theorem owe_glaesh (s : State) (cid ver : Nat) : (owe s cid ver).glaesh = s.glaesh := rfl
@[simp] theorem owe_draught (s : State) (cid ver : Nat) : (owe s cid ver).draught = s.draught := rfl
@[simp] theorem owe_service (s : State) (cid ver : Nat) : (owe s cid ver).service = s.service := rfl
@[simp] theorem owe_fns (s : State) (cid ver : Nat) : (owe s cid ver).fns = s.fns := rfl
@[simp] theorem owe_space (s : State) (cid ver : Nat) : (owe s cid ver).space = s.space := rfl
@[simp] theorem owe_flash (s : State) (cid ver : Nat) : (owe s cid ver).flash = s.flash := rfl
@[simp] theorem owe_stk (s : State) (cid ver : Nat) : (owe s cid ver).stk = s.stk := rfl
@[simp] theorem owe_looms (s : State) (cid ver : Nat) : (owe s cid ver).looms = s.looms := rfl
@[simp] theorem owe_reeds (s : State) (cid ver : Nat) : (owe s cid ver).reeds = s.reeds := rfl
@[simp] theorem owe_prog (s : State) (cid ver : Nat) : (owe s cid ver).prog = s.prog := rfl
@[simp] theorem owe_fabric (s : State) (cid ver : Nat) : (owe s cid ver).fabric = s.fabric := rfl
@[simp] theorem owe_sent (s : State) (cid ver : Nat) : (owe s cid ver).sent = s.sent := rfl
@[simp] theorem owe_fresh (s : State) (cid ver : Nat) : (owe s cid ver).fresh = s.fresh := rfl

@[simp] theorem freshen_pending (s : State) : (freshen s).pending = s.pending := rfl
@[simp] theorem freshen_time (s : State) : (freshen s).time = s.time := rfl
@[simp] theorem freshen_board (s : State) : (freshen s).board = s.board := rfl
@[simp] theorem freshen_link (s : State) : (freshen s).link = s.link := rfl
@[simp] theorem freshen_boot (s : State) : (freshen s).boot = s.boot := rfl
@[simp] theorem freshen_glaesh (s : State) : (freshen s).glaesh = s.glaesh := rfl
@[simp] theorem freshen_draught (s : State) : (freshen s).draught = s.draught := rfl
@[simp] theorem freshen_service (s : State) : (freshen s).service = s.service := rfl
@[simp] theorem freshen_fns (s : State) : (freshen s).fns = s.fns := rfl
@[simp] theorem freshen_sched (s : State) : (freshen s).sched = s.sched := rfl
@[simp] theorem freshen_space (s : State) : (freshen s).space = s.space := rfl
@[simp] theorem freshen_flash (s : State) : (freshen s).flash = s.flash := rfl
@[simp] theorem freshen_stk (s : State) : (freshen s).stk = s.stk := rfl
@[simp] theorem freshen_looms (s : State) : (freshen s).looms = s.looms := rfl
@[simp] theorem freshen_reeds (s : State) : (freshen s).reeds = s.reeds := rfl
@[simp] theorem freshen_prog (s : State) : (freshen s).prog = s.prog := rfl
@[simp] theorem freshen_fabric (s : State) : (freshen s).fabric = s.fabric := rfl
@[simp] theorem freshen_sent (s : State) : (freshen s).sent = s.sent := rfl

@[simp] theorem putObj_pending (s : State) (oid : Nat) (o : Obj) : (putObj s oid o).pending = s.pending := rfl
@[simp] theorem putObj_time (s : State) (oid : Nat) (o : Obj) : (putObj s oid o).time = s.time := rfl
@[simp] theorem putObj_board (s : State) (oid : Nat) (o : Obj) : (putObj s oid o).board = s.board := rfl
@[simp] theorem putObj_link (s : State) (oid : Nat) (o : Obj) : (putObj s oid o).link = s.link := rfl
@[simp] theorem putObj_boot (s : State) (oid : Nat) (o : Obj) : (putObj s oid o).boot = s.boot := rfl
@[simp] theorem putObj_glaesh (s : State) (oid : Nat) (o : Obj) : (putObj s oid o).glaesh = s.glaesh := rfl
@[simp] theorem putObj_draught (s : State) (oid : Nat) (o : Obj) : (putObj s oid o).draught = s.draught := rfl
@[simp] theorem putObj_service (s : State) (oid : Nat) (o : Obj) : (putObj s oid o).service = s.service := rfl
@[simp] theorem putObj_fns (s : State) (oid : Nat) (o : Obj) : (putObj s oid o).fns = s.fns := rfl
@[simp] theorem putObj_sched (s : State) (oid : Nat) (o : Obj) : (putObj s oid o).sched = s.sched := rfl
@[simp] theorem putObj_flash (s : State) (oid : Nat) (o : Obj) : (putObj s oid o).flash = s.flash := rfl
@[simp] theorem putObj_stk (s : State) (oid : Nat) (o : Obj) : (putObj s oid o).stk = s.stk := rfl
@[simp] theorem putObj_looms (s : State) (oid : Nat) (o : Obj) : (putObj s oid o).looms = s.looms := rfl
@[simp] theorem putObj_reeds (s : State) (oid : Nat) (o : Obj) : (putObj s oid o).reeds = s.reeds := rfl
@[simp] theorem putObj_prog (s : State) (oid : Nat) (o : Obj) : (putObj s oid o).prog = s.prog := rfl
@[simp] theorem putObj_fabric (s : State) (oid : Nat) (o : Obj) : (putObj s oid o).fabric = s.fabric := rfl
@[simp] theorem putObj_sent (s : State) (oid : Nat) (o : Obj) : (putObj s oid o).sent = s.sent := rfl
@[simp] theorem putObj_fresh (s : State) (oid : Nat) (o : Obj) : (putObj s oid o).fresh = s.fresh := rfl

@[simp] theorem countTierFail_pending (s : State) (f : Nat) : (countTierFail s f).pending = s.pending := rfl
@[simp] theorem countTierFail_time (s : State) (f : Nat) : (countTierFail s f).time = s.time := rfl
@[simp] theorem countTierFail_board (s : State) (f : Nat) : (countTierFail s f).board = s.board := rfl
@[simp] theorem countTierFail_link (s : State) (f : Nat) : (countTierFail s f).link = s.link := rfl
@[simp] theorem countTierFail_boot (s : State) (f : Nat) : (countTierFail s f).boot = s.boot := rfl
@[simp] theorem countTierFail_glaesh (s : State) (f : Nat) : (countTierFail s f).glaesh = s.glaesh := rfl
@[simp] theorem countTierFail_draught (s : State) (f : Nat) : (countTierFail s f).draught = s.draught := rfl
@[simp] theorem countTierFail_service (s : State) (f : Nat) : (countTierFail s f).service = s.service := rfl
@[simp] theorem countTierFail_sched (s : State) (f : Nat) : (countTierFail s f).sched = s.sched := rfl
@[simp] theorem countTierFail_space (s : State) (f : Nat) : (countTierFail s f).space = s.space := rfl
@[simp] theorem countTierFail_flash (s : State) (f : Nat) : (countTierFail s f).flash = s.flash := rfl
@[simp] theorem countTierFail_stk (s : State) (f : Nat) : (countTierFail s f).stk = s.stk := rfl
@[simp] theorem countTierFail_looms (s : State) (f : Nat) : (countTierFail s f).looms = s.looms := rfl
@[simp] theorem countTierFail_reeds (s : State) (f : Nat) : (countTierFail s f).reeds = s.reeds := rfl
@[simp] theorem countTierFail_prog (s : State) (f : Nat) : (countTierFail s f).prog = s.prog := rfl
@[simp] theorem countTierFail_fabric (s : State) (f : Nat) : (countTierFail s f).fabric = s.fabric := rfl
@[simp] theorem countTierFail_sent (s : State) (f : Nat) : (countTierFail s f).sent = s.sent := rfl
@[simp] theorem countTierFail_fresh (s : State) (f : Nat) : (countTierFail s f).fresh = s.fresh := rfl

@[simp] theorem dropMove_pending (s : State) (oid ver g : Nat) : (dropMove s oid ver g).pending = s.pending := rfl
@[simp] theorem dropMove_time (s : State) (oid ver g : Nat) : (dropMove s oid ver g).time = s.time := rfl
@[simp] theorem dropMove_board (s : State) (oid ver g : Nat) : (dropMove s oid ver g).board = s.board := rfl
@[simp] theorem dropMove_link (s : State) (oid ver g : Nat) : (dropMove s oid ver g).link = s.link := rfl
@[simp] theorem dropMove_boot (s : State) (oid ver g : Nat) : (dropMove s oid ver g).boot = s.boot := rfl
@[simp] theorem dropMove_glaesh (s : State) (oid ver g : Nat) : (dropMove s oid ver g).glaesh = s.glaesh := rfl
@[simp] theorem dropMove_draught (s : State) (oid ver g : Nat) : (dropMove s oid ver g).draught = s.draught := rfl
@[simp] theorem dropMove_service (s : State) (oid ver g : Nat) : (dropMove s oid ver g).service = s.service := rfl
@[simp] theorem dropMove_fns (s : State) (oid ver g : Nat) : (dropMove s oid ver g).fns = s.fns := rfl
@[simp] theorem dropMove_sched (s : State) (oid ver g : Nat) : (dropMove s oid ver g).sched = s.sched := rfl
@[simp] theorem dropMove_flash (s : State) (oid ver g : Nat) : (dropMove s oid ver g).flash = s.flash := rfl
@[simp] theorem dropMove_stk (s : State) (oid ver g : Nat) : (dropMove s oid ver g).stk = s.stk := rfl
@[simp] theorem dropMove_looms (s : State) (oid ver g : Nat) : (dropMove s oid ver g).looms = s.looms := rfl
@[simp] theorem dropMove_reeds (s : State) (oid ver g : Nat) : (dropMove s oid ver g).reeds = s.reeds := rfl
@[simp] theorem dropMove_prog (s : State) (oid ver g : Nat) : (dropMove s oid ver g).prog = s.prog := rfl
@[simp] theorem dropMove_fabric (s : State) (oid ver g : Nat) : (dropMove s oid ver g).fabric = s.fabric := rfl
@[simp] theorem dropMove_sent (s : State) (oid ver g : Nat) : (dropMove s oid ver g).sent = s.sent := rfl
@[simp] theorem dropMove_fresh (s : State) (oid ver g : Nat) : (dropMove s oid ver g).fresh = s.fresh := rfl

@[simp] theorem setShaper_pending (s : State) (k : Nat) (x : Shaper) : (setShaper s k x).pending = s.pending := rfl
@[simp] theorem setShaper_time (s : State) (k : Nat) (x : Shaper) : (setShaper s k x).time = s.time := rfl
@[simp] theorem setShaper_board (s : State) (k : Nat) (x : Shaper) : (setShaper s k x).board = s.board := rfl
@[simp] theorem setShaper_link (s : State) (k : Nat) (x : Shaper) : (setShaper s k x).link = s.link := rfl
@[simp] theorem setShaper_boot (s : State) (k : Nat) (x : Shaper) : (setShaper s k x).boot = s.boot := rfl
@[simp] theorem setShaper_glaesh (s : State) (k : Nat) (x : Shaper) : (setShaper s k x).glaesh = s.glaesh := rfl
@[simp] theorem setShaper_draught (s : State) (k : Nat) (x : Shaper) : (setShaper s k x).draught = s.draught := rfl
@[simp] theorem setShaper_service (s : State) (k : Nat) (x : Shaper) : (setShaper s k x).service = s.service := rfl
@[simp] theorem setShaper_fns (s : State) (k : Nat) (x : Shaper) : (setShaper s k x).fns = s.fns := rfl
@[simp] theorem setShaper_space (s : State) (k : Nat) (x : Shaper) : (setShaper s k x).space = s.space := rfl
@[simp] theorem setShaper_flash (s : State) (k : Nat) (x : Shaper) : (setShaper s k x).flash = s.flash := rfl
@[simp] theorem setShaper_stk (s : State) (k : Nat) (x : Shaper) : (setShaper s k x).stk = s.stk := rfl
@[simp] theorem setShaper_looms (s : State) (k : Nat) (x : Shaper) : (setShaper s k x).looms = s.looms := rfl
@[simp] theorem setShaper_reeds (s : State) (k : Nat) (x : Shaper) : (setShaper s k x).reeds = s.reeds := rfl
@[simp] theorem setShaper_prog (s : State) (k : Nat) (x : Shaper) : (setShaper s k x).prog = s.prog := rfl
@[simp] theorem setShaper_fabric (s : State) (k : Nat) (x : Shaper) : (setShaper s k x).fabric = s.fabric := rfl
@[simp] theorem setShaper_sent (s : State) (k : Nat) (x : Shaper) : (setShaper s k x).sent = s.sent := rfl
@[simp] theorem setShaper_fresh (s : State) (k : Nat) (x : Shaper) : (setShaper s k x).fresh = s.fresh := rfl

end Sys2Proof.Machine
end

