-- ==== Sys2Proof/Laws/Ops.lean ====
section
/-! SUPPORT. What the shared operations do, once each: the records they read back, the life of an admitted command,
counters that saturate, events and interrupts. -/

namespace Sys2Proof.Machine
open Sys2Proof

/-! ### Functions -/

@[simp] theorem fnOf_setFn_same (s : State) (f : Nat) (x : FnState) : fnOf (setFn s f x) f = x := by
  simp [fnOf, setFn]

theorem fnOf_setFn_other (s : State) (f g : Nat) (x : FnState) (h : f ≠ g) : fnOf (setFn s f x) g = fnOf s g := by
  simp [fnOf, setFn, AMap.getD, h]

@[simp] theorem fnOf_updFn_same (s : State) (f : Nat) (k : FnState → FnState) : fnOf (updFn s f k) f = k (fnOf s f) := by
  simp [updFn]

theorem fnOf_updFn_other (s : State) (f g : Nat) (k : FnState → FnState) (h : f ≠ g) :
    fnOf (updFn s f k) g = fnOf s g := by
  simp [updFn, fnOf_setFn_other s f g _ h]

/-- A violation raises the function's counter and nothing else of it (R513), but none of a function that is being reset. -/
theorem violate_spec (s : State) (f n : Nat) (h : (fnOf s f).flr = false) :
    fnOf (violate s f n) f = { fnOf s f with violations := satAdd (fnOf s f).violations n } := by
  simp [violate, h]

/-! ### Counters -/

/-- A saturating counter never falls and stops at all ones. -/
theorem satAdd_toNat {w : Nat} (c : BitVec w) (n : Nat) : (satAdd c n).toNat = min (c.toNat + n) (2 ^ w - 1) := by
  unfold satAdd
  have hc := c.isLt
  split
  · rename_i h
    have hn : n < 2 ^ w := by omega
    rw [BitVec.toNat_add, BitVec.toNat_ofNat, Nat.mod_eq_of_lt hn, Nat.mod_eq_of_lt h]
    omega
  · rw [BitVec.toNat_allOnes]
    omega

theorem satAdd_mono {w : Nat} (c : BitVec w) (n : Nat) : c.toNat ≤ (satAdd c n).toNat := by
  rw [satAdd_toNat]
  have := c.isLt
  omega

/-! ### Admitted commands -/

theorem findAdm_updAdm_same (s : State) (cid : Nat) (g : Adm → Adm) (h : ∀ a, (g a).cmd.cid = a.cmd.cid) :
    findAdm (updAdm s cid g) cid = (findAdm s cid).map g := by
  unfold findAdm updAdm
  dsimp only
  generalize s.sched.admitted = l
  induction l with
  | nil => rfl
  | cons a l ih =>
    rw [List.map_cons, List.find?_cons, List.find?_cons, ih]
    by_cases ha : a.cmd.cid = cid
    · have hb : (a.cmd.cid == cid) = true := by simp [ha]
      have hc : ((g a).cmd.cid == cid) = true := by simp [h, ha]
      simp only [hb, if_true, hc, Option.map_some]
    · have hb : (a.cmd.cid == cid) = false := by simp [ha]
      simp only [hb, Bool.false_eq_true, if_false]

theorem findAdm_updAdm_other (s : State) (cid d : Nat) (g : Adm → Adm) (h : ∀ a, (g a).cmd.cid = a.cmd.cid) (hd : cid ≠ d) :
    findAdm (updAdm s cid g) d = findAdm s d := by
  unfold findAdm updAdm
  dsimp only
  generalize s.sched.admitted = l
  induction l with
  | nil => rfl
  | cons a l ih =>
    rw [List.map_cons, List.find?_cons, List.find?_cons, ih]
    by_cases ha : a.cmd.cid = cid
    · have hb : (a.cmd.cid == cid) = true := by simp [ha]
      have hc : ((g a).cmd.cid == d) = false := by simp [h, ha, hd]
      have he : (a.cmd.cid == d) = false := by simp [ha, hd]
      simp only [hb, if_true, hc, he]
    · have hb : (a.cmd.cid == cid) = false := by simp [ha]
      simp only [hb, Bool.false_eq_true, if_false]

/-- A finished command has its outcome; the rest of its record stays. -/
theorem findAdm_finish (s : State) (cid : Nat) (r : Result) :
    findAdm (finish s cid r) cid = (findAdm s cid).map (fun a => { a with phase := .done r }) :=
  findAdm_updAdm_same s cid _ (fun _ => rfl)

theorem findAdm_finish_other (s : State) (cid d : Nat) (r : Result) (h : cid ≠ d) :
    findAdm (finish s cid r) d = findAdm s d :=
  findAdm_updAdm_other s cid d _ (fun _ => rfl) h

/-- A command at work: it is admitted, it runs, its opcode is this one, and no channel holds its requests. -/
theorem running_eq_some (s : State) (cid op : Nat) (a : Adm) :
    running s cid op = some a ↔
      findAdm s cid = some a ∧ a.phase = .running ∧ a.cmd.opcode = op ∧ cmdHeld s a = false := by
  simp [running, Option.filter_eq_some_iff, and_assoc]

/-- An opcode row's work is metered and goes on, or nothing happens. -/
theorem withCmd_some (s : State) (cid op : Nat) (k : Adm → State) (a : Adm) (h : running s cid op = some a) :
    withCmd s cid op k = .next (meterCmd s (k a) cid a.cmd.fn) := by
  simp [withCmd, h]

theorem withCmd_none (s : State) (cid op : Nat) (k : Adm → State) (h : running s cid op = none) :
    withCmd s cid op k = .next s := by
  simp [withCmd, h]

theorem withCmd_goesOn (s : State) (cid op : Nat) (k : Adm → State) : ∃ t, withCmd s cid op k = .next t := by
  unfold withCmd
  split <;> exact ⟨_, rfl⟩

/-- Where the work charges nothing, the meter changes nothing (R464). -/
theorem meterCmd_quiet (s t : State) (cid f : Nat) (h : t.draught.activityPj = s.draught.activityPj) :
    meterCmd s t cid f = t := by
  simp [meterCmd, activity, h]

/-! ### Events and interrupts -/

/-- An event reaches only a function with bit 29 active, and is held while fewer than 64 are (R116, R520). -/
theorem postEvent_inactive (s : State) (f : Nat) (c : Byte) (a b : BitVec 32) (d : BitVec 64)
    (h : (fnOf s f).featActive.getLsbD 29 = false) : fnOf (postEvent s f c a b d) f = fnOf s f := by
  unfold postEvent
  rw [fnOf_updFn_same, h]
  simp only [Bool.not_false, if_true]

theorem postEvent_held (s : State) (f : Nat) (c : Byte) (a b : BitVec 32) (d : BitVec 64)
    (h : (fnOf s f).featActive.getLsbD 29 = true) (hn : (fnOf s f).events.length < 64) :
    (fnOf (postEvent s f c a b d) f).events = (fnOf s f).events ++ [⟨c, a, b, d⟩] := by
  unfold postEvent
  rw [fnOf_updFn_same, h]
  simp only [Bool.not_true, Bool.false_eq_true, if_false, hn, if_true]

/-! ### Objects -/

@[simp] theorem objOf_putObj_same (s : State) (oid : Nat) (o : Obj) : objOf (putObj s oid o) oid = some o := by
  simp [objOf, putObj]

theorem objOf_putObj_other (s : State) (oid other : Nat) (o : Obj) (h : oid ≠ other) :
    objOf (putObj s oid o) other = objOf s other := by
  simp [objOf, putObj, h]

end Sys2Proof.Machine
end

