-- ==== Sys2Proof/Laws/Commands.lean ====
section
/-! SUPPORT. What the end of a command's work leaves: its outcome, the other admitted commands, and what the meter of R464
keeps. -/

namespace Sys2Proof.Laws
open Sys2Proof Sys2Proof.Machine Sys2Proof.Safety

theorem doneWith_finish {s : State} {cid : Nat} {r : Result} {a : Adm} (h : findAdm s cid = some a) :
    doneWith (finish s cid r) cid (· = r) :=
  ⟨{ a with phase := .done r }, r, by rw [findAdm_finish, h]; rfl, rfl, rfl⟩

theorem otherCommandsKept_finish (s : State) (cid : Nat) (r : Result) : otherCommandsKept s (finish s cid r) cid :=
  fun c hc => findAdm_finish_other s cid c r (fun e => hc e.symm)

/-- The meter changes no more than the record of the command it is for (R464). -/
theorem meterCmd_kept (s t : State) (cid f : Nat) :
    meterCmd s t cid f = { t with sched := (meterCmd s t cid f).sched } := by
  unfold meterCmd
  split <;> rfl

theorem findAdm_meterCmd_other (s t : State) (cid f c : Nat) (h : c ≠ cid) :
    findAdm (meterCmd s t cid f) c = findAdm t c := by
  unfold meterCmd
  split
  · rfl
  · exact findAdm_updAdm_other t cid c _ (fun _ => rfl) (fun e => h e.symm)

/-- The meter leaves a command's outcome. -/
theorem doneWith_meterCmd {s t : State} {cid f : Nat} {p : Result → Prop} (h : doneWith t cid p) :
    doneWith (meterCmd s t cid f) cid p := by
  unfold meterCmd
  split
  · exact h
  · obtain ⟨b, r, h1, h2, h3⟩ := h
    exact ⟨{ b with energy := b.energy + (activity t f - activity s f) }, r,
      (findAdm_updAdm_same t cid (fun a => { a with energy := a.energy + (activity t f - activity s f) }) (fun _ => rfl)).trans
        (by rw [h1]; rfl), h2, h3⟩

theorem otherCommandsKept_meterCmd {s t : State} {cid f : Nat} (h : otherCommandsKept s t cid) :
    otherCommandsKept s (meterCmd s t cid f) cid :=
  fun c hc => (findAdm_meterCmd_other s t cid f c hc).trans (h c hc)

@[simp] theorem meterCmd_fns (s t : State) (cid f : Nat) : (meterCmd s t cid f).fns = t.fns := by
  rw [meterCmd_kept]

@[simp] theorem meterCmd_space (s t : State) (cid f : Nat) : (meterCmd s t cid f).space = t.space := by
  rw [meterCmd_kept]

@[simp] theorem meterCmd_sent (s t : State) (cid f : Nat) : (meterCmd s t cid f).sent = t.sent := by
  rw [meterCmd_kept]

/-- Where a command runs, it is admitted. -/
theorem findAdm_of_running {s : State} {cid op : Nat} {a : Adm} (h : running s cid op = some a) : findAdm s cid = some a :=
  ((running_eq_some s cid op a).1 h).1

end Sys2Proof.Laws
end

