-- ==== Sys2Proof/Tests/Slice0.lean ====
section
/-! SUPPORT. The model's own tests: ill-formed commands, the spec's worked examples, instruction words, single steps, and for
every statement of the obligations states that meet its hypotheses. -/



namespace Sys2Proof.Tests
set_option maxRecDepth 100000
set_option Elab.async false
open Sys2Proof Sys2Proof.Machine Sys2Proof.Safety

/-! ### States and commands the tests are built from -/

/-- Right after a power-on reset. -/
def off : State := State.reset

/-- The same with its input there and nothing that holds the rails off. -/
def inputOn : State := { off with board := { off.board with band := .normal, coolWait := false } }

/-- Function 0 as a host leaves it: ready, a ring of 512 records, every feature on, vectors 2 and 7 unmasked. -/
def readyFn : FnState := {
  ready := true, present := true, ringEn := true, ringLog2 := 9, ringBase := 1, featAccept := BitVec.allOnes 128
  featActive := BitVec.allOnes 128, msixEnable := true, apEn := 1, apBase := [(0, 0)]
  msix := [(2, { addr := 64, data := 2, masked := false }), (7, { addr := 64, data := 7, masked := false })] }

/-- A node in service. -/
def node : State := {
  off with
  time := 1000
  board := { off.board with configured := true, pwrGood := true, rails := 10, railsWanted := true, band := .normal, vinMv := 54000, resetting := false, coolWait := false }
  link := { off.link with up := true, refclk := true, width := 4, rate := 7 }
  boot := { off.boot with released := true, stages := [1, 2, 3, 4, 5, 6, 7, 8, 9], serviceReady := true, strapCode := 4 }
  service := { off.service with panel := 1 }
  fns := [(0, readyFn)] }

/-- The node with 255 virtual functions on. -/
def vfs : State := { node with
  link := { node.link with vfEnable := true, numVfs := 255 }
  fns := [(0, readyFn), (255, { ready := true, present := true })] }

/-- A start under way with stages behind it. -/
def starting (stages : List Nat) : State := { node with
  boot := { node.boot with starting := true, serviceReady := false, stages := stages } }

/-- A command of function 0 with number 1, its opcode and parameters. -/
def cmd (op : Nat) (fs : List (Nat × Nat × Nat)) : Cmd := ⟨1, 0, .host 0, lay 128 ((0, 2, op) :: fs), 0, none⟩

/-- The command admitted, with the objects it pins. -/
def pinned (op : Nat) (fs : List (Nat × Nat × Nat)) (pins : List (Nat × Nat)) : Adm :=
  { cmd := cmd op fs, seq := 1, admitted := 0, features := BitVec.allOnes 128, pins := pins }
def adm (op : Nat) (fs : List (Nat × Nat × Nat)) : Adm := pinned op fs []

/-- The node at work on a command, with these objects. -/
def run (a : Adm) (objs : AMap Obj) : State := { node with
  sched := { node.sched with admitted := [a], nextCid := 2, nextSeq := 2 }, space := { node.space with objs := objs } }

/-- A complete packet of 64 bytes as the window takes it (R104, R105). -/
def sealedPacket : List Byte := lay 64 [(2, 2, 64), (48, 2, 64), (60, 4, 0xC0A15EED)]

/-- A queued command with its deadline at count 100. -/
def late : Cmd := { cmd 0 [] with packet := sealedPacket, deadline := some 100 }

/-- A frame in the near tier and a data object of one granule. -/
def nearFrame : Frame := ⟨0, 0, .near, false, false, []⟩
def dataVer : Version := { num := 0, size := 4096, origin := 0 }
def dataObj : Obj := { fn := 0, kind := .data, base := 65536, span := 1, versions := [dataVer], next := 1, frames := [nearFrame] }

/-- The node with object 1. -/
def apNode (o : Obj) : State := { node with space := { objs := [(1, o)] } }

/-- An object of two versions. -/
def twoVersions : Obj := { fn := 0, kind := .table 3 4 1 0 1 0, base := 65536, span := 1, current := 1, tip := 2, next := 3
                           versions := [⟨1, 4096, [], 1, []⟩, ⟨2, 4096, [], 2, []⟩], frames := [⟨1, 0, .near, false, false, []⟩] }

/-- An index with a build of command 1 under way. -/
def builtIndex : Obj := { fn := 0, kind := .listIndex 32 false 1, base := 65536, span := 1, current := 1, tip := 1, next := 2
                          versions := [⟨1, 4096, [], 1, []⟩], building := [⟨1, 1, [], 64, true⟩] }

/-- A group of nodes 3 and 4, this one node 3, and a table of 32 rows over it. -/
def groupObj : Obj := { fn := 0, kind := .group [3, 4] 0, versions := [⟨0, 0, [], 0, []⟩] }
def tableObj : Obj := { fn := 0, kind := .table 3 32 1 0 1 1, base := 65536, span := 1, versions := [⟨1, 4096, [], 1, []⟩], current := 1, tip := 1, next := 2 }

/-- What a creation answers, and that it answers. -/
def made (x : Option (State × Nat)) : State × Nat := x.getD (off, 0)
theorem made_eq {x : Option (State × Nat)} (h : x.isSome = true) : x = some ((made x).1, (made x).2) := by
  cases x with
  | none => cases h
  | some y => rfl
def madeState (x : Option State) : State := x.getD off
theorem madeState_eq {x : Option State} (h : x.isSome = true) : x = some (madeState x) := by
  cases x with
  | none => cases h
  | some y => rfl

def edited (x : Option Edit) : Edit := x.getD { mem := [], size := 0 }
theorem edited_eq {x : Option Edit} (h : x.isSome = true) : x = some (edited x) := by
  cases x with
  | none => cases h
  | some y => rfl

/-- A property of granule 0 holds of each granule of a list of one. -/
theorem one_granule {p : Nat → Prop} {l : List Nat} (hl : l = [0]) (h : p 0) : ∀ g ∈ l, p g := by
  subst hl; simpa using h

/-- The next state of a command. -/
def after (i : Instr) (s : State) : State :=
  match exec i s with
  | .next t => t
  | _ => s

/-! ### Images, instances and shuttles -/

/-- A program image of one plan with one task of a kind and one instruction word. -/
def imgFields (k w : Nat) : List (Nat × Nat × Nat) :=
  [(0, 4, 0x56414557), (4, 2, 1), (6, 2, 1), (8, 4, 160), (16, 4, 64), (20, 4, 4), (24, 4, 128), (32, 4, 96), (64, 4, w),
   (96, 4, 128), (100, 2, 1), (108, 2, 1), (110, 2, 1), (112, 4, 64),
   (128, 1, k), (132, 2, 65535), (134, 2, 65535), (136, 2, 65535), (140, 2, 1), (148, 4, 1)]
def image (k w : Nat) : List Byte := lay 160 (imgFields k w ++ [(12, 4, crc32 (lay 160 (imgFields k w)))])
def imgObj (bs : List Byte) : Obj := { fn := 0, kind := .program, versions := [⟨0, bs.length, Mem.ofBytes bs, 0, []⟩] }
def progObj (k w : Nat) : Obj := imgObj (lay 160 (imgFields k w))

/-- An image of one instruction word, and one of a ranking model of 32 columns. -/
def wordImage (w : Nat) : List Byte := lay 68 [(16, 4, 64), (20, 4, 4), (64, 4, w)]
def modelObj : Obj := imgObj (lay 256 [(24, 4, 128), (28, 4, 128),
  (128, 4, 0x4D4B4E52), (132, 2, 2), (134, 2, 1), (161, 1, 2), (164, 4, 32), (168, 4, 1), (172, 4, 96),
  (192, 1, 1), (193, 1, 2), (196, 4, 1), (200, 4, 1)])

/-- An instance of the image on loom 0 with 64 bytes of its weave store. -/
def inst0 : Instance := { fn := 0, features := BitVec.allOnes 128, image := 1, plan := 0, argObj := 0, looms := [0], shuttles := 1
                          wsBytes := 64, wsBase := [(0, 0)], knots := [], tasks := [.running], running := [(0, 2)] }
def shuttle0 (g : AMap (BitVec 64)) : Shuttle := { state := .ready, inst := 5, g := g }

/-- The node with instance 5 on loom 0: shuttle 0 at an instruction word, knot 0 with target 10, data object 2. -/
def shOn (w : Nat) (g : AMap (BitVec 64)) : State := { node with
  prog := { node.prog with shuttles := [(0, shuttle0 g)], instances := [(5, inst0)], knots := [(0, { fn := 0, target := 10 })] }
  looms := { node.looms with looms := [(0, { owner := some 5, lines := [(1, 0)] })] }
  space := { node.space with objs := [(1, imgObj (wordImage w)), (2, dataObj)] } }
def ctx (w : Nat) (g : AMap (BitVec 64)) : ShCtx := ⟨0, shuttle0 g, 5, inst0, Mem.ofBytes (wordImage w), w⟩

/-- A node with an instance and an admitted command. -/
def live (a : Adm) (i : Instance) : State := { shOn 0 [] with
  sched := (run a []).sched, prog := { (shOn 0 []).prog with instances := [(5, i)] }
  space := { objs := [(1, progObj 0 0)] } }

/-- A register-only word of an opcode with RD 2, RA 1, RB 3. -/
def word (op : Nat) (low : Nat) : Nat := op * 2 ^ 26 + 2 * 2 ^ 20 + 1 * 2 ^ 14 + low

/-! ### Indexes and tables -/

/-- An empty table of one row of 32 FP32 columns, and a load stream of no block for it. -/
def tbl : Tbl := ⟨3, 1, 32, 0, 32, 0⟩
def rowTable : Obj := { fn := 0, kind := .table 3 1 32 0 32 0, base := 131072, span := 1, current := 1, tip := 1, next := 2
                        versions := [⟨1, tbl.size, Mem.ofBytes (tbl.header 1), 1, []⟩], frames := [⟨1, 0, .near, false, false, []⟩] }
def streamHead : List Byte := lay 64 [(0, 4, 0x54534254), (4, 1, 3), (8, 8, 1), (16, 4, 0), (20, 4, 32)]
def stream : List Byte := streamHead ++ lay 32 [(0, 4, 0x4E454254), (4, 4, crc32 streamHead)]

/-- An empty list index of one list and 32 dimensions. -/
def listIndex : Obj := { fn := 0, kind := .listIndex 32 false 1, base := 131072, span := 1, current := 1, tip := 1, next := 2
                         versions := [⟨1, (emptyList false 32 1).2, (emptyList false 32 1).1, 1, []⟩], frames := [⟨1, 0, .near, false, false, []⟩] }

/-- The index with one item in it. -/
def oneItem : Mem := (edited ((editOf listIndex 1).upserts [List.replicate (recordBytes listIndex true) 0])).mem

/-- Whether an outcome is a next state, and the state it is. -/
def isNext : Host.Outcome State Fault Refusal → Bool
  | .next _ => true
  | _ => false
theorem after_eq {i : Instr} {s : State} (h : isNext (exec i s) = true) : exec i s = .next (after i s) := by
  unfold after
  cases hx : exec i s <;> simp_all [isNext]

/-! ### The fabric, the flash and the arrays -/

/-- Node 3 on a fabric: port 0 active, nodes 4 and 9 behind it, every key held. -/
def fab : State := { node with
  fns := [(0, { readyFn with txKey := some (0, 0), rxKeys := [(0, 0)] })]
  glaesh := { node.glaesh with compKey := some 0, nodeKey := some 0 }
  fabric := { node.fabric with node := 3, runtime := 9, ports := [(0, { state := .active, width := 4 })], routes := [(4, 1), (9, 1)] } }
def fabRun (a : Adm) (objs : AMap Obj) : State := { fab with sched := (run a objs).sched, space := (run a objs).space }
def pkt (payload : List Byte) : Packet := ⟨0, 4, 0, 7, 0, 0, 1, 0, true, false, payload⟩

/-- A route of one port takes that port whatever the hash. -/
theorem one_port {s : State} {dst f c p : Nat} (h : routePorts s dst = [p]) : routePort s dst f c = some p := by
  simp [routePort, h, Nat.mod_one]
theorem reaches {s : State} {kind dst f c p : Nat} (h : routePorts s dst = [p])
    (hk : ((s.fabric.node != 0xFFFF || kind == 8) && !s.fabric.unreachable.contains dst && hasSendKey s kind f) = true) :
    reachable s kind dst f c = true := by
  simp [reachable, one_port h]
  simpa [and_assoc] using hk

/-- A port in a state. -/
def portIn (st : PortState) : State := { fab with fabric := { fab.fabric with ports := [(11, { state := st, held := [5] })] } }

/-- A packet kept until acknowledged, sent n times. -/
def kept (n : Nat) : State := { fab with fabric := { fab.fabric with retained := [⟨4, 7, 0, .trigOut, 1, n, 0, 0, false, false⟩] } }

/-- Bytes held for a stream of no command. -/
def fullOf (n : Nat) : State := { fab with fabric := { fab.fabric with
  streams := [{ fn := 0, id := 1, parts := [(0, false, List.replicate n 0)] }] } }
theorem held_of (n : Nat) : heldBytes (fullOf n) = n := by
  simp [fullOf, heldBytes, fab, node, off, State.reset]
theorem over_cap {s : State} (h : heldBytes s = 67108865) : 67108864 < heldBytes s + (pkt []).payload.length := by
  rw [h]; decide

/-- A node whose function waits at a broadcast that node 4 sends. -/
def coll0 : Coll := { fn := 0, members := [3, 4], seq := 1, kind := 0, root := 1, len := 8, k := 0, begun := true, cid := some 1 }

/-- A flash channel's die 511 with a program under way in block set 5 and a closed block set 827. -/
def program0 : Program := { obj := 1, ver := 0, gran := 0, set := 5, page := 0, stripe := 0, stripePage := 0, seq := 1 }
def mediaWith (ps : List Program) : State := { node with
  flash := { node.flash with dies := [(511, { retired24 := [62], programs := ps, sets := [(827, { state := .closed, erases := 300 })] })] } }
def media : State := mediaWith [program0]
def stripe0 : Stripe := { position := 0, stripe := 0, members := [(0, 0), (16, 0)], page := 0, filled := 0 }

/-- The flash that a move at once leaves, where it makes one. -/
theorem now_eq {x : Option Flash} (h : x.isSome = true) : x = some (x.getD {}) := by
  cases x with
  | none => cases h
  | some y => rfl

/-- An object whose granule is on the peat tier at a place of the media. -/
def peatFrame : Frame := ⟨0, 0, .peat, false, false, []⟩
def peatObj : Obj := { dataObj with frames := [peatFrame] }
def peatNode : State := { apNode peatObj with flash := { media.flash with map := [⟨1, 0, 0, 0, 0, 0, 0, 1⟩] } }

/-- A granule that is there, on a die in service, is not a lost one. -/
theorem not_lost {s : State} {obj gran : Nat} {o : Obj} {v : Version} {fr : Frame} (ho : objOf s obj = some o)
    (hv : verOf o o.current = some v) (hf : frameOf o v gran = some fr) (hl : fr.lost = false)
    (hd : ∀ l, locOf s.flash obj fr.ver gran = some l → (dieOf s.flash l.die).failed = false) :
    ∀ o v fr, objOf s obj = some o → verOf o o.current = some v → frameOf o v gran = some fr → fr.lost = false ∧
      ∀ l, locOf s.flash obj fr.ver gran = some l → (dieOf s.flash l.die).failed = false := by
  intro o' v' fr' h1 h2 h3
  rw [ho] at h1; cases h1
  rw [hv] at h2; cases h2
  rw [hf] at h3; cases h3
  exact ⟨hl, hd⟩

/-- A dense array descriptor over one row of data object 2, completing at offset 56 of the weave store. -/
def denseDesc : List Byte := lay 64 [(0, 1, 1), (1, 1, 2), (4, 2, 32), (6, 2, 48), (16, 4, 2), (40, 4, 1), (44, 2, 32), (48, 4, 64), (52, 4, 16384), (56, 2, 1), (60, 4, 2097144)]
def arr0 (d : List Byte) : ArrayDesc := { desc := d, fn := 0, inst := 5, task := none, started := true }
def loomWith (d : List Byte) : State := { shOn 0 [] with
  looms := { (shOn 0 []).looms with looms := [(0, { owner := some 5, phase := [(0, .streaming)], waitRise := [3], dq := [arr0 d] })] } }

/-- A reed with a descriptor of one key queued, or running, its completion in the weave store. -/
def reedDesc : ReedDesc := ⟨lay 64 [(4, 4, 1), (8, 8, 1), (16, 8, 65536), (48, 8, 2 ^ 63 + 48)], 0, 5, 0⟩
def reedNode : State := { shOn 0 [] with reeds := { (shOn 0 []).reeds with reeds := [(27, { queue := [reedDesc] }), (26, { running := some reedDesc })] } }

/-- A channel in a state, with a segment of command 1 queued or running, its output at the last word of its run. -/
def segBytes : List Byte := lay 64 [(1, 1, 1), (2, 2, 32), (4, 4, 1), (16, 4, 1), (20, 2, 32), (22, 2, 16), (28, 4, 1), (32, 8, 64), (40, 4, 1), (48, 8, 524284)]
def bigVer : Version := { num := 0, size := 524288, origin := 0 }
def bigFrame : Frame := ⟨0, 7, .near, false, false, []⟩
def bigObj : Obj := { dataObj with base := 524288, span := 8, versions := [bigVer], frames := [nearFrame, bigFrame] }
def segOne : Segment := ⟨segBytes, 0, .inl 1, 0, false⟩
def chan (st : ChanState) (a : Adm) : State := { run a [(1, bigObj), (2, dataObj)] with
  stk := { node.stk with sequences := [⟨1, 1, 0, [], []⟩], chans := [(639, { state := st, queue := [segOne], running := some segOne })] } }

/-! ### Ill-formed commands are refused, one for each check; the last of each range is not -/

theorem test_wf_conversions : Instr.wf (.powerOnReset [85] true) = false ∧ Instr.wf (.pinReset (List.replicate 8 1024)) = false ∧
    Instr.wf (.pinReset (List.replicate 8 1023)) = true := by decide
theorem test_wf_rail_code : Instr.wf (.railFault 0) = false ∧ Instr.wf (.railFault 12) = false ∧ Instr.wf (.railFault 11) = true := by decide
theorem test_wf_function : Instr.wf (.functionLevelReset 256) = false ∧ Instr.wf (.functionLevelReset 255) = true := by decide
theorem test_wf_vector : Instr.wf (.msixUnmask 0 8) = false ∧ Instr.wf (.msixUnmask 255 7) = true := by decide
theorem test_wf_sample_target : Instr.wf (.qsampleCountRead 256) = false := by decide
theorem test_wf_array : Instr.wf (.riseAdmit 128 0 true) = false ∧ Instr.wf (.riseAdmit 0 4 true) = false ∧
    Instr.wf (.riseAdmit 127 3 true) = true := by decide
theorem test_wf_loom : Instr.wf (.descriptorComplete 128 .clean) = false := by decide
theorem test_wf_channel : Instr.wf (.segmentStart 640) = false ∧ Instr.wf (.segmentStart 639) = true := by decide
theorem test_wf_stack : Instr.wf (.ioRateChange 20 0) = false ∧ Instr.wf (.flashRateChange 32 0) = false := by decide
theorem test_wf_shuttle : Instr.wf (.addi 16384) = false ∧ Instr.wf (.addi 16383) = true := by decide
theorem test_wf_reed : Instr.wf (.reedStart 28) = false ∧ Instr.wf (.reedStart 27) = true := by decide
theorem test_wf_port : Instr.wf (.portDetect 12) = false ∧ Instr.wf (.portDetect 11) = true := by decide
theorem test_wf_packet_function : Instr.wf (.push { pkt [] with fn := 256 }) = false ∧ Instr.wf (.push { pkt [] with port := 12 }) = false ∧ Instr.wf (.tenant 9 1 1 256 0) = false ∧
    Instr.wf (.drain 9 1 1 (some 256)) = false ∧ Instr.wf (.drain 9 1 1 none) = true := by decide
theorem test_wf_die : Instr.wf (.programComplete 512 true) = false ∧ Instr.wf (.programComplete 511 true) = true := by decide
theorem test_wf_readings : Instr.wf (.monitorSample []) = false ∧ Instr.wf (.droopEvent 16 0) = false ∧ Instr.wf (.ageingHour []) = false := by decide
theorem test_wf_stage : Instr.wf (.startStageEnd 0 false []) = false ∧ Instr.wf (.startStageEnd 10 false []) = false ∧
    Instr.wf (.snapshotTrigger 0) = false ∧ Instr.wf (.snapshotTrigger 6) = false := by decide
theorem test_wf_link : Instr.wf (.pcieLinkUp 0 4 false) = false ∧ Instr.wf (.pcieLinkUp 8 4 false) = false ∧ Instr.wf (.pcieLinkUp 7 3 false) = false ∧
    Instr.wf (.pcieLinkUp 7 4 false) = true := by decide

/-! ### The spec's worked examples -/

/-- Chapter 4: an inline query that ends its layout at byte 351 needs a LENGTH of 384. -/
theorem test_search_length : minLength 352 = 384 := by decide

/-- Chapter 9, block 0: scale 0x3000 and codes 7, -4, 3, -2, 1, 0. -/
theorem test_quant_block_plain :
    let xs : List Word := [0x3F600000] ++ List.replicate 3 0xBF000000 ++ List.replicate 4 0x3EA00000 ++ List.replicate 6 0xBE400000 ++
      List.replicate 8 0x3D800000 ++ List.replicate 10 0
    fp16.ofF32 (quantBlock fp16 7 xs).1 = 0x3000 ∧
    (quantBlock fp16 7 xs).2 = [7] ++ List.replicate 3 (-4) ++ List.replicate 4 3 ++ List.replicate 6 (-2) ++ List.replicate 8 1 ++ List.replicate 10 0 := by
  decide +kernel

/-- Chapter 9, block 1: the search picks candidate 1, scale 0x3400; the codes and their packed bytes. -/
theorem test_quant_block_searched :
    let xs : List Word := List.replicate 8 0x3E800000 ++ [0x40600000] ++ List.replicate 7 0x3E800000 ++ List.replicate 16 0xBE400000
    fp16.ofF32 (quantBlock fp16 7 xs).1 = 0x3400 ∧
    pack4 (quantBlock fp16 7 xs).2 = List.replicate 4 0x11 ++ [0x17] ++ List.replicate 3 0x11 ++ List.replicate 8 0xFF := by
  decide +kernel

/-- Chapter 12: the primaries of the scores 0.75, 0.625, 0.5 and 0.4375. -/
theorem test_primaries :
    [0x3F400000#32, 0x3F200000#32, 0x3F000000#32, 0x3EE00000#32].map (fun s => rankOf true s 0) =
      [some (0x40BFFFFF, 0), some (0x40DFFFFF, 0), some (0x40FFFFFF, 0), some (0x411FFFFF, 0)] := by decide

/-- Chapter 12: duplicates and a tie at place 4. -/
theorem test_topk_tie :
    topK true true 4 [⟨701, 0xC0000000028, 0x3F400000, 1⟩, ⟨702, 0xC0000000029, 0x3F200000, 1⟩, ⟨703, 0xC0000000007, 0x3F000000, 1⟩,
      ⟨704, 0x1E0000000002, 0x3F000000, 1⟩, ⟨701, 0x50000000384, 0x3F400000, 1⟩, ⟨705, 0x50000000003, 0x3F000000, 1⟩,
      ⟨707, 0x50000000004, 0x3EE00000, 1⟩] =
    [⟨701, 0x50000000384, 0x3F400000, 2⟩, ⟨702, 0xC0000000029, 0x3F200000, 1⟩, ⟨705, 0x50000000003, 0x3F000000, 1⟩,
      ⟨703, 0xC0000000007, 0x3F000000, 1⟩] := by decide +kernel

/-- Chapter 11: lists of the coarse scores rank 1, 2, 4, 7, 5, 0, 3, 6. -/
theorem test_list_order :
    (byRank true ([0x3E400000#32, 0x3F100000#32, 0x3F100000#32, 0x3D800000#32, 0x3EE00000#32, 0x3E800000#32, 0x3D000000#32, 0x3EC00000#32].zipIdx.map
      (fun e => (⟨e.2, e.2, e.1, 1⟩ : Entry)))).map (·.item) = [1, 2, 4, 7, 5, 0, 3, 6] := by decide +kernel

/-- Chapter 15: the canonical codes of the example table, and its nine bytes from three. -/
def exampleLens : List Nat := (List.range 256).map (fun s =>
  if s = 0x11 ∨ s = 0xFF then 2 else if s = 0 ∨ s = 0xEE then 3 else if s = 0x17 ∨ s = 0x33 ∨ s = 0xC7 ∨ s = 0xCC then 4 else 0)
theorem test_canonical_codes : canonical exampleLens =
    [(2, 0, 0x11), (2, 1, 0xFF), (3, 4, 0), (3, 5, 0xEE), (4, 12, 0x17), (4, 13, 0x33), (4, 14, 0xC7), (4, 15, 0xCC)] := by decide +kernel
theorem test_coded_fragment :
    decodeSyms [canonical exampleLens] [0] 9 0 (bitsOf [0x00, 0x03, 0x08]) = [0x11, 0x11, 0x11, 0x11, 0x17, 0x11, 0x11, 0x11, 0xFF] := by decide +kernel

/-- Chapter 16: D of weight 512 and of weight 256. -/
theorem test_increment : increment { weight := 512 } = 32768 ∧ increment {} = 65536 := by decide

/-- Chapter 18: a strap of 909 ohm, and the status after the third failed start. -/
theorem test_strap : strapDecode 85 = (0, false, false, false) := by decide
theorem test_reset_status :
    devRegB { node with boot := { node.boot with cause := 5, kindling := true, slotRun := 15, trialFailed := true, failCount := 3, failStage := 5 } } 0x21000 =
      0x000000500301F105 := by decide +kernel

/-- Chapter 20: 2,400 corrected errors, 150,000 stage 2 reads and one retrain leave 95 and the good state. -/
theorem test_health : healthScore { node with service := { node.service with ce24 := [2400], soft24 := [150000], retrains24 := [1] } } = 95 ∧
    healthState false 95 0 = 0 := by decide +kernel

/-- Chapter 21: the bank of stack 16 with its channel 2 in exit and 12 held reads. -/
theorem test_stack_bank :
    let s : State := { node with stk := { node.stk with chans := [(514, { state := .exit, held := List.replicate 12 ⟨0, .aperture, 0, 17, 0, 0, 8, .read, []⟩ })] } }
    field (bankBytes s 172) 0 8 = 0x010200AC ∧ field (bankBytes s 172) 16 8 = 0x300 ∧ field (bankBytes s 172) 32 8 = 0xC0000 := by decide +kernel

/-! ### Instruction words written out from the encoding (R279-R284): opcode, RD, RA, RB or immediate -/

theorem test_decode_register : shDecode 0b000000_000010_000001_000011_00000000 true = some .alu ∧
    shDecode 0b000010_000010_000001_00000000000111 true = some .addi ∧ shDecode 0b001000_000010_000001_00000000000111 true = some .lui ∧
    shDecode 0b000000_000010_000001_000011_00010110 true = none := by decide
theorem test_decode_memory : shDecode 0b010011_000010_000001_00000000001000 true = some .ld8 ∧
    shDecode 0b011011_000010_000001_00000000001000 true = some .st8 ∧ shDecode 0b011110_000010_000001_000011_00000010 true = some .amo ∧
    shDecode 0b011110_000010_000001_000011_00000011 true = none := by decide
theorem test_decode_control : shDecode 0b100000_000010_000001_11111111111111 true = some .beq ∧
    shDecode 0b111010_00000000000000000000000000 true = some .halt ∧ shDecode 0b111010_00000000000000000000000001 true = none ∧
    shDecode 0b111111_00000000000000000000000000 true = none := by decide
theorem test_decode_knots : shDecode 0b110000_000000_000001_00000000000001 true = some .karr ∧
    shDecode 0b110000_000000_000001_00000000000000 true = none ∧ shDecode 0b111001_000000_000000_00000000000010 true = some .irq ∧
    shDecode 0b111001_000000_000000_00000000000001 true = none := by decide

/-! ### One step on a small state -/

/-- R64: the tenth rail raises PWR_GOOD. -/
theorem test_last_rail : (after .railEnable { off with board := { off.board with railsWanted := true, rails := 9 } }).board.pwrGood = true := by decide +kernel
/-- R274: a write to g0 is discarded, and ADDI -1 wraps. -/
theorem test_addi_wraps : (shuttleOf (after (.addi 0) (shOn 0b000010_000010_000001_11111111111111 [])) 0).reg 2 = 0xFFFFFFFFFFFFFFFF := by decide +kernel
theorem test_addi_g0 : (shuttleOf (after (.addi 0) (shOn 0b000010_000000_000001_11111111111111 [])) 0).reg 0 = 0 := by decide +kernel
/-- R19: a tick. -/
theorem test_idle : (match step node with | .next t => t.time | _ => 0) = 1001 := by decide +kernel
/-- R427: a tables frame takes a slot of its port, and is not taken while all 8 are held. -/
def tablesPkt : Packet := { pkt (lay 152 [(0, 1, 2), (2, 1, 1), (4, 4, 128), (8, 4, 65536)]) with compressed := true, last := false, ctx := 9 }
def eightHeld : State := { fab with fabric := { fab.fabric with
  streams := (List.range 8).map (fun i => { fn := 0, id := i })
  ports := [(0, { state := .active, width := 4, tables := (List.range 8).map (fun i => ⟨false, 0, 0, i, 0, 65536⟩) })] } }
theorem test_table_slots : slotsUsed (after (.push tablesPkt) { fab with fabric := { fab.fabric with routes := [] } }) 0 = 1 ∧ slotsUsed eightHeld 0 = 8 ∧
    (after (.push tablesPkt) eightHeld).fabric.streams.length = 8 := by decide +kernel

/-! ### The statements' hypotheses can be met -/

/-- `Obligations.StepRunsFrontCommand`: its hypotheses can be met. -/
theorem met_StepRunsFrontCommand :
    (∃ (c : Instr) (rest : List Instr) (s : State), s.pending = c :: rest) ∧
    (∃ (s : State), s.pending = []) :=
  ⟨
    ⟨.journalWrite, [], { node with pending := [.journalWrite] }, by decide +kernel⟩,
    ⟨node, by decide +kernel⟩⟩

/-- `Obligations.RailsStayInOrder`: its hypotheses can be met. -/
theorem met_RailsStayInOrder :
    (∃ (s t : State), railsOrdered s ∧ step s = .next t) :=
  ⟨node, { node with time := node.time + 1 }, by unfold Safety.railsOrdered; decide +kernel, rfl⟩

/-- `Obligations.SecurityVersionNeverFalls`: its hypotheses can be met. -/
theorem met_SecurityVersionNeverFalls :
    (∃ (s t : State), step s = .next t) ∧
    (∃ (s : State), s.boot.starting = true ∧ s.boot.kindling = false ∧ 8 ∈ s.boot.stages ∧ 9 ∉ s.boot.stages) :=
  ⟨
    ⟨node, { node with time := node.time + 1 }, rfl⟩,
    ⟨starting [1, 2, 3, 4, 5, 6, 7, 8], by decide +kernel⟩⟩

/-- `Obligations.DeviceResetsBegin`: its hypotheses can be met. -/
theorem met_DeviceResetsBegin :
    (∃ (s : State), (s.board.powered = true → s.board.band = .absent ∧ s.board.rails = 0 ∧ s.board.holdUp = false)) ∧
    (∃ (s : State), s.board.powered = true ∧ s.board.holdUp = false ∧ s.service.mode ≠ .dormant ∧ s.boot.released = true) ∧
    (∃ (s : State), railsFree s.board ∧ s.service.mode = .dormant) ∧
    (∃ (s : State), s.board.powered = true ∧ s.board.holdUp = false ∧ s.service.mode ≠ .dormant ∧ s.boot.released = false) ∧
    (∃ (s : State), s.board.powered = true ∧ s.board.holdUp = true) ∧
    (∃ (vin : Bool) (s : State), s.board.holdUp = true ∧ s.board.heldCycle = false ∧ s.service.mode ≠ .removal ∧ railsFree { s.board with holdUp := false, rails := 0, cyclePending := false, band := if (vin || s.board.heldVin) && s.board.band == .absent then .normal else s.board.band }) ∧
    (∃ (s : State), s.board.powered = true ∧ s.board.holdUp = true ∧ s.board.heldCycle = false ∧ s.board.heldVin = false ∧ s.board.band = .absent ∧ s.service.mode ≠ .removal) ∧
    (∃ (s : State), s.board.powered = true ∧ s.board.holdUp = true) ∧
    (∃ (hot : Int) (s : State), s.board.tripLatch = true ∧ s.board.restored = true ∧ hot < 1440 ∧ s.board.restart ≠ 0 ∧ railsFree { s.board with tripLatch := false, hotX16 := hot } ∧ s.service.mode ≠ .dormant ∧ s.service.mode ≠ .safe) ∧
    (∃ (s : State), s.board.cyclePending = true ∧ s.board.restart ≠ 0 ∧ railsFree { s.board with cyclePending := false } ∧ s.service.mode ≠ .dormant ∧ s.service.mode ≠ .safe) :=
  ⟨
    ⟨off, by decide +kernel⟩,
    ⟨node, by decide +kernel⟩,
    ⟨{ inputOn with service := { off.service with mode := .dormant } }, by unfold railsFree; decide +kernel, by decide +kernel⟩,
    ⟨off, by decide +kernel⟩,
    ⟨{ node with board := { node.board with holdUp := true, pwrGood := false } }, by decide +kernel⟩,
    ⟨false, { node with board := { node.board with holdUp := true, pwrGood := false } }, by decide +kernel, by decide +kernel, by decide +kernel, by unfold railsFree; decide +kernel⟩,
    ⟨{ node with board := { node.board with holdUp := true, pwrGood := false, band := .absent } }, by decide +kernel⟩,
    ⟨{ node with board := { node.board with holdUp := true, pwrGood := false } }, by decide +kernel⟩,
    ⟨1439, { inputOn with board := { inputOn.board with tripLatch := true, restored := true, restart := 3 } }, by decide +kernel, by decide +kernel, by decide +kernel, by decide +kernel, by unfold railsFree; decide +kernel, by decide +kernel⟩,
    ⟨{ inputOn with board := { inputOn.board with cyclePending := true, restart := 4 } }, by decide +kernel, by decide +kernel, by unfold railsFree; decide +kernel, by decide +kernel⟩⟩

/-- `Obligations.RailsComeUp`: its hypotheses can be met. -/
theorem met_RailsComeUp :
    (∃ (mv : Nat) (s : State), s.board.band = .absent ∧ s.board.restart = 0 ∧ s.service.mode ≠ .dormant ∧ railsFree { s.board with band := bandOf mv, railLatch := false }) ∧
    (∃ (mv : Nat) (s : State), s.board.band = .absent ∧ s.board.restart ≠ 0 ∧ s.service.mode ≠ .dormant ∧ railsFree { s.board with band := bandOf mv, railLatch := false }) ∧
    (∃ (s : State), s.board.powered = true ∧ s.board.holdUp = true) ∧
    (∃ (s : State), s.board.railsWanted = true ∧ 1 ≤ s.board.rails ∧ s.board.rails < 10) ∧
    (∃ (s : State), s.board.powered = true ∧ s.board.pwrGood = true ∧ s.boot.released = false ∧ releaseDue s < 2 ^ 64) ∧
    (∃ (mv : Nat) (s : State), s.board.switchClosed = false ∧ s.board.lockedOpen = false ∧ 49000 ≤ mv ∧ mv ≤ 60000 ∧ s.board.restart ≠ 0 ∧ railsFree { s.board with switchClosed := true, band := bandOf mv } ∧ s.service.mode ≠ .dormant ∧ s.service.mode ≠ .safe) ∧
    (∃ (hot : Int) (s : State), s.board.coolWait = true ∧ hot < 1440 ∧ s.board.restart = 0 ∧ railsFree { s.board with hotX16 := hot } ∧ s.service.mode ≠ .dormant ∧ s.service.mode ≠ .safe) :=
  ⟨
    ⟨48000, off, by decide +kernel, by decide +kernel, by decide +kernel, by unfold railsFree; decide +kernel⟩,
    ⟨48000, { off with board := { off.board with restart := 3 } }, by decide +kernel, by decide +kernel, by decide +kernel, by unfold railsFree; decide +kernel⟩,
    ⟨{ node with board := { node.board with holdUp := true, pwrGood := false } }, by decide +kernel⟩,
    ⟨{ off with board := { off.board with railsWanted := true, rails := 9 } }, by decide +kernel⟩,
    ⟨{ off with board := node.board }, by decide +kernel⟩,
    ⟨49000, { inputOn with board := { inputOn.board with switchClosed := false, restart := 3 } }, by decide +kernel, by decide +kernel, by decide +kernel, by decide +kernel, by decide +kernel, by unfold railsFree; decide +kernel, by decide +kernel⟩,
    ⟨1439, { inputOn with board := { inputOn.board with coolWait := true, hotX16 := 1440 } }, by decide +kernel, by decide +kernel, by decide +kernel, by unfold railsFree; decide +kernel, by decide +kernel⟩⟩

/-- `Obligations.RailsGoOff`: its hypotheses can be met. -/
theorem met_RailsGoOff :
    (∃ (s : State), s.board.rails ≠ 0 ∧ s.board.railLatch = false ∧ s.board.holdUp = false) ∧
    (∃ (temp : Int) (s : State), s.board.powered = true ∧ s.board.holdUp = false ∧ s.board.rails ≠ 0 ∧ 1840 ≤ temp) ∧
    (∃ (s : State), s.board.powered = true ∧ s.board.pwrGood = true) ∧
    (∃ (s : State), s.board.powered = true ∧ s.board.pwrGood = true ∧ s.board.switchClosed = true) ∧
    (∃ (s : State), s.board.powered = true ∧ s.board.pwrGood = true ∧ s.board.switchClosed = true) ∧
    (∃ (pec : Option Byte) (s : State), s.board.powered = true ∧ pecOk 8 [0xA5] pec = true ∧ s.board.holdUp = false ∧ (s.board.tripLatch = true → s.board.hotX16 < 1440)) ∧
    (∃ (pec : Option Byte) (s : State), s.board.powered = true ∧ pecOk 8 [0xA5] pec = true ∧ s.board.holdUp = true ∧ s.board.tripLatch = false) ∧
    (∃ (v : Byte) (pec : Option Byte) (s : State), s.board.powered = true ∧ pecOk 8 [v] pec = true ∧ (v ≠ 0xA5 ∨ (s.board.tripLatch = true ∧ 1440 ≤ s.board.hotX16))) :=
  ⟨
    ⟨node, by decide +kernel⟩,
    ⟨1840, node, by decide +kernel⟩,
    ⟨node, by decide +kernel⟩,
    ⟨node, by decide +kernel⟩,
    ⟨node, by decide +kernel⟩,
    ⟨none, node, by decide +kernel⟩,
    ⟨some 85, { node with board := { node.board with holdUp := true, pwrGood := false } }, by decide +kernel⟩,
    ⟨0xA4, none, node, by decide +kernel, by decide +kernel, .inl (by decide +kernel)⟩⟩

/-- `Obligations.ManagementEndpoint`: its hypotheses can be met. -/
theorem met_ManagementEndpoint :
    (∃ (mv : Nat) (s : State), s.board.powered = true ∧ s.board.band ≠ .absent ∧ 47000 ≤ mv ∧ mv ≤ 63000 ∧ s.board.band ≠ (if mv < 50000 then .low else if mv ≤ 60000 then .normal else .high)) ∧
    (∃ (s : State), s.board.powered = true ∧ s.board.band ≠ .absent) ∧
    (∃ (s : State), s.board.powered = true ∧ s.board.band = .absent ∧ s.board.holdUp = false) ∧
    (∃ (v : BitVec 16) (pec : Option Byte) (s : State), s.board.powered = true ∧ pecOk 1 (toLE 2 v.toNat) pec = true) ∧
    (∃ (v : BitVec 16) (pec : Option Byte) (s : State), s.board.powered = true ∧ pecOk 1 (toLE 2 v.toNat) pec = false) ∧
    (∃ (v : BitVec 16) (pec : Option Byte) (s : State), s.board.powered = true ∧ pecOk 9 (toLE 2 v.toNat) pec = true) ∧
    (∃ (v : Int) (s : State), s.board.powered = true ∧ s.board.inlet = some v ∧ (s.board.inletAt + 1000000000).toNat < 2 ^ 64) ∧
    (∃ (s : State), s.board.powered = true ∧ s.board.alertN = false) ∧
    (∃ (s : State), s.board.powered = true) ∧
    (∃ (s : State), s.board.powered = true) ∧
    (∃ (s : State), s.board.powered = true ∧ s.board.band = .low) :=
  ⟨
    ⟨47000, node, by decide +kernel⟩,
    ⟨node, by decide +kernel⟩,
    ⟨off, by decide +kernel⟩,
    ⟨1, none, node, by decide +kernel⟩,
    ⟨1, some 0, node, by decide +kernel⟩,
    ⟨640, none, node, by decide +kernel⟩,
    ⟨640, { node with board := { node.board with inlet := some 640 } }, by decide +kernel⟩,
    ⟨{ node with board := { node.board with alertN := false } }, by decide +kernel⟩,
    ⟨node, by decide +kernel⟩,
    ⟨node, by decide +kernel⟩,
    ⟨{ node with board := { node.board with band := .low } }, by decide +kernel⟩⟩

/-- `Obligations.PinsAndBoundaryScan`: its hypotheses can be met. -/
theorem met_PinsAndBoundaryScan :
    (∃ (s : State), s.board.powered = true) ∧
    (∃ (s : State), s.board.powered = true ∧ s.board.configured = true ∧ s.board.resetting = false ∧ s.service.snapSrc.getLsbD 0 = true ∧ s.service.frozen = false) ∧
    (∃ (s : State), s.board.powered = true ∧ s.board.resetting = true) ∧
    (∃ (s : State), s.board.powered = true) ∧
    (∃ (s : State), s.board.powered = true) ∧
    (∃ (s : State), s.board.powered = true) ∧
    (∃ (s : State), s.board.powered = true) ∧
    (∃ (s : State), s.board.powered = true ∧ s.board.perstLow = true) ∧
    (∃ (s : State), s.board.powered = true ∧ s.board.perstLow = false) :=
  ⟨
    ⟨node, by decide +kernel⟩,
    ⟨node, by decide +kernel⟩,
    ⟨off, by decide +kernel⟩,
    ⟨node, by decide +kernel⟩,
    ⟨node, by decide +kernel⟩,
    ⟨node, by decide +kernel⟩,
    ⟨node, by decide +kernel⟩,
    ⟨{ node with board := { node.board with perstLow := true } }, by decide +kernel⟩,
    ⟨node, by decide +kernel⟩⟩

/-- `Obligations.LinkResetsFunctions`: its hypotheses can be met. -/
theorem met_LinkResetsFunctions :
    (∃ (s : State), s.link.up = true) ∧
    (∃ (s : State), s.link.up = true ∧ (∀ e ∈ s.fns, e.2.flr = false)) :=
  ⟨
    ⟨node, by decide +kernel⟩,
    ⟨node, by decide +kernel⟩⟩

/-- `Obligations.FunctionLevelResetRuns`: its hypotheses can be met. -/
theorem met_FunctionLevelResetRuns :
    (∃ (f : Fn) (s : State), exists' s f = true ∧ (fnOf s f).flr = false) ∧
    (∃ (f : Fn) (s : State), (fnOf s f).flr = true) ∧
    (∃ (f : Fn) (s : State), (fnOf s f).flr = true) :=
  ⟨
    ⟨255, vfs, by decide +kernel⟩,
    ⟨255, updFn vfs 255 (fun x => { x with flr := true }), by decide +kernel⟩,
    ⟨255, updFn vfs 255 (fun x => { x with flr := true }), by decide +kernel⟩⟩

/-- `Obligations.VirtualFunctionsAppear`: its hypotheses can be met. -/
theorem met_VirtualFunctionsAppear :
    (∃ (s : State), s.link.vfEnable = false ∧ s.boot.kindling = false ∧ (s.link.ari = true ∨ s.link.numVfs ≤ 7)) ∧
    (∃ (s : State), s.link.vfEnable = true) ∧
    (∃ (f : Fn) (s : State), exists' s f = true) ∧
    (∃ (s : State), s.link.up = true ∧ s.link.aspmL1 = true) ∧
    (∃ (s : State), s.link.aspmL1 = false) ∧
    (∃ (s : State), s.link.training = true ∧ s.link.refclk = true) ∧
    (∃ (f : Fn) (s : State), exists' s f = true) ∧
    (∃ (f : Fn) (s : State), s.link.up = true ∧ exists' s f = true ∧ s.boot.stages.contains 3 = false) ∧
    (∃ (s : State), s.link.up = true ∧ s.boot.stages.contains 3 = true) ∧
    (∃ (f : Fn) (s : State), s.link.up = true ∧ exists' s f = true ∧ f ≠ 0 ∧ s.boot.stages.contains 3 = true) ∧
    (∃ (s : State), s.link.up = true ∧ s.boot.stages.contains 3 = true) ∧
    (∃ (f : Fn) (bs : List Byte) (s : State), s.link.up = true ∧ exists' s f = true ∧ s.boot.stages.contains 3 = true ∧ (fnOf s f).doe = some bs) :=
  ⟨
    ⟨{ node with link := { node.link with numVfs := 7 } }, by decide +kernel⟩,
    ⟨vfs, by decide +kernel⟩,
    ⟨255, vfs, by decide +kernel⟩,
    ⟨{ node with link := { node.link with aspmL1 := true } }, by decide +kernel⟩,
    ⟨node, by decide +kernel⟩,
    ⟨{ node with link := { node.link with up := false, training := true } }, by decide +kernel⟩,
    ⟨255, vfs, by decide +kernel⟩,
    ⟨0, { node with boot := { node.boot with stages := [1, 2] } }, by decide +kernel⟩,
    ⟨node, by decide +kernel⟩,
    ⟨255, vfs, by decide +kernel⟩,
    ⟨node, by decide +kernel⟩,
    ⟨255, [1], updFn vfs 255 (fun x => { x with doe := some [1] }), by decide +kernel⟩⟩

/-- `Obligations.SessionsGuardKeys`: its hypotheses can be met. -/
theorem met_SessionsGuardKeys :
    (∃ (f : Fn) (s : State), exists' s f = true) ∧
    (∃ (s : State), (fnOf s 0).session = true) ∧
    (∃ (s : State) (b : Bool), (b = false ∨ (fnOf s 0).session = false)) :=
  ⟨
    ⟨0, node, by decide +kernel⟩,
    ⟨updFn node 0 (fun x => { x with session := true }), by decide +kernel⟩,
    ⟨node, false, .inl rfl⟩⟩

/-- `Obligations.ApertureReachesObjects`: its hypotheses can be met. -/
theorem met_ApertureReachesObjects :
    (∃ (f : Fn) (off n addr oid o : Nat) (ecc : List (Nat × Ecc)) (obj : Obj) (s : State), barLive s f = true ∧ apertureAddr s f off = some addr ∧ heldOn s f addr = none ∧ resolve s f addr = .bytes oid o ∧ objOf s oid = some obj ∧ ((verOf obj obj.current).bind (fun v => frameOf obj v (o / granule))).any (·.tier == .peat) = false ∧ ecc.all (fun e => e.2 != .uncorrectable) = true ∧ eccRange obj obj.current o n = false) ∧
    (∃ (f : Fn) (off addr : Nat) (s : State), barLive s f = true ∧ apertureAddr s f off = some addr ∧ resolve s f addr = .unassigned) ∧
    (∃ (f : Fn) (off addr oid o : Nat) (data : List Byte) (obj : Obj) (v : Version) (fr : Frame) (s : State), barLive s f = true ∧ apertureAddr s f off = some addr ∧ heldOn s f addr = none ∧ resolve s f addr = .bytes oid o ∧ objOf s oid = some obj ∧ obj.kind = .data ∧ verOf obj obj.current = some v ∧ frameOf obj v (o / granule) = some fr ∧ fr.tier = .near ∧ data ≠ [] ∧ o % granule + data.length ≤ granule ∧ o + data.length ≤ v.size ∧ v.bytes.wf) ∧
    (∃ (f : Fn) (off addr : Nat) (s : State), barLive s f = true ∧ apertureAddr s f off = some addr ∧ resolve s f addr = .unassigned) ∧
    (∃ (f : Fn) (off addr c oid o ver : Nat) (s : State), barLive s f = true ∧ apertureAddr s f off = some addr ∧ heldOn s f addr = some (c, oid, o, ver) ∧ (chanOf s c).held.length < 64) ∧
    (∃ (f : Fn) (off : Nat) (r : ApRead) (s : State), s.space.apReads.find? (fun r => r.fn == f && r.bar == off) = some r ∧ r.arrived + 800000 < 2 ^ 64) ∧
    (∃ (f : Fn) (off n addr oid o b : Nat) (obj : Obj) (v : Version) (fr : Frame) (s : State), barLive s f = true ∧ apertureAddr s f off = some addr ∧ heldOn s f addr = none ∧ resolve s f addr = .bytes oid o ∧ objOf s oid = some obj ∧ verOf obj obj.current = some v ∧ frameOf obj v (o / granule) = some fr ∧ fr.tier = .near ∧ n ≠ 0 ∧ o % granule / 64 + b < 1024 ∧ granule * (o / granule) + 64 * (o % granule / 64 + b) < o + n) :=
  ⟨
    ⟨0, 4295032832, 8, 65536, 1, 0, [(0, .corrected)], dataObj, apNode dataObj, by decide +kernel⟩,
    ⟨0, 4294967296, 0, apNode dataObj, by decide +kernel⟩,
    ⟨0, 4295032832, 65536, 1, 0, [7], dataObj, dataVer, nearFrame, apNode dataObj, by decide +kernel⟩,
    ⟨0, 4294967296, 0, apNode dataObj, by decide +kernel⟩,
    ⟨0, 4295032832, 65536, 67, 1, 0, 0, { apNode dataObj with stk := { node.stk with chans := [(67, { state := .segment })] } }, by decide +kernel⟩,
    ⟨0, 4295032832, ⟨0, 4295032832, 8, 1, 0, 0, 0⟩, { node with space := { apReads := [⟨0, 4295032832, 8, 1, 0, 0, 0⟩] } }, by decide +kernel⟩,
    ⟨0, 4295032832, 8, 65536, 1, 0, 0, dataObj, dataVer, nearFrame, apNode dataObj, by decide +kernel⟩⟩

/-- `Obligations.CommandWindowCommits`: its hypotheses can be met. -/
theorem met_CommandWindowCommits :
    (∃ (f : Fn) (k off : Nat) (data : List Byte) (s : State), barLive s f = true ∧ k < 256 ∧ data ≠ [] ∧ off + data.length ≤ 512 ∧ ((slotOf s f k).busy = true ∨ (fnOf s f).ringEn = false ∨ (fnOf s f).ready = false)) ∧
    (∃ (f : Fn) (k off n : Nat) (data : List Byte) (s : State), barLive s f = true ∧ k < 256 ∧ data ≠ [] ∧ off + data.length ≤ 512 ∧ (slotOf s f k).busy = false ∧ (fnOf s f).ringEn = true ∧ (fnOf s f).ready = true ∧ slotReady (slotWrite (slotOf s f k) off data) = some n) :=
  ⟨
    ⟨0, 255, 511, [7], updFn node 0 (fun x => { x with ringEn := false }), by decide +kernel⟩,
    ⟨0, 255, 0, 64, sealedPacket, node, by decide +kernel⟩⟩

/-- `Obligations.RingRegistersBehave`: its hypotheses can be met. -/
theorem met_RingRegistersBehave :
    (∃ (f : Fn) (c : Instr) (s t : State), (c = .replyRecordWrite f ∨ c = .eventRecordWrite f ∨ (∃ v, c = .ringEnable f v) ∨ (∃ v, c = .ringDisable f v) ∨ ∃ v, c = .ringHeadWrite f v) ∧ s.boot.exitPending = none ∧ ringWithin (fnOf s f) ∧ exec c s = .next t) ∧
    (∃ (f : Fn) (v : BitVec 32) (s : State), barLive s f = true ∧ (fnOf s f).ringEn = false ∧ v.getLsbD 0 = true ∧ 9 ≤ bits v.toNat 12 8 ∧ bits v.toNat 12 8 ≤ 16) ∧
    (∃ (f : Fn) (v : BitVec 32) (s : State), barLive s f = true ∧ (fnOf s f).ringEn = true ∧ (fnOf s f).inflight = 0 ∧ v.getLsbD 0 = false) ∧
    (∃ (f : Fn) (v : BitVec 32) (s : State), barLive s f = true ∧ ((fnOf s f).ringTail - v).toNat ≤ 2 ^ (fnOf s f).ringLog2.toNat) ∧
    (∃ (f : Fn) (v : BitVec 32) (s : State), barLive s f = true ∧ 2 ^ (fnOf s f).ringLog2.toNat < ((fnOf s f).ringTail - v).toNat) :=
  ⟨
    ⟨0, .ringHeadWrite 0 0, node, after (.ringHeadWrite 0 0) node, .inr (.inr (.inr (.inr ⟨0, rfl⟩))), by decide +kernel, by unfold Safety.ringWithin; decide +kernel, rfl⟩,
    ⟨0, 0x1001, updFn node 0 (fun x => { x with ringEn := false }), by decide +kernel⟩,
    ⟨0, 0, node, by decide +kernel⟩,
    ⟨0, 0xFFFFFE00, node, by decide +kernel⟩,
    ⟨0, 0xFFFFFDFF, node, by decide +kernel⟩⟩

/-- `Obligations.RecordsReachTheHost`: its hypotheses can be met. -/
theorem met_RecordsReachTheHost :
    (∃ (f : Fn) (w : Waiting) (rest : List Waiting) (s : State), (fnOf s f).waiting = w :: rest ∧ ringRoom (fnOf s f) = true ∧ s.boot.exitPending = none) ∧
    (∃ (f : Fn) (e : Event) (rest : List Event) (s : State), (fnOf s f).events = e :: rest ∧ ringRoom (fnOf s f) = true) ∧
    (∃ (f : Fn) (s : State), (fnOf s f).unannounced ≠ 0 ∧ (fnOf s f).announceBy < 2 ^ 64) ∧
    (∃ (f : Fn) (v : Nat) (s : State), barLive s f = true ∧ v < 8 ∧ (fnOf s f).pba = 0) ∧
    (∃ (f : Fn) (v : Nat) (s : State), barLive s f = true ∧ v < 8 ∧ (fnOf s f).pba = 1#8 <<< v ∧ s.link.up = true ∧ (fnOf s f).msixEnable = true ∧ (fnOf s f).msixMask = false ∧ (fnOf s f).d3hot = false) :=
  ⟨
    ⟨0, ⟨0, 0, 0, false, false, 0, {}⟩, [], updFn node 0 (fun x => { x with waiting := [⟨0, 0, 0, false, false, 0, {}⟩] }), by decide +kernel⟩,
    ⟨0, ⟨3, 0, 0, 0⟩, [], updFn node 0 (fun x => { x with events := [⟨3, 0, 0, 0⟩] }), by decide +kernel⟩,
    ⟨0, updFn node 0 (fun x => { x with unannounced := 1 }), by decide +kernel⟩,
    ⟨0, 7, node, by decide +kernel⟩,
    ⟨0, 7, updFn node 0 (fun x => { x with pba := 0x80 }), by decide +kernel⟩⟩

/-- `Obligations.RegistersReadAndClear`: its hypotheses can be met. -/
theorem met_RegistersReadAndClear :
    (∃ (s : State), barLive s 0 = true) ∧
    (∃ (f : Fn) (s : State), barLive s 0 = true ∧ f < 256) ∧
    (∃ (s : State), barLive s 0 = true) ∧
    (∃ (s : State), barLive s 0 = true ∧ s.boot.serviceReady = false) ∧
    (∃ (f : Fn) (s : State), barLive s f = true ∧ (fnOf s f).locked = false ∧ (fnOf s f).inflight = 0) ∧
    (∃ (f : Fn) (s : State), barLive s f = true ∧ ((fnOf s f).locked = true ∨ (fnOf s f).inflight ≠ 0)) :=
  ⟨
    ⟨node, by decide +kernel⟩,
    ⟨255, node, by decide +kernel⟩,
    ⟨node, by decide +kernel⟩,
    ⟨starting [1, 2, 3], by decide +kernel⟩,
    ⟨0, node, by decide +kernel⟩,
    ⟨0, updFn node 0 (fun x => { x with locked := true }), by decide +kernel⟩⟩

/-- `Obligations.SchedulerAdmits`: its hypotheses can be met. -/
theorem met_SchedulerAdmits :
    (∃ (f : Nat) (c : Cmd) (host : Bool) (s : State), chosen (wakeAll s) = some f ∧ candidate (wakeAll s) f = some (c, host) ∧ findAdm s c.cid = none) ∧
    (∃ (s : State), dueAt s .refill < 2 ^ 64) ∧
    (∃ (x : Shaper), x.next = [] ∧ x.rate ≠ 0) ∧
    (∃ (x : Shaper) (r b : BitVec 32) (m : Nat), x.next = [(r, b, m)] ∧ r ≠ 0) ∧
    (∃ (f : Nat) (s : State), f < 256 ∧ dueAt s .sample < 2 ^ 64) :=
  ⟨
    ⟨0, cmd 0 [], true, updFn node 0 (fun x => { x with hostQ := [cmd 0 []] }), by decide +kernel⟩,
    ⟨node, by decide +kernel⟩,
    ⟨{ rate := 1, burst := 1 }, by decide +kernel⟩,
    ⟨{ next := [(1, 1, 0)] }, 1, 1, 0, by decide +kernel⟩,
    ⟨255, node, by decide +kernel⟩⟩

/-- `Obligations.CommandsEnd`: its hypotheses can be met. -/
theorem met_CommandsEnd :
    (∃ (cid d k : Nat) (c : Cmd) (s : State), s.fns.findSome? (fun e => (e.2.hostQ ++ e.2.fabQ).find? (fun c => c.cid == cid)) = some c ∧ c.deadline = some d ∧ d < 2 ^ 64 ∧ c.origin = .host k ∧ stepsOneTwo s c (featuresFor s c.fn c.origin) = none) ∧
    (∃ (cid d keys : Nat) (consumed : List Nat) (a : Adm) (r : Result) (s : State), findAdm s cid = some a ∧ a.cmd.deadline = some d ∧ d < 2 ^ 64 ∧ a.isDone = false ∧ objChanging a.cmd a.carried = false ∧ deadlineResult (advanceTo s d) a consumed = some (r, keys)) ∧
    (∃ (a : Adm), a.cmd.opcode ∉ [0x206, 0x207, 0x300, 0x301, 0x302]) ∧
    (∃ (cid k : Nat) (a : Adm) (r : Result) (s : State), findAdm s cid = some a ∧ a.phase = .done r ∧ programWaits s.flash cid = false ∧ a.switch = none ∧ a.cmd.origin = .host k) ∧
    (∃ (oid n : Nat) (o : Obj) (v : Version) (s : State), objOf s oid = some o ∧ o.destroyed = false ∧ nextBuild s oid o = none ∧ verOf o n = some v ∧ o.current < n ∧ s.sched.admitted.any (fun a => a.isDone && a.switch == some n && a.switchObj == oid) = true) ∧
    (∃ (oid : Nat) (o : Obj) (b : Building) (a : Adm) (s : State), objOf s oid = some o ∧ o.destroyed = false ∧ nextBuild s oid o = some b ∧ o.mutations = [] ∧ o.next < 0xFFFFFFFF ∧ o.current < o.next ∧ (∀ v ∈ o.versions, v.num < o.next) ∧ findAdm s b.cid = some a) :=
  ⟨
    ⟨1, 100, 0, late, updFn node 0 (fun x => { x with hostQ := [late] }), by decide +kernel⟩,
    ⟨1, 100, 0, [], { adm 0 [] with cmd := late }, .bare stDeadline, run { adm 0 [] with cmd := late } [], by decide +kernel⟩,
    ⟨adm 0 [], by decide +kernel⟩,
    ⟨1, 0, { adm 0 [] with phase := .done {} }, {}, run { adm 0 [] with phase := .done {} } [], by decide +kernel⟩,
    ⟨1, 2, twoVersions, ⟨2, 4096, [], 2, []⟩, run { adm 0x102 [(32, 4, 1)] with phase := .done {}, switch := some 2 } [(1, twoVersions)], by decide +kernel⟩,
    ⟨1, builtIndex, ⟨1, 1, [], 64, true⟩, adm 0x202 [(32, 4, 1)], run (adm 0x202 [(32, 4, 1)]) [(1, builtIndex)], by decide +kernel⟩⟩

/-- `Obligations.AdminCommandsRun`: its hypotheses can be met. -/
theorem met_AdminCommandsRun :
    (∃ (cid : Nat) (a : Adm) (s : State), running s cid 0x000 = some a) ∧
    (∃ (cid : Nat) (a : Adm) (s : State), running s cid 0x001 = some a) ∧
    (∃ (cid : Nat) (a : Adm) (s : State), running s cid 0x002 = some a ∧ settingsTurn s a = true ∧ slotBreaks s (a.p 32 1) (a.p 66 1) = false ∧ reservesBut s (a.p 32 1) + a.p 68 2 ≤ 2048 ∧ bit (a.p 67 1) 0 = false) ∧
    (∃ (cid : Nat) (a : Adm) (s : State), running s cid 0x002 = some a ∧ settingsTurn s a = true ∧ slotBreaks s (a.p 32 1) (a.p 66 1) = false ∧ reservesBut s (a.p 32 1) + a.p 68 2 ≤ 2048 ∧ bit (a.p 67 1) 0 = true) ∧
    (∃ (cid : Nat) (a : Adm) (s : State), running s cid 0x002 = some a ∧ settingsTurn s a = true ∧ (slotBreaks s (a.p 32 1) (a.p 66 1) = true ∨ 2048 < reservesBut s (a.p 32 1) + a.p 68 2)) ∧
    (∃ (cid : Nat) (a : Adm) (s : State), running s cid 0x003 = some a) :=
  ⟨
    ⟨1, adm 0 [], run (adm 0 []) [], by decide +kernel⟩,
    ⟨1, adm 1 [], run (adm 1 []) [], by decide +kernel⟩,
    ⟨1, adm 2 [(32, 1, 255), (68, 2, 2048)], run (adm 2 [(32, 1, 255), (68, 2, 2048)]) [], by decide +kernel⟩,
    ⟨1, adm 2 [(32, 1, 255), (66, 1, 63), (67, 1, 1)], run (adm 2 [(32, 1, 255), (66, 1, 63), (67, 1, 1)]) [], by decide +kernel⟩,
    ⟨1, adm 2 [(32, 1, 255), (68, 2, 2049)], run (adm 2 [(32, 1, 255), (68, 2, 2049)]) [], by decide +kernel⟩,
    ⟨1, adm 3 [(32, 1, 255)], run (adm 3 [(32, 1, 255)]) [], by decide +kernel⟩⟩

/-- `Obligations.ObjectsComeAndGo`: its hypotheses can be met. -/
theorem met_ObjectsComeAndGo :
    (∃ (cid oid : Nat) (a : Adm) (s u : State), running s cid 0x100 = some a ∧ createObj s a.cmd.fn (if a.p 32 1 = 1 then .data else .bitmap) (BitVec.ofNat 8 (a.p 33 1)) [] (a.p 40 8) (fun _ => false) (some cid) = some (u, oid)) ∧
    (∃ (cid : Nat) (a : Adm) (s : State), running s cid 0x100 = some a ∧ createObj s a.cmd.fn (if a.p 32 1 = 1 then .data else .bitmap) (BitVec.ofNat 8 (a.p 33 1)) [] (a.p 40 8) (fun _ => false) (some cid) = none) ∧
    (∃ (cid : Nat) (a : Adm) (o : Obj) (s : State), running s cid 0x101 = some a ∧ target s a (a.p 32 4) = .own o) ∧
    (∃ (cid : Nat) (a : Adm) (s : State), running s cid 0x101 = some a ∧ target s a (a.p 32 4) = .foreign) ∧
    (∃ (cid : Nat) (a : Adm) (s : State), running s cid 0x107 = some a ∧ (∃ o, target s a (a.p 32 4) = .own o)) ∧
    (∃ (cid : Nat) (a : Adm) (s : State), running s cid 0x108 = some a ∧ (∃ o, target s a (a.p 32 4) = .own o)) ∧
    (∃ (cid g : Nat) (a : Adm) (o : Obj) (s : State), findAdm s cid = some a ∧ a.phase = .done {} ∧ a.switch = none ∧ programWaits s.flash cid = false ∧ (a.cmd.opcode = 0x107 ∨ a.cmd.opcode = 0x108) ∧ g = a.p 36 1 ∧ oidFn (a.p 32 4) = a.cmd.fn ∧ objOf s (a.p 32 4) = some o ∧ o.destroyed = false) :=
  ⟨
    ⟨1, (made (createObj (run (adm 256 [(32, 1, 1), (40, 8, 65537)]) []) 0 .data 0 [] 65537 (fun _ => false) (some 1))).2, adm 256 [(32, 1, 1), (40, 8, 65537)], (run (adm 256 [(32, 1, 1), (40, 8, 65537)]) []), (made (createObj (run (adm 256 [(32, 1, 1), (40, 8, 65537)]) []) 0 .data 0 [] 65537 (fun _ => false) (some 1))).1, by decide +kernel, made_eq (by decide +kernel)⟩,
    ⟨1, adm 256 [(32, 1, 1), (40, 8, 1)], updFn (run (adm 256 [(32, 1, 1), (40, 8, 1)]) []) 0 (fun x => { x with objSerial := 0xFFFFFF }), by decide +kernel⟩,
    ⟨1, pinned 257 [(32, 4, 1)] [(1, 0)], dataObj, run (pinned 257 [(32, 4, 1)] [(1, 0)]) [(1, dataObj)], by decide +kernel⟩,
    ⟨1, adm 257 [(32, 4, 0x1000001)], run (adm 257 [(32, 4, 0x1000001)]) [], by decide +kernel⟩,
    ⟨1, pinned 263 [(32, 4, 1), (36, 1, 255)] [(1, 0)], run (pinned 263 [(32, 4, 1), (36, 1, 255)] [(1, 0)]) [(1, dataObj)], by decide +kernel, ⟨dataObj, by decide +kernel⟩⟩,
    ⟨1, pinned 264 [(32, 4, 1), (36, 1, 255)] [(1, 0)], run (pinned 264 [(32, 4, 1), (36, 1, 255)] [(1, 0)]) [(1, dataObj)], by decide +kernel, ⟨dataObj, by decide +kernel⟩⟩,
    ⟨1, 255, { adm 0x107 [(32, 4, 1), (36, 1, 255)] with phase := .done {} }, dataObj, run { adm 0x107 [(32, 4, 1), (36, 1, 255)] with phase := .done {} } [(1, dataObj)], by decide +kernel⟩⟩

/-- `Obligations.ObjectBytesMove`: its hypotheses can be met. -/
theorem met_ObjectBytesMove :
    (∃ (cid : Nat) (a : Adm) (o : Obj) (s : State), running s cid 0x103 = some a ∧ (target s a (a.p 32 4) = .own o ∨ target s a (a.p 32 4) = .granted o) ∧ o.kind.addressed = true ∧ a.p 40 8 + a.p 48 8 ≤ pinnedSize a (a.p 32 4) o ∧ rangeBad .any o (pinnedVer a (a.p 32 4)) (a.p 40 8) (a.p 48 8) = false) ∧
    (∃ (cid : Nat) (a : Adm) (s : State), running s cid 0x103 = some a ∧ target s a (a.p 32 4) = .foreign) ∧
    (∃ (cid : Nat) (host : List Byte) (a : Adm) (o : Obj) (v : Version) (s : State), running s cid 0x102 = some a ∧ host.length = a.p 56 8 ∧ mutationTurn s a (a.p 32 4) = true ∧ target s a (a.p 32 4) = .own o ∧ o.kind = .data ∧ bit (a.p 36 1) 0 = false ∧ pinnedVer a (a.p 32 4) = o.current ∧ verOf o o.current = some v ∧ v.bytes.wf ∧ a.p 40 8 + host.length ≤ v.size ∧ (∀ g ∈ rangeGranules (a.p 40 8) host.length, ∃ fr, frameOf o v g = some fr ∧ fr.tier = .near ∧ fr.lost = false)) ∧
    (∃ (cid : Nat) (a : Adm) (so o : Obj) (v : Version) (s : State), running s cid 0x104 = some a ∧ mutationTurn s a (a.p 36 4) = true ∧ (target s a (a.p 32 4) = .own so ∨ target s a (a.p 32 4) = .granted so) ∧ so.kind.addressed = true ∧ a.p 40 8 + a.p 56 8 ≤ pinnedSize a (a.p 32 4) so ∧ rangeBad .any so (pinnedVer a (a.p 32 4)) (a.p 40 8) (a.p 56 8) = false ∧ target s a (a.p 36 4) = .own o ∧ o.kind = .data ∧ pinnedVer a (a.p 36 4) = o.current ∧ verOf o o.current = some v ∧ v.bytes.wf ∧ a.p 48 8 + a.p 56 8 ≤ v.size ∧ (∀ g ∈ rangeGranules (a.p 48 8) (a.p 56 8), ∃ fr, frameOf o v g = some fr ∧ fr.tier = .near ∧ fr.lost = false)) :=
  ⟨
    ⟨1, pinned 259 [(32, 4, 1), (40, 8, 4088), (48, 8, 8)] [(1, 0)], dataObj, run (pinned 259 [(32, 4, 1), (40, 8, 4088), (48, 8, 8)] [(1, 0)]) [(1, dataObj)], by decide +kernel⟩,
    ⟨1, adm 259 [(32, 4, 0x1000001), (48, 8, 8)], run (adm 259 [(32, 4, 0x1000001), (48, 8, 8)]) [], by decide +kernel⟩,
    ⟨1, [7], pinned 258 [(32, 4, 1), (40, 8, 4095), (56, 8, 1)] [(1, 0)], dataObj, dataVer, run (pinned 258 [(32, 4, 1), (40, 8, 4095), (56, 8, 1)] [(1, 0)]) [(1, dataObj)], by decide +kernel, by decide +kernel, by decide +kernel, by decide +kernel, by decide +kernel, by decide +kernel, by decide +kernel, by decide +kernel, by decide +kernel, by decide +kernel, one_granule (by decide +kernel) ⟨nearFrame, by decide +kernel⟩⟩,
    ⟨1, pinned 260 [(32, 4, 1), (36, 4, 1), (40, 8, 4095), (48, 8, 0), (56, 8, 1)] [(1, 0)], dataObj, dataObj, dataVer, run (pinned 260 [(32, 4, 1), (36, 4, 1), (40, 8, 4095), (48, 8, 0), (56, 8, 1)] [(1, 0)]) [(1, dataObj)], by decide +kernel, by decide +kernel, by decide +kernel, by decide +kernel, by decide +kernel, by decide +kernel, by decide +kernel, by decide +kernel, by decide +kernel, by decide +kernel, by decide +kernel, by decide +kernel, one_granule (by decide +kernel) ⟨nearFrame, by decide +kernel⟩⟩⟩

/-- `Obligations.HintsAndHostErrors`: its hypotheses can be met. -/
theorem met_HintsAndHostErrors :
    (∃ (cid : Nat) (a : Adm) (o : Obj) (s : State), running s cid 0x105 = some a ∧ target s a (a.p 32 4) = .own o ∧ o.kind.addressed = true) ∧
    (∃ (cid : Nat) (a : Adm) (o : Obj) (s : State), running s cid 0x106 = some a ∧ (target s a (a.p 32 4) = .own o ∨ target s a (a.p 32 4) = .granted o)) ∧
    (∃ (cid : Nat) (a : Adm) (s : State), running s cid 0x106 = some a ∧ target s a (a.p 32 4) = .foreign) ∧
    (∃ (cid : Nat) (a : Adm) (s : State), findAdm s cid = some a ∧ a.phase = .running ∧ a.cmd.readsHost = true ∧ a.cmd.opcode ≠ 0x102) ∧
    (∃ (cid : Nat) (arrived : List Byte) (a : Adm) (o : Obj) (s : State), findAdm s cid = some a ∧ a.phase = .running ∧ a.cmd.opcode = 0x102 ∧ target s a (a.p 32 4) = .own o ∧ o.kind = .data ∧ bit (a.p 36 1) 0 = false ∧ a.p 40 8 + a.p 56 8 ≤ pinnedSize a (a.p 32 4) o ∧ arrived.length < a.p 56 8 ∧ a.p 40 8 + arrived.length < (a.p 40 8 / granule + 1) * granule) ∧
    (∃ (b : Nat), b < 32) :=
  ⟨
    ⟨1, pinned 261 [(32, 4, 1)] [(1, 0)], dataObj, run (pinned 261 [(32, 4, 1)] [(1, 0)]) [(1, dataObj)], by decide +kernel⟩,
    ⟨1, pinned 262 [(32, 4, 1)] [(1, 0)], dataObj, run (pinned 262 [(32, 4, 1)] [(1, 0)]) [(1, dataObj)], by decide +kernel⟩,
    ⟨1, adm 262 [(32, 4, 0x1000001)], run (adm 262 [(32, 4, 0x1000001)]) [], by decide +kernel⟩,
    ⟨1, adm 1280 [(40, 4, 64)], run (adm 1280 [(40, 4, 64)]) [], by decide +kernel⟩,
    ⟨1, [7], pinned 258 [(32, 4, 1), (40, 8, 0), (56, 8, 8)] [(1, 0)], dataObj, run (pinned 258 [(32, 4, 1), (40, 8, 0), (56, 8, 8)] [(1, 0)]) [(1, dataObj)], by decide +kernel⟩,
    ⟨31, by decide +kernel⟩⟩

/-- `Obligations.IndexesAndTablesAreMade`: its hypotheses can be met. -/
theorem met_IndexesAndTablesAreMade :
    (∃ (cid oid : Nat) (a : Adm) (m : Mem × Nat) (s u : State), running s cid 0x200 = some a ∧ m = emptyList (a.p 34 1 == 1) (a.p 32 2) (a.p 36 4) ∧ createObj s a.cmd.fn (.listIndex (a.p 32 2) (a.p 34 1 == 1) (a.p 36 4)) (BitVec.ofNat 8 (a.p 40 1)) m.1 m.2 (ixFull m.1) (some cid) = some (u, oid)) ∧
    (∃ (cid oid : Nat) (a : Adm) (m : Mem × Nat) (s u : State), running s cid 0x201 = some a ∧ m = emptyGraph (a.p 34 1 == 1) (a.p 32 2) (a.p 36 2) ∧ createObj s a.cmd.fn (.graphIndex (a.p 32 2) (a.p 34 1 == 1) (a.p 36 2)) (BitVec.ofNat 8 (a.p 40 1)) m.1 m.2 (ixFull m.1) (some cid) = some (u, oid)) ∧
    (∃ (cid oid : Nat) (a : Adm) (x : Tbl) (s u : State), running s cid 0x400 = some a ∧ x = ⟨a.p 52 1, a.p 32 8, a.p 40 4, a.p 44 4, a.p 48 4, a.p 56 4⟩ ∧ (a.p 56 4 = 0 ∨ ∃ g ms i, target s a (a.p 56 4) = .own g ∧ g.kind = .group ms i ∧ groupBound s a.cmd.fn (a.p 56 4) = false) ∧ createObj s a.cmd.fn (.table x.fmt x.rows x.columns x.first x.cols x.group) 0 (Mem.ofBytes (x.header 1)) x.size (fun _ => false) (some cid) = some (u, oid)) ∧
    (∃ (cid : Nat) (a : Adm) (g : Obj) (ms : List Nat) (i : Nat) (s : State), running s cid 0x400 = some a ∧ a.p 56 4 ≠ 0 ∧ target s a (a.p 56 4) = .own g ∧ g.kind = .group ms i ∧ groupBound s a.cmd.fn (a.p 56 4) = true) :=
  ⟨
    ⟨1, (made (createObj (run (adm 512 [(32, 2, 32), (36, 4, 1)]) []) 0 (.listIndex 32 false 1) 0 (emptyList false 32 1).1 (emptyList false 32 1).2 (ixFull (emptyList false 32 1).1) (some 1))).2, adm 512 [(32, 2, 32), (36, 4, 1)], emptyList false 32 1, (run (adm 512 [(32, 2, 32), (36, 4, 1)]) []), (made (createObj (run (adm 512 [(32, 2, 32), (36, 4, 1)]) []) 0 (.listIndex 32 false 1) 0 (emptyList false 32 1).1 (emptyList false 32 1).2 (ixFull (emptyList false 32 1).1) (some 1))).1, by decide +kernel, by decide +kernel, made_eq (by decide +kernel)⟩,
    ⟨1, (made (createObj (run (adm 513 [(32, 2, 32), (36, 2, 16)]) []) 0 (.graphIndex 32 false 16) 0 (emptyGraph false 32 16).1 (emptyGraph false 32 16).2 (ixFull (emptyGraph false 32 16).1) (some 1))).2, adm 513 [(32, 2, 32), (36, 2, 16)], emptyGraph false 32 16, (run (adm 513 [(32, 2, 32), (36, 2, 16)]) []), (made (createObj (run (adm 513 [(32, 2, 32), (36, 2, 16)]) []) 0 (.graphIndex 32 false 16) 0 (emptyGraph false 32 16).1 (emptyGraph false 32 16).2 (ixFull (emptyGraph false 32 16).1) (some 1))).1, by decide +kernel, by decide +kernel, made_eq (by decide +kernel)⟩,
    ⟨1, (made (createObj (run (adm 1024 [(32, 8, 1), (40, 4, 32), (48, 4, 32), (52, 1, 3)]) []) 0 (.table 3 1 32 0 32 0) 0 (Mem.ofBytes ((⟨3, 1, 32, 0, 32, 0⟩ : Tbl).header 1)) (⟨3, 1, 32, 0, 32, 0⟩ : Tbl).size (fun _ => false) (some 1))).2, adm 1024 [(32, 8, 1), (40, 4, 32), (48, 4, 32), (52, 1, 3)], ⟨3, 1, 32, 0, 32, 0⟩, (run (adm 1024 [(32, 8, 1), (40, 4, 32), (48, 4, 32), (52, 1, 3)]) []), (made (createObj (run (adm 1024 [(32, 8, 1), (40, 4, 32), (48, 4, 32), (52, 1, 3)]) []) 0 (.table 3 1 32 0 32 0) 0 (Mem.ofBytes ((⟨3, 1, 32, 0, 32, 0⟩ : Tbl).header 1)) (⟨3, 1, 32, 0, 32, 0⟩ : Tbl).size (fun _ => false) (some 1))).1, by decide +kernel, by decide +kernel, .inl (by decide +kernel), made_eq (by decide +kernel)⟩,
    ⟨1, pinned 1024 [(56, 4, 1)] [(1, 0)], groupObj, [3, 4], 0, run (pinned 1024 [(56, 4, 1)] [(1, 0)]) [(1, groupObj), (2, tableObj)], by decide +kernel⟩⟩

/-- `Obligations.LoadsMakeVersions`: its hypotheses can be met. -/
theorem met_LoadsMakeVersions :
    (∃ (c : Instr) (cid op : Nat) (host bs : List Byte) (a : Adm) (o : Obj) (img : Mem × Nat) (s u : State), ((c = .indexLoad cid host ∧ op = 0x202 ∧ o.isIndex = true ∧ buildRunning s (a.p 32 4) a.seq = false) ∨ (c = .tableLoad cid host ∧ op = 0x401 ∧ o.isTable = true)) ∧ running s cid op = some a ∧ target s a (a.p 32 4) = .own o ∧ o.building.any (·.cid == cid) = false ∧ a.p 36 1 = 0 ∧ loadSource s a host = .bytes bs ∧ streamOf o o.next bs = some img ∧ o.next < 0xFFFFFFFF ∧ (∀ w ∈ o.versions, w.num < o.next) ∧ placeBuild (chargeNear s a.cmd.fn bs.length) (a.p 32 4) (buildTag cid) img.2 (fullTest o img.1) (some cid) = some u) ∧
    (∃ (c : Instr) (cid op : Nat) (host bs : List Byte) (a : Adm) (o : Obj) (s : State), ((c = .indexLoad cid host ∧ op = 0x202 ∧ o.isIndex = true ∧ buildRunning s (a.p 32 4) a.seq = false) ∨ (c = .tableLoad cid host ∧ op = 0x401 ∧ o.isTable = true)) ∧ running s cid op = some a ∧ target s a (a.p 32 4) = .own o ∧ o.building.any (·.cid == cid) = false ∧ a.p 36 1 = 0 ∧ loadSource s a host = .bytes bs ∧ streamOf o o.next bs = none) ∧
    (∃ (cid : Nat) (a : Adm) (o : Obj) (s u : State), running s cid 0x205 = some a ∧ target s a (a.p 32 4) = .own o ∧ o.isIndex = true ∧ mutationTurn s a (a.p 32 4) = true ∧ o.building.any (·.cid == cid) = false ∧ buildRunning s (a.p 32 4) a.seq = false ∧ rangeBad .any o (compactBase o a.seq) 0 (verSize o (compactBase o a.seq)) = false ∧ o.next < 0xFFFFFFFF ∧ (∀ w ∈ o.versions, w.num < o.next) ∧ bit (a.p 36 1) 0 = false ∧ placeBuild s (a.p 32 4) (buildTag cid) (compactImage (ixOf (verBytes o (compactBase o a.seq))) 0).2 (fullTest o (compactImage (ixOf (verBytes o (compactBase o a.seq))) 0).1) (some cid) = some u) ∧
    (∃ (cid : Nat) (a : Adm) (o : Obj) (s : State), running s cid 0x202 = some a ∧ target s a (a.p 32 4) = .own o ∧ o.isIndex = true ∧ o.building.any (·.cid == cid) = false ∧ a.p 36 1 ≠ 1 ∧ buildRunning s (a.p 32 4) a.seq = true) :=
  ⟨
    ⟨.tableLoad 1 stream, 1, 0x401, stream, stream, pinned 1025 [(32, 4, 1), (48, 8, 96)] [(1, 1)], rowTable, (streamOf rowTable 2 stream).getD ([], 0), run (pinned 1025 [(32, 4, 1), (48, 8, 96)] [(1, 1)]) [(1, rowTable)], _, .inr ⟨rfl, rfl, by decide +kernel⟩, by decide +kernel, by decide +kernel, by decide +kernel, by decide +kernel, by decide +kernel, by decide +kernel, by decide +kernel, by decide +kernel, madeState_eq (by decide +kernel)⟩,
    ⟨.indexLoad 1 [7], 1, 0x202, [7], [7], pinned 514 [(32, 4, 1), (48, 8, 1)] [(1, 1)], listIndex, run (pinned 514 [(32, 4, 1), (48, 8, 1)] [(1, 1)]) [(1, listIndex)], .inl ⟨rfl, rfl, by decide +kernel, by decide +kernel⟩, by decide +kernel⟩,
    ⟨1, pinned 517 [(32, 4, 1)] [(1, 1)], listIndex, run (pinned 517 [(32, 4, 1)] [(1, 1)]) [(1, listIndex)], _, by decide +kernel, by decide +kernel, by decide +kernel, by decide +kernel, by decide +kernel, by decide +kernel, by decide +kernel, by decide +kernel, by decide +kernel, by decide +kernel, madeState_eq (by decide +kernel)⟩,
    ⟨1, { pinned 0x202 [(32, 4, 1), (48, 8, 1)] [(1, 1)] with seq := 9 }, listIndex, { run { pinned 0x202 [(32, 4, 1), (48, 8, 1)] [(1, 1)] with seq := 9 } [(1, listIndex)] with sched := { admitted := [{ pinned 0x202 [(32, 4, 1), (48, 8, 1)] [(1, 1)] with seq := 9 }, { pinned 0x202 [(32, 4, 1)] [] with cmd := { cmd 0x202 [(32, 4, 1)] with cid := 2 } }] } }, by decide +kernel⟩⟩

/-- `Obligations.MutationsMakeVersions`: its hypotheses can be met. -/
theorem met_MutationsMakeVersions :
    (∃ (cid : Nat) (a : Adm) (o so : Obj) (data : List Byte) (e : Edit) (s u : State) (n : Nat), running s cid 0x203 = some a ∧ mutationTurn s a (a.p 32 4) = true ∧ target s a (a.p 32 4) = .own o ∧ o.isIndex = true ∧ readsAs (target s a (a.p 36 4)) so ∧ so.kind = .data ∧ (∀ w ∈ o.versions, w.num < o.next) ∧ a.p 40 8 + a.p 48 4 * recordBytes o true ≤ pinnedSize a (a.p 36 4) so ∧ rangeBad .any so (pinnedVer a (a.p 36 4)) (a.p 40 8) (a.p 48 4 * recordBytes o true) = false ∧ centroidsFail .any o true = false ∧ data = (pinnedBytes a (a.p 36 4) so).readBytes (a.p 40 8) (a.p 48 4 * recordBytes o true) ∧ (records (recordBytes o true) (a.p 48 4) data).all (fun r => zeroIn r 12 16) = true ∧ (editOf o o.tip).upserts (records (recordBytes o true) (a.p 48 4) data) = some e ∧ editFails .any o o.tip e = false ∧ makeVersion (chargeNear s a.cmd.fn (a.p 48 4 * recordBytes o true)) (a.p 32 4) o.tip (withVersion o e.mem o.next) e.size ((0 :: e.granules).eraseDups) (fullTest o e.mem) (some cid) = some (u, n)) ∧
    (∃ (cid : Nat) (a : Adm) (o so : Obj) (e : Edit × Nat) (s u : State) (n : Nat), running s cid 0x204 = some a ∧ mutationTurn s a (a.p 32 4) = true ∧ target s a (a.p 32 4) = .own o ∧ o.isIndex = true ∧ readsAs (target s a (a.p 36 4)) so ∧ so.kind = .data ∧ (∀ w ∈ o.versions, w.num < o.next) ∧ a.p 40 8 + a.p 48 4 * 8 ≤ pinnedSize a (a.p 36 4) so ∧ rangeBad .any so (pinnedVer a (a.p 36 4)) (a.p 40 8) (a.p 48 4 * 8) = false ∧ e = (editOf o o.tip).deletes (elems 8 (a.p 48 4) ((pinnedBytes a (a.p 36 4) so).readBytes (a.p 40 8) (a.p 48 4 * 8))) ∧ editFails .any o o.tip e.1 = false ∧ makeVersion (chargeNear s a.cmd.fn (a.p 48 4 * 8)) (a.p 32 4) o.tip (withVersion o e.1.mem o.next) e.1.size ((0 :: e.1.granules).eraseDups) (fullTest o e.1.mem) (some cid) = some (u, n)) ∧
    (∃ (cid : Nat) (a : Adm) (o so : Obj) (x : Tbl) (gs : List (Nat × List Word)) (data : List Byte) (e : Edit) (s u : State) (n : Nat), running s cid 0x404 = some a ∧ mutationTurn s a (a.p 32 4) = true ∧ target s a (a.p 32 4) = .own o ∧ tblOf o = some x ∧ readsAs (target s a (a.p 36 4)) so ∧ so.kind = .data ∧ (∀ w ∈ o.versions, w.num < o.next) ∧ a.p 40 4 * x.gradBytes ≤ pinnedSize a (a.p 36 4) so ∧ isFinite32 (BitVec.ofNat 32 (a.p 44 4)) = true ∧ rangeBad .any so (pinnedVer a (a.p 36 4)) 0 (a.p 40 4 * x.gradBytes) = false ∧ data = (pinnedBytes a (a.p 36 4) so).readBytes 0 (a.p 40 4 * x.gradBytes) ∧ gs = x.grads data (a.p 40 4) ∧ gs.all (fun g => decide (g.1 < x.rows) && g.2.all isFinite32) = true ∧ e = (editOf o o.tip).updateRows x data (a.p 40 4) (BitVec.ofNat 32 (a.p 44 4)) (a.p 48 1 == 1) ∧ (sumGrads x.cols gs).all (fun g => !rangeBad .any o o.tip (x.rowOff g.1) x.rowBytes) = true ∧ editFails .any o o.tip e = false ∧ makeVersion (chargeNear s a.cmd.fn (2 * (sumGrads x.cols gs).length * x.rowBytes)) (a.p 32 4) o.tip (withVersion o e.mem o.next) e.size ((0 :: e.granules).eraseDups) (fullTest o e.mem) (some cid) = some (u, n)) :=
  ⟨
    ⟨1, pinned 515 [(32, 4, 1), (36, 4, 2), (48, 4, 1)] [(1, 1), (2, 0)], listIndex, dataObj, _, _, run (pinned 515 [(32, 4, 1), (36, 4, 2), (48, 4, 1)] [(1, 1), (2, 0)]) [(1, listIndex), (2, dataObj)], _, _, by decide +kernel, by decide +kernel, by decide +kernel, by decide +kernel, .inl (by decide +kernel), by decide +kernel, by decide +kernel, by decide +kernel, by decide +kernel, by decide +kernel, rfl, by decide +kernel, edited_eq (by decide +kernel), by decide +kernel, made_eq (by decide +kernel)⟩,
    ⟨1, pinned 516 [(32, 4, 1), (36, 4, 2), (48, 4, 512)] [(1, 1), (2, 0)], listIndex, dataObj, _, run (pinned 516 [(32, 4, 1), (36, 4, 2), (48, 4, 512)] [(1, 1), (2, 0)]) [(1, listIndex), (2, dataObj)], _, _, by decide +kernel, by decide +kernel, by decide +kernel, by decide +kernel, .inl (by decide +kernel), by decide +kernel, by decide +kernel, by decide +kernel, by decide +kernel, rfl, by decide +kernel, made_eq (by decide +kernel)⟩,
    ⟨1, pinned 1028 [(32, 4, 1), (36, 4, 2), (40, 4, 1)] [(1, 1), (2, 0)], rowTable, dataObj, tbl, _, _, _, run (pinned 1028 [(32, 4, 1), (36, 4, 2), (40, 4, 1)] [(1, 1), (2, 0)]) [(1, rowTable), (2, dataObj)], _, _, by decide +kernel, by decide +kernel, by decide +kernel, rfl, .inl (by decide +kernel), by decide +kernel, by decide +kernel, by decide +kernel, by decide +kernel, by decide +kernel, rfl, rfl, by decide +kernel, rfl, by decide +kernel, by decide +kernel, made_eq (by decide +kernel)⟩⟩

/-- `Obligations.SearchesAnswer`: its hypotheses can be met. -/
theorem met_SearchesAnswer :
    (∃ (cid : Nat) (a : Adm) (s : State), running s cid 0x206 = some a ∧ (searchTargets s a).all.any (·.isMissing) = false ∧ searchBad a (searchTargets s a) false = false ∧ largeFits s a.cmd.selectLarge = true ∧ searchWaits s cid = false ∧ widens a (searchTargets s a) false = false) ∧
    (∃ (cid : Nat) (a : Adm) (s : State), running s cid 0x207 = some a ∧ (searchTargets s a).all.any (·.isMissing) = false ∧ searchBad a (searchTargets s a) true = false ∧ largeFits s a.cmd.selectLarge = true ∧ searchWaits s cid = false ∧ widens a (searchTargets s a) true = false) ∧
    (∃ (c : Instr) (cid op : Nat) (batch : Bool) (a : Adm) (s : State), ((c = .search cid ∧ op = 0x206 ∧ batch = false) ∨ (c = .searchBatch cid ∧ op = 0x207 ∧ batch = true)) ∧ running s cid op = some a ∧ (searchTargets s a).all.any (·.isMissing) = false ∧ searchBad a (searchTargets s a) batch = false ∧ largeFits s a.cmd.selectLarge = true ∧ searchWaits s cid = false ∧ widens a (searchTargets s a) batch = true) ∧
    (∃ (j : SearchOn) (q : Query) (p : SearchPar) (accept : Bool) (before : List Nat), j.ix.graph = false ∧ p.noRerank = true ∧ (searchQuery j q p accept before).status = stOk) ∧
    (∃ (cid : Nat) (a : Adm) (o so : Obj) (fs : List (Target × Nat)) (j : SearchOn) (os : List Nat) (s : State), running s cid 0x208 = some a ∧ readsAs (target s a (a.p 32 4)) o ∧ o.isIndex = true ∧ readsAs (target s a (a.p 64 4)) so ∧ so.kind = .data ∧ fs = filterTargets s a 44 (a.p 42 1) ∧ fs.all (fun f => f.1.obj?.any Obj.isBitmap) = true ∧ a.p 72 8 + 8 * a.p 80 4 ≤ pinnedSize a (a.p 64 4) so ∧ rangeBad .any so (pinnedVer a (a.p 64 4)) (a.p 72 8) (8 * a.p 80 4) = false ∧ os = elems 8 (a.p 80 4) ((pinnedBytes a (a.p 64 4) so).readBytes (a.p 72 8) (8 * a.p 80 4)) ∧ j = { obj := o, ver := pinnedVer a (a.p 32 4), ix := ixOf (pinnedBytes a (a.p 32 4) o), flt := filterOf a (a.p 40 2) fs, bitFails := filterFails a fs } ∧ os.any (ordinalFails .any j) = false) ∧
    (∃ (cid : Nat) (a : Adm) (o : Obj) (s : State), running s cid 0x209 = some a ∧ readsAs (target s a (a.p 32 4)) o ∧ (o.isIndex = true ∨ o.isTable = true) ∧ pinnedVer a (a.p 32 4) = o.current) :=
  ⟨
    ⟨1, { pinned 518 [(2, 2, 160), (32, 4, 1), (40, 4, 1), (44, 2, 1)] [(1, 1)] with work := [(0, 0)] }, run ({ pinned 518 [(2, 2, 160), (32, 4, 1), (40, 4, 1), (44, 2, 1)] [(1, 1)] with work := [(0, 0)] }) [(1, listIndex)], by decide +kernel⟩,
    ⟨1, { pinned 519 [(32, 4, 1), (40, 4, 1), (76, 4, 2), (96, 4, 1), (100, 4, 32)] [(1, 1), (2, 0)] with work := [(0, 0)] }, run ({ pinned 519 [(32, 4, 1), (40, 4, 1), (76, 4, 2), (96, 4, 1), (100, 4, 32)] [(1, 1), (2, 0)] with work := [(0, 0)] }) [(1, listIndex), (2, dataObj)], by decide +kernel⟩,
    ⟨.search 1, 1, 0x206, false, pinned 518 [(2, 2, 160), (32, 4, 1), (40, 4, 1), (44, 2, 1)] [(1, 1)], run (pinned 518 [(2, 2, 160), (32, 4, 1), (40, 4, 1), (44, 2, 1)] [(1, 1)]) [(1, listIndex)], .inl ⟨rfl, rfl, rfl⟩, by decide +kernel⟩,
    ⟨⟨listIndex, 1, ixOf oneItem, filterOf (adm 0x206 []) 0 [], fun _ _ => false⟩, queryOf 0 32 0 [], { searchPar (cmd 0x206 [(40, 4, 1)]) with noRerank := true, nprobe := 1 }, false, [], by decide +kernel⟩,
    ⟨1, pinned 520 [(32, 4, 1), (64, 4, 2), (80, 4, 0)] [(1, 1), (2, 0)], listIndex, dataObj, _, _, _, run (pinned 520 [(32, 4, 1), (64, 4, 2), (80, 4, 0)] [(1, 1), (2, 0)]) [(1, listIndex), (2, dataObj)], by decide +kernel, .inl (by decide +kernel), by decide +kernel, .inl (by decide +kernel), by decide +kernel, rfl, by decide +kernel, by decide +kernel, by decide +kernel, rfl, rfl, by decide +kernel⟩,
    ⟨1, pinned 521 [(32, 4, 1)] [(1, 1)], listIndex, run (pinned 521 [(32, 4, 1)] [(1, 1)]) [(1, listIndex)], by decide +kernel, .inl (by decide +kernel), .inl (by decide +kernel), by decide +kernel⟩⟩

/-- `Obligations.SelectionsAnswer`: its hypotheses can be met. -/
theorem met_SelectionsAnswer :
    (∃ (c : Instr) (cid op : Nat) (a : Adm) (o : Obj) (s : State), ((c = .selectTopk cid ∧ op = 0x300) ∨ (c = .selectUnique cid ∧ op = 0x301) ∨ (c = .selectArgmax cid ∧ op = 0x302)) ∧ running s cid op = some a ∧ readsAs (target s a (a.p 32 4)) o ∧ o.kind = .data ∧ a.p 40 8 + a.p 48 4 * selectWidth op ≤ pinnedSize a (a.p 32 4) o ∧ largeFits s a.cmd.selectLarge = true ∧ reedsIdle s a.cmd.fn (a.p 48 4) = true ∧ rangeBad .any o (pinnedVer a (a.p 32 4)) (a.p 40 8) (a.p 48 4 * selectWidth op) = false) ∧
    (∃ (es : List Entry), (∀ e ∈ es, isNan e.score = false)) ∧
    (∃ (recs : List (Nat × List Byte)), recs.all (fun r => isNan (BitVec.ofNat 32 (leNat r.2))) = true) :=
  ⟨
    ⟨.selectTopk 1, 1, 0x300, pinned 768 [(32, 4, 1), (40, 8, 4072), (48, 4, 1), (52, 4, 1)] [(1, 0)], dataObj, run (pinned 768 [(32, 4, 1), (40, 8, 4072), (48, 4, 1), (52, 4, 1)] [(1, 0)]) [(1, dataObj)], .inl ⟨rfl, rfl⟩, by decide +kernel, .inl (by decide +kernel), by decide +kernel⟩,
    ⟨[⟨1, 1, 0, 1⟩], by decide +kernel⟩,
    ⟨[(0, [0, 0, 192, 127])], by decide +kernel⟩⟩

/-- `Obligations.TablesServeRows`: its hypotheses can be met. -/
theorem met_TablesServeRows :
    (∃ (cid : Nat) (a : Adm) (o ro : Obj) (x : Tbl) (rs : List Nat) (s : State), running s cid 0x402 = some a ∧ readsAs (target s a (a.p 32 4)) o ∧ tblOf o = some x ∧ readsAs (target s a (a.p 40 4)) ro ∧ ro.kind = .data ∧ 8 * a.p 44 4 ≤ pinnedSize a (a.p 40 4) ro ∧ a.p 48 4 = 0 ∧ rs = elems 8 (a.p 44 4) ((pinnedBytes a (a.p 40 4) ro).readBytes 0 (8 * a.p 44 4)) ∧ rs.all (fun r => decide (r < x.rows)) = true ∧ a.p 44 4 * x.rowBytes ≤ a.cmd.resultLen ∧ a.cmd.resultAddr ≠ 0 ∧ rangeBad .any ro (pinnedVer a (a.p 40 4)) 0 (8 * a.p 44 4) = false ∧ rs.all (fun r => !rangeBad .any o (pinnedVer a (a.p 32 4)) (x.rowOff r) x.rowBytes) = true) ∧
    (∃ (cid : Nat) (a : Adm) (o ro : Obj) (x : Tbl) (rs : List Nat) (s : State), running s cid 0x405 = some a ∧ target s a (a.p 32 4) = .own o ∧ tblOf o = some x ∧ readsAs (target s a (a.p 36 4)) ro ∧ ro.kind = .data ∧ 8 * a.p 40 4 ≤ pinnedSize a (a.p 36 4) ro ∧ rs = elems 8 (a.p 40 4) ((pinnedBytes a (a.p 36 4) ro).readBytes 0 (8 * a.p 40 4)) ∧ rs.all (fun r => decide (r < x.rows)) = true ∧ rangeBad .any ro (pinnedVer a (a.p 36 4)) 0 (8 * a.p 40 4) = false ∧ hotFits s a.cmd.fn (a.p 32 4) o (hotSet s a.cmd.fn rs (a.p 44 1)) = true) ∧
    (∃ (cid : Nat) (a : Adm) (t0 : RankTargets) (r : RankOn) (bs : List Byte) (sq : Nat × Target) (mo o : Obj) (x : Tbl) (s : State), running s cid 0x403 = some a ∧ t0 = rankTargets s a ∧ r = rankOn a t0 ∧ bs = ctxBytes r.m a t0.ctx ∧ sq = seqTarget s a.cmd.fn bs (t0.ctx.any (·.isForeign)) ∧ a.p 40 4 = 0 ∧ readsAs t0.model mo ∧ readsAs t0.table o ∧ tblOf o = some x ∧ t0.all.any (·.isMissing) = false ∧ t0.all.any (·.isForeign) = false ∧ (mdlSeq r.m = true → t0.ctx.isSome = true → sq.2.isMissing = false ∧ sq.2.isForeign = false) ∧ rankBad a t0 r bs sq.2 = false ∧ largeFits s a.cmd.selectLarge = true ∧ rankBadRead .any a t0 r sq.2 = false ∧ seqOwed s a r.m sq.2 (mdlSeq r.m && t0.ctx.isSome) = false ∧ rankColl s cid = none) :=
  ⟨
    ⟨1, pinned 1026 [(16, 8, 64), (24, 4, 1024), (32, 4, 1), (40, 4, 2), (44, 4, 1)] [(1, 1), (2, 0)], rowTable, dataObj, tbl, _, run (pinned 1026 [(16, 8, 64), (24, 4, 1024), (32, 4, 1), (40, 4, 2), (44, 4, 1)] [(1, 1), (2, 0)]) [(1, rowTable), (2, dataObj)], by decide +kernel, .inl (by decide +kernel), rfl, .inl (by decide +kernel), by decide +kernel, by decide +kernel, by decide +kernel, rfl, by decide +kernel⟩,
    ⟨1, pinned 1029 [(32, 4, 1), (36, 4, 2), (40, 4, 1), (44, 1, 1)] [(1, 1), (2, 0)], rowTable, dataObj, tbl, _, run (pinned 1029 [(32, 4, 1), (36, 4, 2), (40, 4, 1), (44, 1, 1)] [(1, 1), (2, 0)]) [(1, rowTable), (2, dataObj)], by decide +kernel, by decide +kernel, rfl, .inl (by decide +kernel), by decide +kernel, by decide +kernel, rfl, by decide +kernel⟩,
    ⟨1, pinned 1027 [(32, 4, 3), (36, 4, 1), (44, 4, 2), (48, 4, 1), (52, 4, 1)] [(1, 1), (2, 0), (3, 0)], _, _, _, _, modelObj, rowTable, tbl, run (pinned 1027 [(32, 4, 3), (36, 4, 1), (44, 4, 2), (48, 4, 1), (52, 4, 1)] [(1, 1), (2, 0), (3, 0)]) [(1, rowTable), (2, dataObj), (3, modelObj)], by decide +kernel, rfl, rfl, rfl, rfl, by decide +kernel, .inl (by decide +kernel), .inl (by decide +kernel), rfl, by decide +kernel⟩⟩

/-- `Obligations.RegisterInstructions`: its hypotheses can be met. -/
theorem met_RegisterInstructions :
    (∃ (s : State) (c : ShCtx), atInstruction .alu s c) ∧
    (∃ (s : State) (c : ShCtx), atInstruction .fpu s c) ∧
    (∃ (s : State) (c : ShCtx), atInstruction .addi s c) ∧
    (∃ (s : State) (c : ShCtx), atInstruction .andi s c) ∧
    (∃ (s : State) (c : ShCtx), atInstruction .ori s c) ∧
    (∃ (s : State) (c : ShCtx), atInstruction .xori s c) ∧
    (∃ (s : State) (c : ShCtx), atInstruction .shi s c) ∧
    (∃ (s : State) (c : ShCtx), atInstruction .slti s c) ∧
    (∃ (s : State) (c : ShCtx), atInstruction .lui s c) ∧
    (∃ (s : State) (c : ShCtx), atInstruction .gets s c) ∧
    (∃ (s : State) (c : ShCtx), atInstruction .ktest s c) :=
  ⟨
    ⟨shOn (word 0 21) [], ctx (word 0 21) [], by unfold atInstruction; decide +kernel⟩,
    ⟨shOn (word 1 11) [], ctx (word 1 11) [], by unfold atInstruction; decide +kernel⟩,
    ⟨shOn (word 2 8191) [], ctx (word 2 8191) [], by unfold atInstruction; decide +kernel⟩,
    ⟨shOn (word 3 0) [], ctx (word 3 0) [], by unfold atInstruction; decide +kernel⟩,
    ⟨shOn (word 4 0) [], ctx (word 4 0) [], by unfold atInstruction; decide +kernel⟩,
    ⟨shOn (word 5 0) [], ctx (word 5 0) [], by unfold atInstruction; decide +kernel⟩,
    ⟨shOn (word 6 (2 * 2 ^ 12 + 63)) [], ctx (word 6 (2 * 2 ^ 12 + 63)) [], by unfold atInstruction; decide +kernel⟩,
    ⟨shOn (word 7 0) [], ctx (word 7 0) [], by unfold atInstruction; decide +kernel⟩,
    ⟨shOn (word 8 0) [], ctx (word 8 0) [], by unfold atInstruction; decide +kernel⟩,
    ⟨shOn (9 * 2 ^ 26 + 2 * 2 ^ 20) [], ctx (9 * 2 ^ 26 + 2 * 2 ^ 20) [], by unfold atInstruction; decide +kernel⟩,
    ⟨shOn (word 51 0) [], ctx (word 51 0) [], by unfold atInstruction; decide +kernel⟩⟩

/-- `Obligations.ControlInstructions`: its hypotheses can be met. -/
theorem met_ControlInstructions :
    (∃ (i : Instr) (o : ShOp) (s : State) (c : ShCtx), ((i = .beq c.sh ∧ o = .beq) ∨ (i = .bne c.sh ∧ o = .bne) ∨ (i = .blt c.sh ∧ o = .blt) ∨ (i = .bge c.sh ∧ o = .bge) ∨ (i = .bltu c.sh ∧ o = .bltu) ∨ (i = .bgeu c.sh ∧ o = .bgeu)) ∧ atInstruction o s c) ∧
    (∃ (pc : Nat) (s : State) (c : ShCtx), atInstruction .jal s c ∧ (pc : Int) = c.x.pc.toNat + 4 * signed 26 c.w ∧ pc % 4 = 0 ∧ pc < imgCodeLen c.m) ∧
    (∃ (s : State) (c : ShCtx), atInstruction .jalr s c ∧ (c.ga + BitVec.ofInt 64 (fImmS c.w)).toNat % 4 = 0 ∧ (c.ga + BitVec.ofInt 64 (fImmS c.w)).toNat < imgCodeLen c.m) ∧
    (∃ (s : State) (c : ShCtx), atInstruction .fence s c) ∧
    (∃ (s : State) (c : ShCtx), atInstruction .vop s c) :=
  ⟨
    ⟨.beq 0, .beq, shOn (word 32 0) [], ctx (word 32 0) [], .inl ⟨rfl, rfl⟩, by unfold atInstruction; decide +kernel⟩,
    ⟨0, shOn (38 * 2 ^ 26) [], ctx (38 * 2 ^ 26) [], by unfold atInstruction; decide +kernel, by decide +kernel⟩,
    ⟨shOn (39 * 2 ^ 26) [], ctx (39 * 2 ^ 26) [], by unfold atInstruction; decide +kernel, by decide +kernel⟩,
    ⟨shOn (31 * 2 ^ 26) [], ctx (31 * 2 ^ 26) [], by unfold atInstruction; decide +kernel⟩,
    ⟨shOn (40 * 2 ^ 26) [], ctx (40 * 2 ^ 26) [], by unfold atInstruction; decide +kernel⟩⟩

/-- `Obligations.LoadsAndStores`: its hypotheses can be met. -/
theorem met_LoadsAndStores :
    (∃ (i : Instr) (o : ShOp) (n : Nat) (sx : Bool) (s : State) (c : ShCtx), ((i = .ld1 c.sh ∧ o = .ld1 ∧ n = 1 ∧ sx = false) ∨ (i = .ld2 c.sh ∧ o = .ld2 ∧ n = 2 ∧ sx = false) ∨ (i = .ld4 c.sh ∧ o = .ld4 ∧ n = 4 ∧ sx = false) ∨ (i = .ld8 c.sh ∧ o = .ld8 ∧ n = 8 ∧ sx = false) ∨ (i = .lds1 c.sh ∧ o = .lds1 ∧ n = 1 ∧ sx = true) ∨ (i = .lds2 c.sh ∧ o = .lds2 ∧ n = 2 ∧ sx = true) ∨ (i = .lds4 c.sh ∧ o = .lds4 ∧ n = 4 ∧ sx = true)) ∧ atInstruction o s c ∧ c.addr % n = 0 ∧ c.x.pending.length < 8 ∧ progBad .any s c.i c.addr n = false ∧ (progRead s c.i c.loom c.addr n).2 = false) ∧
    (∃ (s : State) (c : ShCtx), atInstruction .vld s c ∧ c.addr % 64 = 0 ∧ c.x.pending.length < 8 ∧ progBad .any s c.i c.addr 64 = false ∧ (progRead s c.i c.loom c.addr 64).2 = false ∧ shHeld s c.i c.addr = none) ∧
    (∃ (i : Instr) (o : ShOp) (n v off : Nat) (s : State) (c : ShCtx), ((i = .st1 c.sh ∧ o = .st1 ∧ n = 1 ∧ v = c.gd.toNat) ∨ (i = .st2 c.sh ∧ o = .st2 ∧ n = 2 ∧ v = c.gd.toNat) ∨ (i = .st4 c.sh ∧ o = .st4 ∧ n = 4 ∧ v = c.gd.toNat) ∨ (i = .st8 c.sh ∧ o = .st8 ∧ n = 8 ∧ v = c.gd.toNat) ∨ (i = .vst c.sh ∧ o = .vst ∧ n = 64 ∧ v = c.vd.toNat)) ∧ atInstruction o s c ∧ c.addr % n = 0 ∧ shAddr c.addr = .weave off ∧ inRegion c.i c.loom off n = true ∧ (loomOf s c.loom).ws.wf) ∧
    (∃ (i : Instr) (o : ShOp) (n v oid off : Nat) (obj : Obj) (ver : Version) (fr : Frame) (s : State) (c : ShCtx), ((i = .st1 c.sh ∧ o = .st1 ∧ n = 1 ∧ v = c.gd.toNat) ∨ (i = .st2 c.sh ∧ o = .st2 ∧ n = 2 ∧ v = c.gd.toNat) ∨ (i = .st4 c.sh ∧ o = .st4 ∧ n = 4 ∧ v = c.gd.toNat) ∨ (i = .st8 c.sh ∧ o = .st8 ∧ n = 8 ∧ v = c.gd.toNat) ∨ (i = .vst c.sh ∧ o = .vst ∧ n = 64 ∧ v = c.vd.toNat)) ∧ atInstruction o s c ∧ c.addr % n = 0 ∧ shAddr c.addr = .space c.addr ∧ resolve s c.i.fn c.addr = .bytes oid off ∧ off % n = 0 ∧ objOf s oid = some obj ∧ obj.kind = .data ∧ verOf obj obj.current = some ver ∧ off + n ≤ ver.size ∧ frameOf obj ver (off / granule) = some fr ∧ fr.tier = .near ∧ shHeld s c.i c.addr = none ∧ ver.bytes.wf) ∧
    (∃ (off : Nat) (s : State) (c : ShCtx), atInstruction .amo s c ∧ c.ga.toNat % 8 = 0 ∧ c.x.pending.length < 8 ∧ shAddr c.ga.toNat = .weave off ∧ inRegion c.i c.loom off 8 = true ∧ (loomOf s c.loom).ws.wf) :=
  ⟨
    ⟨.ld8 0, .ld8, 8, false, shOn (word 19 56) [(1, 2 ^ 63)], ctx (word 19 56) [(1, 2 ^ 63)], .inr (.inr (.inr (.inl ⟨rfl, rfl, rfl, rfl⟩))), by unfold atInstruction; decide +kernel, by decide +kernel⟩,
    ⟨shOn (28 * 2 ^ 26 + 1 * 2 ^ 14) [(1, 2 ^ 63)], ctx (28 * 2 ^ 26 + 1 * 2 ^ 14) [(1, 2 ^ 63)], by unfold atInstruction; decide +kernel, by decide +kernel⟩,
    ⟨.st8 0, .st8, 8, 0, 56, shOn (word 27 56) [(1, 2 ^ 63)], ctx (word 27 56) [(1, 2 ^ 63)], .inr (.inr (.inr (.inl ⟨rfl, rfl, rfl, rfl⟩))), by unfold atInstruction; decide +kernel, by decide +kernel⟩,
    ⟨.st8 0, .st8, 8, 0, 2, 4088, dataObj, dataVer, nearFrame, shOn (word 27 4088) [(1, 65536)], ctx (word 27 4088) [(1, 65536)], .inr (.inr (.inr (.inl ⟨rfl, rfl, rfl, rfl⟩))), by unfold atInstruction; decide +kernel, by decide +kernel⟩,
    ⟨0, shOn (word 30 2) [(1, 2 ^ 63)], ctx (word 30 2) [(1, 2 ^ 63)], by unfold atInstruction; decide +kernel, by decide +kernel⟩⟩

/-- `Obligations.ShuttlesAndKnots`: its hypotheses can be met. -/
theorem met_ShuttlesAndKnots :
    (∃ (k : Nat) (x : Knot) (s : State) (c : ShCtx), atInstruction .karr s c ∧ k = c.ga.toNat % 65536 ∧ knotOf s k = some x ∧ x.fn = c.i.fn ∧ x.counter.toNat + fImm c.w < x.target.toNat) ∧
    (∃ (k : Nat) (x : Knot) (s : State) (c : ShCtx), atInstruction .kwait s c ∧ k = c.ga.toNat % 65536 ∧ knotOf s k = some x ∧ x.fn = c.i.fn) ∧
    (∃ (k : Nat) (x : Knot) (s : State) (c : ShCtx), atInstruction .kset s c ∧ k = c.ga.toNat % 65536 ∧ knotOf s k = some x ∧ x.fn = c.i.fn ∧ 0 < (c.gb.setWidth 32).toNat) ∧
    (∃ (s : State) (c : ShCtx), atInstruction .issue s c ∧ fVfn c.w = 0 ∧ (loomOf s c.loom).dq.length < 16) ∧
    (∃ (r : Nat) (s : State) (c : ShCtx), atInstruction .issue s c ∧ fVfn c.w = 1 ∧ r = c.loom / 8) ∧
    (∃ (s : State) (c : ShCtx), atInstruction .irq s c ∧ c.i.features.getLsbD 15 = true ∧ canSend s c.i.fn (fImm c.w) = true) ∧
    (∃ (n : Nat) (s : State) (c : ShCtx), atInstruction .halt s c ∧ AMap.get? c.i.running c.x.task = some n ∧ 1 < n) ∧
    (∃ (s : State) (c : ShCtx), atInstruction .exit s c ∧ s.prog.shuttles.Pairwise (fun a b => a.1 < b.1) ∧ c.i.exitKnot = none) ∧
    (∃ (sh : Nat) (i : Instance) (s : State), (shuttleOf s sh).state = .waitFetch ∧ AMap.get? s.prog.instances (shuttleOf s sh).inst = some i) ∧
    (∃ (sh : Nat) (e : Ecc) (p : Operand) (s : State), (shuttleOf s sh).pending.find? (fun q => !q.held) = some p ∧ p.vector = false ∧ p.reg ≠ 0 ∧ e ≠ .uncorrectable ∧ (∀ i, AMap.get? s.prog.instances (shuttleOf s sh).inst = some i → progBad .lost s i p.addr 1 = false)) ∧
    (∃ (sh off : Nat) (p : Operand) (s : State), (shuttleOf s sh).pending.find? (fun q => !q.held) = some p ∧ shAddr p.addr = .weave off) :=
  ⟨
    ⟨0, { fn := 0, target := 10 }, shOn (48 * 2 ^ 26 + 9) [], ctx (48 * 2 ^ 26 + 9) [], by unfold atInstruction; decide +kernel, by decide +kernel⟩,
    ⟨0, { fn := 0, target := 10 }, shOn (49 * 2 ^ 26) [], ctx (49 * 2 ^ 26) [], by unfold atInstruction; decide +kernel, by decide +kernel⟩,
    ⟨0, { fn := 0, target := 10 }, shOn (50 * 2 ^ 26 + 1 * 2 ^ 8) [(1, 10)], ctx (50 * 2 ^ 26 + 1 * 2 ^ 8) [(1, 10)], by unfold atInstruction; decide +kernel, by decide +kernel⟩,
    ⟨shOn (56 * 2 ^ 26) [], ctx (56 * 2 ^ 26) [], by unfold atInstruction; decide +kernel, by decide +kernel⟩,
    ⟨0, shOn (56 * 2 ^ 26 + 1) [], ctx (56 * 2 ^ 26 + 1) [], by unfold atInstruction; decide +kernel, by decide +kernel⟩,
    ⟨shOn (57 * 2 ^ 26 + 7) [], ctx (57 * 2 ^ 26 + 7) [], by unfold atInstruction; decide +kernel, by decide +kernel⟩,
    ⟨2, shOn (58 * 2 ^ 26) [], ctx (58 * 2 ^ 26) [], by unfold atInstruction; decide +kernel, by decide +kernel⟩,
    ⟨shOn (59 * 2 ^ 26) [], ctx (59 * 2 ^ 26) [], by unfold atInstruction; decide +kernel, by decide +kernel⟩,
    ⟨0, inst0, putShuttle (shOn 0 []) 0 { shuttle0 [] with state := .waitFetch }, by decide +kernel⟩,
    ⟨0, .corrected, ⟨false, 63, 7, 2 ^ 63, 0, false⟩, putShuttle (shOn 0 []) 0 { shuttle0 [] with pending := [⟨false, 63, 7, 2 ^ 63, 0, false⟩] }, by decide +kernel, by decide +kernel, by decide +kernel, by decide +kernel, fun i h => by cases h; decide +kernel⟩,
    ⟨0, 0, ⟨false, 63, 7, 2 ^ 63, 0, false⟩, putShuttle (shOn 0 []) 0 { shuttle0 [] with pending := [⟨false, 63, 7, 2 ^ 63, 0, false⟩] }, by decide +kernel⟩⟩

/-- `Obligations.ProgramsLoadAndStop`: its hypotheses can be met. -/
theorem met_ProgramsLoadAndStop :
    (∃ (cid oid : Nat) (host : List Byte) (a : Adm) (s u : State), running s cid 0x500 = some a ∧ a.p 44 1 = 0 ∧ host.length = a.p 40 4 ∧ imageOk host (a.p 40 4) = true ∧ createObj s a.cmd.fn .program 0 (Mem.ofBytes host) (a.p 40 4) (fun _ => false) (some cid) = some (u, oid)) ∧
    (∃ (cid : Nat) (host : List Byte) (a : Adm) (s : State), running s cid 0x500 = some a ∧ a.p 44 1 = 0 ∧ host.length = a.p 40 4 ∧ imageOk host (a.p 40 4) = false) ∧
    (∃ (cid no : Nat) (a : Adm) (o : Obj) (s u : State), running s cid 0x501 = some a ∧ readsAs (target s a (a.p 32 4)) o ∧ o.kind = .program ∧ a.p 40 4 = 0 ∧ a.p 36 4 < imgPlans (verBytes o 0) ∧ needsMet (verBytes o 0) a.features = true ∧ (planOf (verBytes o 0) (a.p 36 4)).slots = 0 ∧ startInstance s a (verBytes o 0) 0 [] = some (u, no)) ∧
    (∃ (cid : Nat) (a : Adm) (o : Obj) (s : State), running s cid 0x501 = some a ∧ readsAs (target s a (a.p 32 4)) o ∧ o.kind = .program ∧ a.p 40 4 = 0 ∧ a.p 36 4 < imgPlans (verBytes o 0) ∧ needsMet (verBytes o 0) a.features = true ∧ (planOf (verBytes o 0) (a.p 36 4)).slots = 0 ∧ startInstance s a (verBytes o 0) 0 [] = none) ∧
    (∃ (cid : Nat) (a : Adm) (i : Instance) (s : State), running s cid 0x502 = some a ∧ oidFn (a.p 32 4) = a.cmd.fn ∧ AMap.get? s.prog.instances (a.p 32 4) = some i) ∧
    (∃ (cid : Nat) (a : Adm) (s : State), running s cid 0x502 = some a ∧ oidFn (a.p 32 4) = a.cmd.fn ∧ AMap.get? s.prog.instances (a.p 32 4) = none) ∧
    (∃ (no task sh : Nat) (i : Instance) (x : Task) (s : State), AMap.get? s.prog.instances no = some i ∧ x = taskOf (imageOf s i) (instPlan s i) task ∧ i.tasks[task]? = some .waiting ∧ mayStart s i x = true ∧ heldBack s i (imageOf s i) (instPlan s i) task = false ∧ x.kind = 0 ∧ x.count = 1 ∧ x.loom ≠ 65535 ∧ (idleShuttles s no (i.looms.getD x.loom 0)).head? = some sh) ∧
    (∃ (no task l : Nat) (i : Instance) (x : Task) (s : State), AMap.get? s.prog.instances no = some i ∧ x = taskOf (imageOf s i) (instPlan s i) task ∧ i.tasks[task]? = some .waiting ∧ mayStart s i x = true ∧ heldBack s i (imageOf s i) (instPlan s i) task = false ∧ x.kind ≠ 0 ∧ x.loom ≠ 65535 ∧ l = i.looms.getD x.loom 0 ∧ (loomOf s l).dq.length < 16) ∧
    (∃ (no task t0 due : Nat) (i : Instance) (s : State), AMap.get? s.prog.instances no = some i ∧ i.exitKnot = none ∧ AMap.get? i.may task = some t0 ∧ (taskOf (imageOf s i) (instPlan s i) task).deadline ≠ 0 ∧ due = t0 + 100 * (taskOf (imageOf s i) (instPlan s i) task).deadline ∧ due < 2 ^ 64) ∧
    (∃ (no : Nat) (i : Instance) (s : State), AMap.get? s.prog.instances no = some i ∧ i.exitKnot = none ∧ i.stopping = true ∧ i.stopBy < 2 ^ 64) :=
  ⟨
    ⟨1, _, image 0 0, adm 1280 [(40, 4, 160)], run (adm 1280 [(40, 4, 160)]) [], _, by decide +kernel, by decide +kernel, by decide +kernel, by decide +kernel, made_eq (by decide +kernel)⟩,
    ⟨1, [7], adm 1280 [(40, 4, 1)], run (adm 1280 [(40, 4, 1)]) [], by decide +kernel⟩,
    ⟨1, _, pinned 1281 [(32, 4, 1)] [(1, 0)], progObj 0 0, run (pinned 1281 [(32, 4, 1)] [(1, 0)]) [(1, progObj 0 0)], _, by decide +kernel, .inl (by decide +kernel), by decide +kernel, by decide +kernel, by decide +kernel, by decide +kernel, by decide +kernel, made_eq (by decide +kernel)⟩,
    ⟨1, pinned 1281 [(32, 4, 1)] [(1, 0)], progObj 0 0, updFn (run (pinned 1281 [(32, 4, 1)] [(1, 0)]) [(1, progObj 0 0)]) 0 (fun x => { x with instSerial := 0xFFFFFF }), by decide +kernel, .inl (by decide +kernel), by decide +kernel⟩,
    ⟨1, adm 1282 [(32, 4, 5)], inst0, live (adm 1282 [(32, 4, 5)]) inst0, by decide +kernel⟩,
    ⟨1, adm 1282 [(32, 4, 6)], live (adm 1282 [(32, 4, 6)]) inst0, by decide +kernel⟩,
    ⟨5, 0, 0, { inst0 with tasks := [.waiting] }, _, putShuttle (live (adm 0 []) { inst0 with tasks := [.waiting] }) 0 { shuttle0 [] with state := .idle }, by decide +kernel, rfl, by decide +kernel⟩,
    ⟨5, 0, 0, { inst0 with tasks := [.waiting] }, _, { live (adm 0 []) { inst0 with tasks := [.waiting] } with space := { objs := [(1, progObj 1 0)] } }, by decide +kernel, rfl, by decide +kernel⟩,
    ⟨5, 0, 1000, 1100, { inst0 with may := [(0, 1000)] }, live (adm 0 []) { inst0 with may := [(0, 1000)] }, by decide +kernel⟩,
    ⟨5, { inst0 with stopping := true, stopBy := 5000 }, live (adm 0 []) { inst0 with stopping := true, stopBy := 5000 }, by decide +kernel⟩⟩

/-- `Obligations.KnotCommands`: its hypotheses can be met. -/
theorem met_KnotCommands :
    (∃ (cid k : Nat) (a : Adm) (s : State), running s cid 0x503 = some a ∧ freeKnots s a.cmd.fn 1 = some [k]) ∧
    (∃ (cid k : Nat) (a : Adm) (x : Knot) (s : State), running s cid 0x504 = some a ∧ k = a.p 32 2 ∧ knotOf s k = some x ∧ x.fn = a.cmd.fn ∧ x.boundary = false) ∧
    (∃ (cid k : Nat) (a : Adm) (x : Knot) (s : State), running s cid 0x505 = some a ∧ k = a.p 32 2 ∧ knotOf s k = some x ∧ x.fn = a.cmd.fn ∧ x.boundary = false ∧ x.counter.toNat + 1 < 2 ^ 32) ∧
    (∃ (cid k : Nat) (a : Adm) (x : Knot) (s : State), running s cid 0x506 = some a ∧ k = a.p 32 2 ∧ knotOf s k = some x ∧ x.fn = a.cmd.fn) ∧
    (∃ (cid k : Nat) (a : Adm) (x : Knot) (s : State), running s cid 0x508 = some a ∧ k = a.p 32 2 ∧ knotOf s k = some x ∧ x.fn = a.cmd.fn ∧ s.prog.knots.Pairwise (fun p q => p.1 < q.1)) ∧
    (∃ (c : Instr) (cid op : Nat) (a : Adm) (s : State), ((c = .knotSet cid ∧ op = 0x504) ∨ (c = .knotArrive cid ∧ op = 0x505) ∨ (c = .knotWait cid ∧ op = 0x506) ∨ (c = .knotFree cid ∧ op = 0x508)) ∧ running s cid op = some a ∧ (knotOf s (a.p 32 2)).any (fun x => x.fn == a.cmd.fn) = false) :=
  ⟨
    ⟨1, 0, adm 1283 [], run (adm 1283 []) [], by decide +kernel⟩,
    ⟨1, 65534, adm 1284 [(32, 2, 65534)], { fn := 0, target := 1 }, { run (adm 1284 [(32, 2, 65534)]) [] with prog := { knots := [(65534, { fn := 0, target := 1 })] } }, by decide +kernel⟩,
    ⟨1, 65534, adm 1285 [(32, 2, 65534)], { fn := 0, target := 1 }, { run (adm 1285 [(32, 2, 65534)]) [] with prog := { knots := [(65534, { fn := 0, target := 1 })] } }, by decide +kernel⟩,
    ⟨1, 65534, adm 1286 [(32, 2, 65534)], { fn := 0, target := 1 }, { run (adm 1286 [(32, 2, 65534)]) [] with prog := { knots := [(65534, { fn := 0, target := 1 })] } }, by decide +kernel⟩,
    ⟨1, 65534, adm 1288 [(32, 2, 65534)], { fn := 0, target := 1 }, { run (adm 1288 [(32, 2, 65534)]) [] with prog := { knots := [(65534, { fn := 0, target := 1 })] } }, by decide +kernel⟩,
    ⟨.knotSet 1, 1, 0x504, adm 1284 [(32, 2, 65535)], { run (adm 1284 [(32, 2, 65535)]) [] with prog := { knots := [(65534, { fn := 0, target := 1 })] } }, .inl ⟨rfl, rfl⟩, by decide +kernel⟩⟩

/-- `Obligations.UnassignedAccessesDoNotFault`: its hypotheses can be met. -/
theorem met_UnassignedAccessesDoNotFault :
    (∃ (i : Instr) (o : ShOp) (n : Nat) (s : State) (c : ShCtx), ((i = .ld1 c.sh ∧ o = .ld1 ∧ n = 1) ∨ (i = .ld2 c.sh ∧ o = .ld2 ∧ n = 2) ∨ (i = .ld4 c.sh ∧ o = .ld4 ∧ n = 4) ∨ (i = .ld8 c.sh ∧ o = .ld8 ∧ n = 8) ∨ (i = .lds1 c.sh ∧ o = .lds1 ∧ n = 1) ∨ (i = .lds2 c.sh ∧ o = .lds2 ∧ n = 2) ∨ (i = .lds4 c.sh ∧ o = .lds4 ∧ n = 4) ∨ (i = .vld c.sh ∧ o = .vld ∧ n = 64)) ∧ atInstruction o s c ∧ c.addr % n = 0 ∧ c.x.pending.length < 8 ∧ (shAddr c.addr = .none ∨ (∃ a, shAddr c.addr = .space a ∧ progPlace s c.i.fn a = none) ∨ ∃ w, shAddr c.addr = .weave w ∧ inRegion c.i c.loom w n = false)) ∧
    (∃ (i : Instr) (o : ShOp) (n : Nat) (s : State) (c : ShCtx), ((i = .st1 c.sh ∧ o = .st1 ∧ n = 1) ∨ (i = .st2 c.sh ∧ o = .st2 ∧ n = 2) ∨ (i = .st4 c.sh ∧ o = .st4 ∧ n = 4) ∨ (i = .st8 c.sh ∧ o = .st8 ∧ n = 8) ∨ (i = .vst c.sh ∧ o = .vst ∧ n = 64)) ∧ atInstruction o s c ∧ c.addr % n = 0 ∧ (shAddr c.addr = .none ∨ (∃ a, shAddr c.addr = .space a ∧ progPlace s c.i.fn a = none) ∨ ∃ w, shAddr c.addr = .weave w ∧ inRegion c.i c.loom w n = false)) ∧
    (∃ (s : State) (c : ShCtx), atInstruction .amo s c ∧ c.ga.toNat % 8 = 0 ∧ c.x.pending.length < 8 ∧ (shAddr c.ga.toNat = .none ∨ (∃ a, shAddr c.ga.toNat = .space a ∧ progPlace s c.i.fn a = none) ∨ ∃ w, shAddr c.ga.toNat = .weave w ∧ inRegion c.i c.loom w 8 = false)) ∧
    (∃ (no : Nat) (i : Instance) (s : State), AMap.get? s.prog.instances no = some i) :=
  ⟨
    ⟨.ld1 0, .ld1, 1, shOn (word 16 0) [(1, 2 ^ 62)], ctx (word 16 0) [(1, 2 ^ 62)], .inl ⟨rfl, rfl, rfl⟩, by unfold atInstruction; decide +kernel, by decide +kernel, by decide +kernel, .inl (by decide +kernel)⟩,
    ⟨.st1 0, .st1, 1, shOn (word 24 0) [(1, 2 ^ 62)], ctx (word 24 0) [(1, 2 ^ 62)], .inl ⟨rfl, rfl, rfl⟩, by unfold atInstruction; decide +kernel, by decide +kernel, .inl (by decide +kernel)⟩,
    ⟨shOn (word 30 0) [(1, 2 ^ 62)], ctx (word 30 0) [(1, 2 ^ 62)], by unfold atInstruction; decide +kernel, by decide +kernel, by decide +kernel, .inl (by decide +kernel)⟩,
    ⟨5, inst0, live (adm 0 []) inst0, by decide +kernel⟩⟩

/-- `Obligations.FaultsEndInstances`: its hypotheses can be met. -/
theorem met_FaultsEndInstances :
    (∃ (i : Instr) (s : State) (c : ShCtx), shuttleOf s c.sh = c.x ∧ c.x.state = .ready ∧ issueTurn s c.sh = true ∧ c.no = c.x.inst ∧ AMap.get? s.prog.instances c.no = some c.i ∧ c.m = imageOf s c.i ∧ c.w = (imgWord c.m c.x.pc.toNat).toNat ∧ c.x.pc.toNat < imgCodeLen c.m ∧ lineHere s c.i.image c.loom c.x.pc.toNat = true ∧ c.i.exitKnot = none ∧ (fnOf s c.i.fn).featActive.getLsbD 29 = true ∧ (fnOf s c.i.fn).events.length < 64 ∧ c.i.argObj = 0 ∧ instDescs s c.no = [] ∧ instSelections s c.no = [] ∧ ((i = .alu c.sh ∧ shDecode c.w (c.i.features.getLsbD 17) = none) ∨ (∃ o n, (i = .ld2 c.sh ∧ o = .ld2 ∧ n = 2 ∨ i = .ld4 c.sh ∧ o = .ld4 ∧ n = 4 ∨ i = .ld8 c.sh ∧ o = .ld8 ∧ n = 8 ∨ i = .lds2 c.sh ∧ o = .lds2 ∧ n = 2 ∨ i = .lds4 c.sh ∧ o = .lds4 ∧ n = 4 ∨ i = .st2 c.sh ∧ o = .st2 ∧ n = 2 ∨ i = .st4 c.sh ∧ o = .st4 ∧ n = 4 ∨ i = .st8 c.sh ∧ o = .st8 ∧ n = 8 ∨ i = .vld c.sh ∧ o = .vld ∧ n = 64 ∨ i = .vst c.sh ∧ o = .vst ∧ n = 64) ∧ shDecode c.w (c.i.features.getLsbD 17) = some o ∧ blocked c.x (postedWrites s c.sh) o c.w = false ∧ c.addr % n ≠ 0) ∨ (i = .amo c.sh ∧ shDecode c.w (c.i.features.getLsbD 17) = some .amo ∧ blocked c.x (postedWrites s c.sh) .amo c.w = false ∧ c.ga.toNat % 8 ≠ 0) ∨ (i = .jalr c.sh ∧ shDecode c.w (c.i.features.getLsbD 17) = some .jalr ∧ blocked c.x (postedWrites s c.sh) .jalr c.w = false ∧ (c.addr % 4 ≠ 0 ∨ imgCodeLen c.m ≤ c.addr)) ∨ (∃ o, (i = .beq c.sh ∧ o = .beq ∨ i = .bne c.sh ∧ o = .bne ∨ i = .blt c.sh ∧ o = .blt ∨ i = .bge c.sh ∧ o = .bge ∨ i = .bltu c.sh ∧ o = .bltu ∨ i = .bgeu c.sh ∧ o = .bgeu) ∧ shDecode c.w (c.i.features.getLsbD 17) = some o ∧ blocked c.x (postedWrites s c.sh) o c.w = false ∧ branchTaken o c.gd c.ga = true ∧ ((c.x.pc.toNat + 4 * fImmS c.w) % 4 ≠ 0 ∨ (c.x.pc.toNat : Int) + 4 * fImmS c.w < 0 ∨ (imgCodeLen c.m : Int) ≤ c.x.pc.toNat + 4 * fImmS c.w)))) :=
  ⟨.alu 0, shOn (63 * 2 ^ 26) [], ctx (63 * 2 ^ 26) [], by decide +kernel, by decide +kernel, by decide +kernel, by decide +kernel, by decide +kernel, by decide +kernel, by decide +kernel, by decide +kernel, by decide +kernel, by decide +kernel, by decide +kernel, by decide +kernel, by decide +kernel, by decide +kernel, by decide +kernel, .inl ⟨rfl, by decide +kernel⟩⟩

/-- `Obligations.DenseOutputsLie`: its hypotheses can be met. -/
theorem met_DenseOutputsLie :
    (∃ (loom : Nat) (e : Ecc) (d : ArrayDesc) (rest : List ArrayDesc) (x : Arr) (s : State), (loomOf s loom).dq = d :: rest ∧ x = arrOf d.desc ∧ e ≠ .uncorrectable ∧ descRejected s d = false ∧ x.dense = true ∧ x.rows ≠ 0 ∧ x.cols ≠ 0 ∧ x.arrives = false ∧ d.task = none ∧ d.pick = none ∧ d.started = true ∧ sourceHeld s d = false ∧ arrReadable .any s d = x.rows ∧ (loomOf s loom).ws.wf) :=
  ⟨0, .corrected, arr0 denseDesc, [], arrOf denseDesc, loomWith denseDesc, by decide +kernel, rfl, by decide +kernel⟩

/-- `Obligations.ArraysAndReedsRun`: its hypotheses can be met. -/
theorem met_ArraysAndReedsRun :
    (∃ (loom array : Nat) (s : State), array ∈ (loomOf s loom).waitRise ∧ AMap.getD (loomOf s loom).phase array .off ≠ .fall ∧ AMap.getD s.looms.boltBlocked (loom / 8) 0 ≤ now s ∧ ThermLevel.die2 ∉ s.draught.levels ∧ (risesNow s (loom / 8)).1 < 8 ∧ (risesNow s (loom / 8)).2 < 2) ∧
    (∃ (loom array : Nat) (s : State), array ∈ (loomOf s loom).waitRise) ∧
    (∃ (loom : Nat) (e : Ecc) (d : ArrayDesc) (rest : List ArrayDesc) (s : State), (loomOf s loom).dq = d :: rest ∧ d.task = none ∧ e ≠ .uncorrectable ∧ d.pick = none ∧ (arrOf d.desc).arrives = false ∧ (arrOf d.desc).doneWs + 8 ≤ 2097152 ∧ (loomOf s loom).ws.wf ∧ (descRejected s d = true ∨ ((arrOf d.desc).rows = 0 ∨ (arrOf d.desc).cols = 0))) ∧
    (∃ (r : Nat) (d : ReedDesc) (rest : List ReedDesc) (s : State), (reedOf s r).running = none ∧ (reedOf s r).queue = d :: rest ∧ (field d.desc 0 1 = 2 ∨ field d.desc 8 8 = 0 ∨ field d.desc 4 4 ≤ 65536 ∨ largeFits s (field d.desc 4 4) = true)) ∧
    (∃ (r off : Nat) (e : Ecc) (d : ReedDesc) (i : Instance) (s : State), (reedOf s r).running = some d ∧ e ≠ .uncorrectable ∧ reedHeld s d = false ∧ AMap.get? s.prog.instances d.inst = some i ∧ (field d.desc 0 1 = 2 ∨ field d.desc 4 4 ≠ 0) ∧ field d.desc 8 8 ≠ 0 ∧ reedBad .any s d i = false ∧ bit (field d.desc 1 1) 2 = false ∧ shAddr (field d.desc 48 8) = .weave off ∧ inRegion i d.loom off 16 = true ∧ (loomOf s d.loom).ws.wf) ∧
    (∃ (loom : Nat) (d : ArrayDesc) (rest : List ArrayDesc) (s : State), (loomOf s loom).dq = d :: rest) ∧
    (∃ (r : Nat) (d : ReedDesc) (s : State), (reedOf s r).running = some d) :=
  ⟨
    ⟨0, 3, loomWith denseDesc, by decide +kernel⟩,
    ⟨0, 3, loomWith denseDesc, by decide +kernel⟩,
    ⟨0, .clean, arr0 (lay 64 [(60, 4, 2097144)]), [], loomWith (lay 64 [(60, 4, 2097144)]), by decide +kernel, by decide +kernel, by decide +kernel, by decide +kernel, by decide +kernel, by decide +kernel, by decide +kernel, .inl (by decide +kernel)⟩,
    ⟨27, reedDesc, [], reedNode, by decide +kernel, by decide +kernel, .inr (.inr (.inl (by decide +kernel)))⟩,
    ⟨26, 48, .clean, reedDesc, inst0, reedNode, by decide +kernel, by decide +kernel, by decide +kernel, by decide +kernel, .inr (by decide +kernel), by decide +kernel⟩,
    ⟨0, arr0 denseDesc, [], loomWith denseDesc, by decide +kernel⟩,
    ⟨26, reedDesc, reedNode, by decide +kernel⟩⟩

/-- `Obligations.SpindlesTakeTurns`: its hypotheses can be met. -/
theorem met_SpindlesTakeTurns :
    (∃ (cid : Nat) (a : Adm) (o : Obj) (ds : List (List Byte)) (s u : State), running s cid 0x507 = some a ∧ readsAs (target s a (a.p 32 4)) o ∧ o.kind = .data ∧ 64 * a.p 36 4 ≤ pinnedSize a (a.p 32 4) o ∧ rangeBad .any o (pinnedVer a (a.p 32 4)) 0 (64 * a.p 36 4) = false ∧ ds = records 64 (a.p 36 4) a.carried ∧ (∀ d ∈ ds, segForeign s a.cmd.fn (segOf d) = false ∧ segMissing s a.cmd.fn (segOf d) = false ∧ (segOf d).arrives = false) ∧ seqOk s a.cmd.fn ds = true ∧ bringAll s (segGranules s a.cmd.fn (ds.map segOf)) = some u ∧ (segGranules s a.cmd.fn (ds.map segOf)).any (fun e => bringHeld s e.1 e.2) = false ∧ (∀ d ∈ ds, segEcc s (segOf d) = false) ∧ (segGranules s a.cmd.fn (ds.map segOf)).any (granuleLost s) = false ∧ (∃ d ∈ ds, (segOf d).rows ≠ 0)) ∧
    (∃ (ch : Nat) (g : Segment) (s : State), (chanOf s ch).state = .memory ∧ ThermLevel.stack (ch / 32) ∉ s.draught.levels ∧ nextSegment s (chanOf s ch) = some g ∧ operandHeld s g = false) ∧
    (∃ (ch cid : Nat) (g : Segment) (q : Sequence) (a : Adm) (x : Seg) (o : Obj) (v : Version) (fr : Frame) (outs : List Byte) (s : State), (chanOf s ch).running = some g ∧ g.owner = .inl cid ∧ g.scan = false ∧ x = segOf g.desc ∧ x.arrives = false ∧ findAdm s cid = some a ∧ s.stk.sequences.find? (fun q => q.cid == cid) = some q ∧ q.off = [] ∧ runTarget s g.fn x.dst = .own o ∧ o.kind = .data ∧ verOf o o.current = some v ∧ frameOf o v (x.dstOff / granule) = some fr ∧ fr.tier = .near ∧ v.bytes.wf ∧ x.dstOff % granule + 4 * x.rows ≤ granule ∧ x.rows ≠ 0 ∧ outs = segOutputs s g.fn x (AMap.getD (chanOf s ch).operand (ownerKey g.owner) [])) ∧
    (∃ (ch cid : Nat) (g : Segment) (a : Adm) (s : State), (chanOf s ch).running = some g ∧ g.owner = .inl cid ∧ findAdm s cid = some a ∧ a.phase = .waitSegments) ∧
    (∃ (ch : Nat) (s : State), (chanOf s ch).state = .exit ∧ (chanOf s ch).held = [] ∧ (chanOf s ch).stalled = []) ∧
    (∃ (ch : Nat) (s : State), (chanOf s ch).state = .gap) ∧
    (∃ (stack level : Nat) (s : State), (∀ i, i < 32 → chanHolds s (32 * stack + i) = false ∧ (chanOf s (32 * stack + i)).held = []) ∧ level ≤ 2 ∧ (ThermLevel.stack stack ∈ s.draught.levels → level = 2)) ∧
    (∃ (ch level : Nat) (s : State), (∀ i, i < 16 → (dieOf s.flash (16 * ch + i)).programs = []) ∧ level ≤ 2 ∧ (ThermLevel.flash ch ∈ s.draught.levels → level = 2)) :=
  ⟨
    ⟨1, { pinned 0x507 [(32, 4, 2), (36, 4, 1)] [(2, 0)] with carried := segBytes }, dataObj, _, chan .memory { pinned 0x507 [(32, 4, 2), (36, 4, 1)] [(2, 0)] with carried := segBytes }, _, by decide +kernel, .inl (by decide +kernel), by decide +kernel, by decide +kernel, by decide +kernel, rfl, by decide +kernel, by decide +kernel, madeState_eq (by decide +kernel), by decide +kernel⟩,
    ⟨639, segOne, chan .memory (adm 0x507 []), by decide +kernel⟩,
    ⟨639, 1, segOne, ⟨1, 1, 0, [], []⟩, adm 0x507 [], segOf segBytes, bigObj, bigVer, bigFrame, _, chan .segment (adm 0x507 []), by decide +kernel, by decide +kernel, by decide +kernel, rfl, by decide +kernel, by decide +kernel, by decide +kernel, by decide +kernel, by decide +kernel, by decide +kernel, by decide +kernel, by decide +kernel, by decide +kernel, by decide +kernel, by decide +kernel, by decide +kernel, rfl⟩,
    ⟨639, 1, segOne, { adm 0x507 [] with phase := .waitSegments }, chan .segment { adm 0x507 [] with phase := .waitSegments }, by decide +kernel⟩,
    ⟨639, chan .exit (adm 0 []), by decide +kernel⟩,
    ⟨639, chan .gap (adm 0 []), by decide +kernel⟩,
    ⟨18, 2, chan .segment (adm 0 []), by decide +kernel⟩,
    ⟨30, 2, media, by decide +kernel⟩⟩

/-- `Obligations.PicksAndMerges`: its hypotheses can be met. -/
theorem met_PicksAndMerges :
    (∃ (index version list cls l : Nat) (w : Window) (s : State), s.looms.windows.find? (fun w => w.index == index && w.version == version && w.list == list && w.cls == cls) = some w ∧ w.closeAt < 2 ^ 64 ∧ w.members ≠ [] ∧ (w.minMembers ≤ w.members.length ∨ ∀ c ∈ w.members, (findAdm s c).any (·.has 7) = false) ∧ pickLoom s w.cls = some l) ∧
    (∃ (cid list : Nat) (epoch : BitVec 32) (a : Adm) (s : State), findAdm s cid = some a ∧ a.phase = .running ∧ (a.cmd.opcode = 0x206 ∨ a.cmd.opcode = 0x207) ∧ epoch = domainEpoch s (oidFn (a.p 32 4)) (a.p 32 4) ∧ list ∉ a.merged ∧ mergeable s a list = true) ∧
    (∃ (cid list : Nat) (epoch : BitVec 32) (a : Adm) (s : State), findAdm s cid = some a ∧ list ∈ a.merged ∧ epoch = domainEpoch s (oidFn (a.p 32 4)) (a.p 32 4)) ∧
    (∃ (cid : Nat) (epoch : BitVec 32) (a : Adm) (s : State), findAdm s cid = some a ∧ a.phase = .running ∧ (a.cmd.opcode = 0x206 ∨ a.cmd.opcode = 0x207) ∧ epoch ≠ domainEpoch s (oidFn (a.p 32 4)) (a.p 32 4)) :=
  ⟨
    ⟨1, 1, 0, 0, 0, ⟨1, 1, 0, 0, 0, 100, 150, 200, 1, [1]⟩, { node with looms := { node.looms with windows := [⟨1, 1, 0, 0, 0, 100, 150, 200, 1, [1]⟩] } }, by decide +kernel, by decide +kernel, by decide +kernel, .inl (by decide +kernel), by decide +kernel⟩,
    ⟨1, 0, _, pinned 518 [(32, 4, 1), (40, 4, 1)] [(1, 1)], run (pinned 518 [(32, 4, 1), (40, 4, 1)] [(1, 1)]) [(1, listIndex)], by decide +kernel, by decide +kernel, .inl (by decide +kernel), rfl, by decide +kernel⟩,
    ⟨1, 0, _, { adm 0x206 [(32, 4, 1)] with merged := [0] }, run { adm 0x206 [(32, 4, 1)] with merged := [0] } [], by decide +kernel, by decide +kernel, rfl⟩,
    ⟨1, 1, adm 518 [(32, 4, 1)], run (adm 518 [(32, 4, 1)]) [(1, listIndex)], by decide +kernel, by decide +kernel, .inl (by decide +kernel), by decide +kernel⟩⟩

/-- `Obligations.EffectiveCapIsTheLowest`: its hypotheses can be met. -/
theorem met_EffectiveCapIsTheLowest :
    (∃ (s : State), s.board.powered = true) ∧
    (∃ (inp : DraughtInput) (s t : State) (d : Nat), s.board.powered = true ∧ s.draught.order = 0x7654321 ∧ s.draught.etaMilli ≤ 1000 ∧ 1 ≤ d ∧ d ≤ 7 ∧ exec (.draughtAllocation inp) s = .next t) :=
  ⟨
    ⟨node, by decide +kernel⟩,
    ⟨⟨54000, 900, 4800, 400, 600, [], []⟩, node, _, 7, by decide +kernel, by decide +kernel, by decide +kernel, by decide +kernel, by decide +kernel, after_eq (by decide +kernel)⟩⟩

/-- `Obligations.DroopIsWatched`: its hypotheses can be met. -/
theorem met_DroopIsWatched :
    (∃ (depth : Nat), 30 < depth) ∧
    (∃ (depth : Nat), depth ≤ 30) ∧
    (∃ (loom : Nat) (s : State), now s < AMap.getD s.looms.boltBlocked (loom / 8) 0) ∧
    (∃ (s : State), s.draught.deepest ≤ 650) :=
  ⟨
    ⟨31, by decide +kernel⟩,
    ⟨30, by decide +kernel⟩,
    ⟨127, { node with looms := { node.looms with boltBlocked := [(15, 1001)] } }, by decide +kernel⟩,
    ⟨node, by decide +kernel⟩⟩

/-- `Obligations.DraughtFollowsTheReadings`: its hypotheses can be met. -/
theorem met_DraughtFollowsTheReadings :
    (∃ (s : State), inBanked s = true) ∧
    (∃ (s : State), inBanked s = false ∧ s.draught.vloomMv.toNat < 65000) ∧
    (∃ (s : State), s.draught.activityPj = []) ∧
    (∃ (f pj : Nat) (s : State), s.draught.activityPj = [(f, pj)] ∧ pj ≠ 0) ∧
    (∃ (rs : List Nat) (low : Nat), low ∈ rs ∧ (∀ r ∈ rs, low ≤ r) ∧ low < 65536) ∧
    (∃ (s : State), (s.boot.starting = true ∨ s.draught.planHours + 720 ≤ s.draught.hours.toNat)) ∧
    (∃ (l : ThermLevel) (x : Int) (s : State), entryPoint l ≤ x ∧ l ∉ s.draught.levels) ∧
    (∃ (l : ThermLevel) (x : Int) (s : State), x ≤ entryPoint l - 80 ∧ l ∈ s.draught.levels) ∧
    (∃ (s : State), s.draught.pace = true ∧ (∀ g ∈ s.draught.paceGroups, now (recur s .pace) < g.last + 1000000 → s.draught.paceMinUs.toNat < g.slack)) :=
  ⟨
    ⟨{ node with service := { node.service with mode := .banked } }, by decide +kernel⟩,
    ⟨node, by decide +kernel⟩,
    ⟨node, by decide +kernel⟩,
    ⟨255, 1, { node with draught := { node.draught with activityPj := [(255, 1)] } }, by decide +kernel⟩,
    ⟨[65535], 65535, by decide +kernel⟩,
    ⟨{ node with draught := { node.draught with hours := 720 } }, by decide +kernel⟩,
    ⟨.die1, 1600, node, by decide +kernel⟩,
    ⟨.die1, 1520, { node with draught := { node.draught with levels := [.die1] } }, by decide +kernel⟩,
    ⟨{ node with draught := { node.draught with pace := true } }, by decide +kernel⟩⟩

/-- `Obligations.PowerCommandsRun`: its hypotheses can be met. -/
theorem met_PowerCommandsRun :
    (∃ (cid : Nat) (a : Adm) (s : State), running s cid 0x700 = some a) ∧
    (∃ (cid : Nat) (a : Adm) (s : State), running s cid 0x701 = some a ∧ notAlone s cid = false) ∧
    (∃ (cid : Nat) (a : Adm) (s : State), running s cid 0x702 = some a ∧ notAlone s cid = false ∧ peatUsed s + (nearFrames s).length ≤ s.flash.capacity.toNat ∧ ((4096 ≤ s.flash.headroom ∧ flashRoom s.flash = true) ∨ nearFrames s = [])) ∧
    (∃ (c : Instr) (cid op : Nat) (a : Adm) (s : State), ((c = .enterBanked cid ∧ op = 0x701) ∨ (c = .enterDormant cid ∧ op = 0x702)) ∧ running s cid op = some a ∧ notAlone s cid = true) ∧
    (∃ (cid p : Nat) (mask : BitVec 256) (a : Adm) (s : State), running s cid 0x703 = some a ∧ p = a.p 32 1 ∧ mask = BitVec.ofNat 256 (a.p 64 32) ∧ (bit (a.p 33 1) 0 = true → ∀ q, q < 4 → q ≠ p → (AMap.getD s.draught.parts q {}).en = true → (AMap.getD s.draught.parts q {}).mask &&& mask = 0)) ∧
    (∃ (s : State), s.service.mode = .leavingBanked ∧ s.service.pressPending = false ∧ s.service.deferred = []) ∧
    (∃ (s : State), s.service.mode = .enteringDormant ∧ s.sched.admitted = []) :=
  ⟨
    ⟨1, adm 1792 [(32, 4, 400)], run (adm 1792 [(32, 4, 400)]) [], by decide +kernel⟩,
    ⟨1, adm 1793 [], run (adm 1793 []) [], by decide +kernel⟩,
    ⟨1, adm 1794 [], run (adm 1794 []) [], by decide +kernel, by decide +kernel, by decide +kernel, .inr (by decide +kernel)⟩,
    ⟨.enterBanked 1, 1, 0x701, adm 0x701 [], { run (adm 0x701 []) [] with service := { node.service with mode := .banked } }, .inl ⟨rfl, rfl⟩, by decide +kernel⟩,
    ⟨1, _, _, adm 1795 [(32, 1, 3), (33, 1, 1), (64, 1, 255)], run (adm 1795 [(32, 1, 3), (33, 1, 1), (64, 1, 255)]) [], by decide +kernel, rfl, rfl, by decide +kernel⟩,
    ⟨{ node with service := { node.service with mode := .leavingBanked } }, by decide +kernel⟩,
    ⟨{ node with service := { node.service with mode := .enteringDormant } }, by decide +kernel⟩⟩

/-- `Obligations.DiagnosticCommandsRun`: its hypotheses can be met. -/
theorem met_DiagnosticCommandsRun :
    (∃ (cid : Nat) (a : Adm) (s : State), running s cid 0x704 = some a) ∧
    (∃ (cid : Nat) (a : Adm) (s : State), running s cid 0x705 = some a) ∧
    (∃ (cid : Nat) (a : Adm) (s : State), running s cid 0x706 = some a ∧ s.service.frozen = false) ∧
    (∃ (cid : Nat) (a : Adm) (s : State), running s cid 0x706 = some a ∧ s.service.frozen = true) ∧
    (∃ (cid : Nat) (a : Adm) (s : State), running s cid 0x707 = some a ∧ s.boot.kindling = false ∧ (∀ b, b < 20 → bit (a.p 32 4) b = true → inService s b = false)) ∧
    (∃ (cid : Nat) (a : Adm) (o : Obj) (v : Version) (s : State), running s cid 0x707 = some a ∧ s.boot.kindling = true ∧ objOf s 1 = some o ∧ verOf o o.current = some v ∧ v.bytes.wf) ∧
    (∃ (cid b : Nat) (a : Adm) (s : State), running s cid 0x707 = some a ∧ s.boot.kindling = false ∧ b < 20 ∧ bit (a.p 32 4) b = true ∧ inService s b = true) ∧
    (∃ (cid k : Nat) (a : Adm) (s : State), running s cid 0x708 = some a ∧ s.boot.kindling = true ∧ a.cmd.origin = .host k ∧ s.sched.admitted.all (fun b => b.cmd.opcode != 0x800 && b.cmd.opcode != 0x707) = true) ∧
    (∃ (cid : Nat) (a : Adm) (s : State), running s cid 0x708 = some a ∧ s.boot.kindling = false) :=
  ⟨
    ⟨1, adm 1796 [], run (adm 1796 []) [], by decide +kernel⟩,
    ⟨1, adm 1797 [], run (adm 1797 []) [], by decide +kernel⟩,
    ⟨1, adm 1798 [], run (adm 1798 []) [], by decide +kernel⟩,
    ⟨1, adm 1798 [], { run (adm 1798 []) [] with service := { node.service with frozen := true } }, by decide +kernel⟩,
    ⟨1, adm 1799 [(32, 4, 0)], run (adm 1799 [(32, 4, 0)]) [], by decide +kernel⟩,
    ⟨1, adm 1799 [], dataObj, dataVer, { run (adm 1799 []) [(1, dataObj)] with boot := { node.boot with kindling := true } }, by decide +kernel⟩,
    ⟨1, 19, adm 1799 [(32, 4, 0x80000)], run (adm 1799 [(32, 4, 0x80000)]) [], by decide +kernel⟩,
    ⟨1, 0, adm 1800 [], { run (adm 1800 []) [(1, dataObj)] with boot := { node.boot with kindling := true } }, by decide +kernel⟩,
    ⟨1, adm 1800 [], run (adm 1800 []) [], by decide +kernel⟩⟩

/-- `Obligations.GroupsComposeAndPortStatus`: its hypotheses can be met. -/
theorem met_GroupsComposeAndPortStatus :
    (∃ (cid oid : Nat) (a : Adm) (s u : State), running s cid 0x600 = some a ∧ (memberList a.cmd).getD (a.p 34 2) 65536 = s.fabric.node.toNat ∧ createObj s a.cmd.fn (.group (memberList a.cmd) (a.p 34 2)) 0 [] 0 (fun _ => false) (some cid) = some (u, oid)) ∧
    (∃ (cid : Nat) (a : Adm) (s : State), running s cid 0x600 = some a ∧ (memberList a.cmd).getD (a.p 34 2) 65536 ≠ s.fabric.node.toNat) ∧
    (∃ (cid : Nat) (a : Adm) (o : Obj) (s : State), running s cid 0x601 = some a ∧ target s a (a.p 32 4) = .own o ∧ o.isGroup = true) ∧
    (∃ (cid : Nat) (a : Adm) (o : Obj) (s : State), running s cid 0x601 = some a ∧ target s a (a.p 32 4) = .own o ∧ o.isGroup = false) ∧
    (∃ (cid : Nat) (a : Adm) (m : List Byte) (s : State), running s cid 0x604 = some a ∧ m = slice (a.cmd.packet.drop 32) 0 64 ∧ composeOk m = true ∧ field m 0 1 = 1 ∧ (a.has 30 = true ∨ s.fabric.cseq.toNat < field m 4 4)) ∧
    (∃ (cid : Nat) (a : Adm) (m : List Byte) (s : State), running s cid 0x604 = some a ∧ m = slice (a.cmd.packet.drop 32) 0 64 ∧ composeOk m = true ∧ a.has 30 = false ∧ field m 4 4 ≤ s.fabric.cseq.toNat ∧ (field m 0 1 ≠ 4 ∨ field m 4 4 ≠ 0)) ∧
    (∃ (cid : Nat) (a : Adm) (s : State), running s cid 0x604 = some a ∧ composeOk (slice (a.cmd.packet.drop 32) 0 64) = false) ∧
    (∃ (cid : Nat) (a : Adm) (s : State), running s cid 0x606 = some a) :=
  ⟨
    ⟨1, _, adm 1536 [(32, 2, 2), (34, 2, 0), (64, 2, 3), (66, 2, 4)], fabRun (adm 1536 [(32, 2, 2), (34, 2, 0), (64, 2, 3), (66, 2, 4)]) [], _, by decide +kernel, by decide +kernel, made_eq (by decide +kernel)⟩,
    ⟨1, adm 1536 [(32, 2, 2), (34, 2, 1), (64, 2, 3), (66, 2, 4)], fabRun (adm 1536 [(32, 2, 2), (34, 2, 1), (64, 2, 3), (66, 2, 4)]) [], by decide +kernel⟩,
    ⟨1, pinned 1537 [(32, 4, 1)] [(1, 0)], groupObj, run (pinned 1537 [(32, 4, 1)] [(1, 0)]) [(1, groupObj)], by decide +kernel⟩,
    ⟨1, pinned 1537 [(32, 4, 1)] [(1, 0)], dataObj, run (pinned 1537 [(32, 4, 1)] [(1, 0)]) [(1, dataObj)], by decide +kernel⟩,
    ⟨1, adm 1540 [(32, 1, 1), (40, 2, 4095), (44, 4, 10)], _, fabRun (adm 1540 [(32, 1, 1), (40, 2, 4095), (44, 4, 10)]) [], by decide +kernel, rfl, by decide +kernel, by decide +kernel, .inl (by decide +kernel)⟩,
    ⟨1, { adm 0x604 [(32, 1, 1), (40, 2, 4095), (44, 4, 10000)] with features := 0 }, _, fabRun { adm 0x604 [(32, 1, 1), (40, 2, 4095), (44, 4, 10000)] with features := 0 } [], by decide +kernel, rfl, by decide +kernel, by decide +kernel, by decide +kernel, .inl (by decide +kernel)⟩,
    ⟨1, adm 1540 [(32, 1, 7)], run (adm 1540 [(32, 1, 7)]) [], by decide +kernel⟩,
    ⟨1, adm 1542 [], run (adm 1542 []) [], by decide +kernel⟩⟩

/-- `Obligations.CommandsOverTheFabric`: its hypotheses can be met. -/
theorem met_CommandsOverTheFabric :
    (∃ (cid : Nat) (a : Adm) (o : Obj) (s : State), running s cid 0x603 = some a ∧ readsAs (target s a (a.p 36 4)) o ∧ o.kind = .data ∧ a.p 40 8 + a.carried.length ≤ pinnedSize a (a.p 36 4) o ∧ rangeBad .any o (pinnedVer a (a.p 36 4)) (a.p 40 8) a.carried.length = false ∧ reachable s 1 (a.p 32 2) a.cmd.fn (cid % 2 ^ 32) = true) ∧
    (∃ (cid : Nat) (a : Adm) (o : Obj) (s : State), running s cid 0x603 = some a ∧ readsAs (target s a (a.p 36 4)) o ∧ o.kind = .data ∧ a.p 40 8 + a.carried.length ≤ pinnedSize a (a.p 36 4) o ∧ rangeBad .any o (pinnedVer a (a.p 36 4)) (a.p 40 8) a.carried.length = false ∧ reachable s 1 (a.p 32 2) a.cmd.fn (cid % 2 ^ 32) = false) ∧
    (∃ (a : Adm) (d : Nat), a.cmd.deadline = some d) ∧
    (∃ (cid self : Nat) (a : Adm) (g so o : Obj) (members : List Nat) (s : State), running s cid 0x602 = some a ∧ target s a (a.p 32 4) = .own g ∧ g.kind = .group members self ∧ a.p 36 1 = 0 ∧ a.p 38 2 < members.length ∧ self ≠ a.p 38 2 ∧ collOf s a.cmd.fn members (a.p 76 4) = none ∧ readsAs (target s a (a.p 40 4)) so ∧ so.kind = .data ∧ 0 < a.p 64 8 ∧ a.p 64 8 < 4080 ∧ a.p 64 8 % 4 = 0 ∧ a.p 48 8 + a.p 64 8 ≤ pinnedSize a (a.p 40 4) so ∧ rangeBad .any so (pinnedVer a (a.p 40 4)) (a.p 48 8) (a.p 64 8) = false ∧ target s a (a.p 44 4) = .own o ∧ o.kind = .data ∧ a.p 44 4 ≠ 0 ∧ a.p 56 8 + a.p 64 8 ≤ pinnedSize a (a.p 44 4) o ∧ reachable s 3 (members.getD (a.p 38 2) 0) a.cmd.fn (a.p 76 4) = true) ∧
    (∃ (cid : Nat) (a : Adm) (o : Obj) (s : State), running s cid 0x605 = some a ∧ migrateBusy s a = false ∧ liveObj s (a.p 32 4) = some o ∧ domainKindOk (a.p 36 1) o = true ∧ a.p 36 1 ≠ 2 ∧ (domainEpoch s (oidFn (a.p 32 4)) (a.p 32 4)).toNat < a.p 40 4 ∧ reachable s 5 (a.p 38 2) (oidFn (a.p 32 4)) (a.p 32 4) = true ∧ s.glaesh.nodeKey.isSome = true) ∧
    (∃ (cid : Nat) (a : Adm) (o : Obj) (s : State), findAdm s cid = some a ∧ a.phase = .waitMigrate ∧ a.cmd.opcode = 0x605 ∧ (domainEpoch s (oidFn (a.p 32 4)) (a.p 32 4)).toNat < a.p 40 4 ∧ objOf s (a.p 32 4) = some o ∧ o.destroyed = false ∧ o.fn = oidFn (a.p 32 4) ∧ oidSerial (a.p 32 4) ≠ 0) :=
  ⟨
    ⟨1, pinned 1539 [(32, 2, 4), (36, 4, 1), (40, 8, 4096)] [(1, 0)], dataObj, fabRun (pinned 1539 [(32, 2, 4), (36, 4, 1), (40, 8, 4096)] [(1, 0)]) [(1, dataObj)], by decide +kernel, .inl (by decide +kernel), by decide +kernel, by decide +kernel, by decide +kernel, reaches (p := 0) (by decide +kernel) (by decide +kernel)⟩,
    ⟨1, pinned 1539 [(32, 2, 4), (36, 4, 1), (40, 8, 4096)] [(1, 0)], dataObj, run (pinned 1539 [(32, 2, 4), (36, 4, 1), (40, 8, 4096)] [(1, 0)]) [(1, dataObj)], by decide +kernel, .inl (by decide +kernel), by decide +kernel⟩,
    ⟨{ adm 0 [] with cmd := late }, 100, by decide +kernel⟩,
    ⟨1, 0, pinned 1538 [(32, 4, 1), (38, 2, 1), (40, 4, 2), (44, 4, 3), (48, 8, 20), (56, 8, 20), (64, 8, 4076), (76, 4, 7)] [(1, 0), (2, 0), (3, 0)], groupObj, dataObj, dataObj, [3, 4], fabRun (pinned 1538 [(32, 4, 1), (38, 2, 1), (40, 4, 2), (44, 4, 3), (48, 8, 20), (56, 8, 20), (64, 8, 4076), (76, 4, 7)] [(1, 0), (2, 0), (3, 0)]) [(1, groupObj), (2, dataObj), (3, dataObj)], by decide +kernel, by decide +kernel, by decide +kernel, by decide +kernel, by decide +kernel, by decide +kernel, by decide +kernel, .inl (by decide +kernel), by decide +kernel, by decide +kernel, by decide +kernel, by decide +kernel, by decide +kernel, by decide +kernel, by decide +kernel, by decide +kernel, by decide +kernel, by decide +kernel, reaches (p := 0) (by decide +kernel) (by decide +kernel)⟩,
    ⟨1, adm 1541 [(32, 4, 1), (38, 2, 4), (40, 4, 1)], listIndex, fabRun (adm 1541 [(32, 4, 1), (38, 2, 4), (40, 4, 1)]) [(1, listIndex)], by decide +kernel, by decide +kernel, by decide +kernel, by decide +kernel, by decide +kernel, by decide +kernel, reaches (p := 0) (by decide +kernel) (by decide +kernel), by decide +kernel⟩,
    ⟨1, { adm 0x605 [(32, 4, 1), (38, 2, 4), (40, 4, 1)] with phase := .waitMigrate }, listIndex, fabRun { adm 0x605 [(32, 4, 1), (38, 2, 4), (40, 4, 1)] with phase := .waitMigrate } [(1, listIndex)], by decide +kernel⟩⟩

/-- `Obligations.PortsTrainAndCarryFlits`: its hypotheses can be met. -/
theorem met_PortsTrainAndCarryFlits :
    (∃ (p : Nat) (s : State), (portOf s p).state = .detect) ∧
    (∃ (p w : Nat) (lanes : BitVec 4) (s : State), (portOf s p).state = .equalise ∧ ((w = 4 ∧ lanes = 15 ∧ strapTwoLanes s.boot = false) ∨ (w = 2 ∧ lanes.getLsbD 0 = true ∧ lanes.getLsbD 1 = true ∧ (lanes ≠ 15 ∨ strapTwoLanes s.boot = true)) ∨ (w = 1 ∧ lanes.getLsbD 0 = true ∧ lanes.getLsbD 1 = false))) ∧
    (∃ (p : Nat) (lanes : BitVec 4) (s : State), (portOf s p).state = .equalise ∧ lanes.getLsbD 0 = false) ∧
    (∃ (p : Nat) (s : State), (portOf s p).state = .align) ∧
    (∃ (p : Nat) (s : State), ((portOf s p).state = .detect ∨ (portOf s p).state = .equalise ∨ (portOf s p).state = .align) ∧ (portOf s p).since + 20000000 < 2 ^ 64) ∧
    (∃ (p : Nat) (s : State), (portOf s p).state = .down ∧ (portOf s p).since + 100000000 < 2 ^ 64) ∧
    (∃ (p : Nat) (s : State), (portOf s p).state = .active) ∧
    (∃ (p : Nat) (s : State), (portOf s p).state = .retrain) ∧
    (∃ (p : Nat) (fl : Flit) (bad : List Nat) (s : State), (portOf s p).state = .active ∧ 8 < fl.byteErrors ∧ bad = now s :: (portOf s p).badFlits.filter (fun n => decide (now s < n + 100000))) ∧
    (∃ (p : Nat) (fl : Flit) (s : State), (portOf s p).state = .active ∧ fl.byteErrors ≤ 8 ∧ fl.kind = 1 ∧ fl.fseq = (portOf s p).rxFseq) ∧
    (∃ (p : Nat) (fl : Flit) (s : State), (portOf s p).state = .active ∧ fl.byteErrors = 0 ∧ fl.fseq ≠ (portOf s p).rxFseq) ∧
    (∃ (p : Nat) (q : BitVec 16) (s : State), q ∈ (portOf s p).held) ∧
    (∃ (p : Nat) (s : State), outQueue s p = []) ∧
    (∃ (x : Port) (rs : List Retained) (r : Retained), nextOut x rs = some r) ∧
    (∃ (p : Nat) (r : Retained) (v : BitVec 64) (s : State), r.forNode = false ∧ v = (egressTags (portOf s p) r.fn).1) :=
  ⟨
    ⟨11, portIn .detect, by decide +kernel⟩,
    ⟨11, 2, 7, portIn .equalise, by decide +kernel⟩,
    ⟨11, 14, portIn .equalise, by decide +kernel⟩,
    ⟨11, portIn .align, by decide +kernel⟩,
    ⟨11, portIn .align, .inr (.inr (by decide +kernel)), by decide +kernel⟩,
    ⟨11, portIn .down, by decide +kernel⟩,
    ⟨11, portIn .active, by decide +kernel⟩,
    ⟨11, portIn .retrain, by decide +kernel⟩,
    ⟨11, ⟨1, 0, 9, none⟩, _, portIn .active, by decide +kernel, by decide +kernel, rfl⟩,
    ⟨11, ⟨1, 0, 8, none⟩, portIn .active, by decide +kernel⟩,
    ⟨11, ⟨1, 1, 0, none⟩, portIn .active, by decide +kernel⟩,
    ⟨11, 5, portIn .active, by decide +kernel⟩,
    ⟨11, kept 1, by decide +kernel⟩,
    ⟨{}, [⟨4, 7, 0, .trigOut, 1, 1, 0, 0, false, false⟩], ⟨4, 7, 0, .trigOut, 1, 1, 0, 0, false, false⟩, by decide +kernel⟩,
    ⟨0, ⟨4, 7, 0, .trigOut, 1, 1, 0, 0, false, false⟩, _, fab, by decide +kernel, rfl⟩⟩

/-- `Obligations.PacketsArriveOnce`: its hypotheses can be met. -/
theorem met_PacketsArriveOnce :
    (∃ (f key src : Nat) (q : BitVec 32) (s t : State), takeSeq s f key src q = some t) ∧
    (∃ (f key src src' : Nat) (q : BitVec 32) (s t : State), takeSeq s f key src q = some t ∧ src' ≠ src) ∧
    (∃ (c : Instr) (p : Packet) (us member : Nat) (fs : ReplyFields) (ms : List Nat) (s : State), (c = .request p us ∨ c = .reply p fs ∨ c = .contribution p ms member ∨ c = .delivery p ms ∨ c = .push p) ∧ s.fabric.node ≠ 0xFFFF ∧ (fnOf s p.fn).rxKeys.any (·.1 == p.keyId) = true ∧ p.compressed = false ∧ takeSeq s p.fn p.keyId p.src p.seq = none) ∧
    (∃ (c : Instr) (p : Packet) (us member : Nat) (fs : ReplyFields) (ms : List Nat), (c = .request p us ∨ c = .reply p fs ∨ c = .contribution p ms member ∨ c = .delivery p ms ∨ c = .push p)) ∧
    (∃ (src : Nat) (q : BitVec 32) (s : State), s.fabric.node ≠ 0xFFFF ∧ s.glaesh.nodeKey.isSome = true ∧ takeSeq s nodeKeyFn 0 src q = none) ∧
    (∃ (c : Instr) (src fn first : Nat) (q cseq features domain epoch ms : BitVec 32) (a b m : BitVec 16) (g : Option Nat), (c = .node src q cseq a b ms ∨ c = .route src q cseq a b m ∨ c = .tenant src q cseq fn features ∨ c = .epoch src q cseq first domain epoch a ∨ c = .drain src q cseq g ∨ c = .undrain src q cseq g)) :=
  ⟨
    ⟨0, 0, 4, 7, fab, _, madeState_eq (by decide +kernel)⟩,
    ⟨0, 0, 4, 5, 7, fab, _, madeState_eq (by decide +kernel), by decide +kernel⟩,
    ⟨.push (pkt []), pkt [], 0, 0, ⟨0, 0, 0, 0, 0, 0⟩, [], madeState (takeSeq fab 0 0 4 7), .inr (.inr (.inr (.inr rfl))), by decide +kernel⟩,
    ⟨.push (pkt []), pkt [], 0, 0, ⟨0, 0, 0, 0, 0, 0⟩, [], .inr (.inr (.inr (.inr rfl)))⟩,
    ⟨4, 7, madeState (takeSeq fab nodeKeyFn 0 4 7), by decide +kernel⟩,
    ⟨.drain 9 1 1 none, 9, 0, 0, 1, 1, 0, 0, 0, 0, 0, 0, 0, none, .inr (.inr (.inr (.inr (.inl rfl))))⟩⟩

/-- `Obligations.PacketsDoTheirWork`: its hypotheses can be met. -/
theorem met_PacketsDoTheirWork :
    (∃ (p : Packet) (s s' : State), s.fabric.node ≠ 0xFFFF ∧ (fnOf s p.fn).rxKeys.any (·.1 == p.keyId) = true ∧ p.compressed = false ∧ takeSeq s p.fn p.keyId p.src p.seq = some s' ∧ p.last = true ∧ p.offset = 0 ∧ s.fabric.inbox = [] ∧ field p.payload 0 2 ≠ 0xFFFF ∧ movedDomain s p.fn p.epoch [shareDomain p.fn, field p.payload 32 4] = none ∧ (fnOf s p.fn).flr = false) ∧
    (∃ (p : Packet) (a : Adm) (s s' : State), s.fabric.node ≠ 0xFFFF ∧ (fnOf s p.fn).rxKeys.any (·.1 == p.keyId) = true ∧ p.compressed = false ∧ takeSeq s p.fn p.keyId p.src p.seq = some s' ∧ p.last = true ∧ p.offset = 0 ∧ s.fabric.inbox = [] ∧ s.sched.admitted.all (fun b => b.phase != .waitMigrate) = true ∧ replyFor s p.src p.fn p.ctx = some a ∧ findAdm s a.cmd.cid = some a) ∧
    (∃ (p : Packet) (ms : List Nat) (member : Nat) (s s' : State), s.fabric.node ≠ 0xFFFF ∧ (fnOf s p.fn).rxKeys.any (·.1 == p.keyId) = true ∧ p.compressed = false ∧ takeSeq s p.fn p.keyId p.src p.seq = some s' ∧ field p.payload 0 1 < 5 ∧ p.epoch = (fnOf s p.fn).shareEpoch ∧ collOf s p.fn ms p.ctx = none ∧ (p.fn, ms, p.ctx, member) ∉ s.fabric.late ∧ heldBytes s + p.payload.length ≤ 67108864) ∧
    (∃ (p : Packet) (s s' : State), s.fabric.node ≠ 0xFFFF ∧ (fnOf s p.fn).rxKeys.any (·.1 == p.keyId) = true ∧ p.compressed = false ∧ takeSeq s p.fn p.keyId p.src p.seq = some s' ∧ field p.payload 0 1 < 5 ∧ p.epoch ≠ (fnOf s p.fn).shareEpoch ∧ heldBytes s + p.payload.length ≤ 67108864) ∧
    (∃ (p : Packet) (ms : List Nat) (s : State), 67108864 < heldBytes s + p.payload.length ∧ (fnOf s p.fn).rxKeys.any (·.1 == p.keyId) = true ∧ p.compressed = false ∧ field p.payload 0 1 ≠ 5 ∧ (collOf s p.fn ms p.ctx).any (·.begun) = false ∧ (takeSeq s p.fn p.keyId p.src p.seq).isSome = true) ∧
    (∃ (p : Packet) (ms : List Nat) (c : Coll) (a : Adm) (o : Obj) (v : Version) (cid : Nat) (s s' : State), s.fabric.node ≠ 0xFFFF ∧ (fnOf s p.fn).rxKeys.any (·.1 == p.keyId) = true ∧ p.compressed = false ∧ takeSeq s p.fn p.keyId p.src p.seq = some s' ∧ collOf s p.fn ms p.ctx = some c ∧ c.begun = true ∧ c.kind = 0 ∧ c.self ≠ c.root ∧ c.delivered = false ∧ c.got = [] ∧ p.last = true ∧ p.offset = 0 ∧ c.cid = some cid ∧ findAdm s cid = some a ∧ a.p 44 4 ≠ 0 ∧ target s a (a.p 44 4) = .own o ∧ o.kind = .data ∧ o.current = 0 ∧ verOf o 0 = some v ∧ v.bytes.wf ∧ a.p 56 8 + p.payload.length ≤ v.size ∧ (∀ g ∈ rangeGranules (a.p 56 8) p.payload.length, ∃ fr, frameOf o v g = some fr ∧ fr.tier = .near ∧ fr.lost = false)) ∧
    (∃ (p : Packet) (s s' : State), s.fabric.node ≠ 0xFFFF ∧ (fnOf s p.fn).rxKeys.any (·.1 == p.keyId) = true ∧ p.compressed = false ∧ takeSeq s p.fn p.keyId p.src p.seq = some s' ∧ p.epoch = 0 ∧ streamFor s p.fn p.ctx = none ∧ p.offset + p.payload.length ≤ 16777216 ∧ heldBytes s + p.payload.length ≤ 67108864) ∧
    (∃ (s : State), s.fabric.node ≠ 0xFFFF ∧ s.glaesh.nodeKey.isSome = true ∧ s.fabric.colls = []) ∧
    (∃ (src : Nat) (q : BitVec 32) (node : BitVec 16) (s s' : State), s.fabric.node ≠ 0xFFFF ∧ s.glaesh.nodeKey.isSome = true ∧ takeSeq s nodeKeyFn 0 src q = some s' ∧ node ≠ s.fabric.node) :=
  ⟨
    ⟨pkt [], fab, _, by decide +kernel, by decide +kernel, by decide +kernel, madeState_eq (by decide +kernel), by decide +kernel⟩,
    ⟨pkt [], { cmd := { cmd 0x603 [] with cid := 1 }, seq := 1, admitted := 0, features := 0, phase := .waitReply 4 }, fabRun { cmd := { cmd 0x603 [] with cid := 1 }, seq := 1, admitted := 0, features := 0, phase := .waitReply 4 } [], _, by decide +kernel, by decide +kernel, by decide +kernel, madeState_eq (by decide +kernel), by decide +kernel⟩,
    ⟨pkt (lay 16 [(0, 1, 4)]), [3, 4], 0, fab, _, by decide +kernel, by decide +kernel, by decide +kernel, madeState_eq (by decide +kernel), by decide +kernel⟩,
    ⟨{ pkt (lay 16 [(0, 1, 4)]) with epoch := 1 }, fab, _, by decide +kernel, by decide +kernel, by decide +kernel, madeState_eq (by decide +kernel), by decide +kernel⟩,
    ⟨pkt [], [3, 4], fullOf 67108865, over_cap (held_of 67108865), by decide +kernel⟩,
    ⟨pkt [7], [3, 4], coll0, pinned 0x602 [(44, 4, 2), (56, 8, 4095)] [(2, 0)], dataObj, dataVer, 1, { fabRun (pinned 0x602 [(44, 4, 2), (56, 8, 4095)] [(2, 0)]) [(2, dataObj)] with fabric := { fab.fabric with colls := [coll0] } }, _, by decide +kernel, by decide +kernel, by decide +kernel, madeState_eq (by decide +kernel), by decide +kernel, by decide +kernel, by decide +kernel, by decide +kernel, by decide +kernel, by decide +kernel, by decide +kernel, by decide +kernel, by decide +kernel, by decide +kernel, by decide +kernel, by decide +kernel, by decide +kernel, by decide +kernel, by decide +kernel, by decide +kernel, by decide +kernel, one_granule (by decide +kernel) ⟨nearFrame, by decide +kernel⟩⟩,
    ⟨{ pkt [7] with offset := 16777215 }, fab, _, by decide +kernel, by decide +kernel, by decide +kernel, madeState_eq (by decide +kernel), by decide +kernel⟩,
    ⟨fab, by decide +kernel⟩,
    ⟨4, 7, 4, fab, _, by decide +kernel, by decide +kernel, madeState_eq (by decide +kernel), by decide +kernel⟩⟩

/-- `Obligations.CompositionApplies`: its hypotheses can be met. -/
theorem met_CompositionApplies :
    (∃ (src : Nat) (q cseq ms : BitVec 32) (n : BitVec 16) (s s' : State), s.glaesh.compKey.isSome = true ∧ takeSeq s compKeyFn 0 src q = some s' ∧ s.fabric.cseq.toNat < cseq.toNat ∧ n.toNat ≤ 4095 ∧ 10 ≤ ms.toNat ∧ ms.toNat ≤ 10000) ∧
    (∃ (src : Nat) (q cseq : BitVec 32) (first count mask : BitVec 16) (s s' : State), s.glaesh.compKey.isSome = true ∧ takeSeq s compKeyFn 0 src q = some s' ∧ s.fabric.cseq.toNat < cseq.toNat ∧ 1 ≤ count.toNat ∧ count.toNat ≤ 4096 ∧ first.toNat + count.toNat ≤ 4096 ∧ mask.toNat < 4096) ∧
    (∃ (src : Nat) (q cseq : BitVec 32) (s s' : State), s.glaesh.compKey.isSome = true ∧ takeSeq s compKeyFn 0 src q = some s' ∧ s.fabric.cseq.toNat < cseq.toNat) ∧
    (∃ (src : Nat) (q cseq : BitVec 32) (s s' : State), s.glaesh.compKey.isSome = true ∧ takeSeq s compKeyFn 0 src q = some s' ∧ (cseq = 0 ∨ s.fabric.cseq.toNat < cseq.toNat)) ∧
    (∃ (c : Instr) (on : Bool) (src fn : Nat) (q cseq : BitVec 32) (s s' : State), ((c = .drain src q cseq (some fn) ∧ on = true) ∨ (c = .undrain src q cseq (some fn) ∧ on = false)) ∧ s.glaesh.compKey.isSome = true ∧ takeSeq s compKeyFn 0 src q = some s' ∧ s.fabric.cseq.toNat < cseq.toNat) ∧
    (∃ (c : Instr) (on : Bool) (src f : Nat) (q cseq : BitVec 32) (s s' : State), ((c = .drain src q cseq none ∧ on = true) ∨ (c = .undrain src q cseq none ∧ on = false)) ∧ f < 256 ∧ s.glaesh.compKey.isSome = true ∧ takeSeq s compKeyFn 0 src q = some s' ∧ s.fabric.cseq.toNat < cseq.toNat) ∧
    (∃ (c : Instr) (src fn : Nat) (q cseq features domain e ms : BitVec 32) (a b m : BitVec 16) (g : Option Nat) (s s' : State), (c = .node src q cseq a b ms ∨ c = .route src q cseq a b m ∨ c = .tenant src q cseq fn features ∨ (c = .epoch src q cseq fn domain e a ∧ cseq ≠ 0) ∨ c = .drain src q cseq g ∨ c = .undrain src q cseq g) ∧ s.glaesh.compKey.isSome = true ∧ takeSeq s compKeyFn 0 src q = some s' ∧ cseq.toNat ≤ s.fabric.cseq.toNat) :=
  ⟨
    ⟨9, 1, 1, 10000, 4095, fab, _, by decide +kernel, madeState_eq (by decide +kernel), by decide +kernel⟩,
    ⟨9, 1, 1, 4095, 1, 4095, fab, _, by decide +kernel, madeState_eq (by decide +kernel), by decide +kernel⟩,
    ⟨9, 1, 1, fab, _, by decide +kernel, madeState_eq (by decide +kernel), by decide +kernel⟩,
    ⟨9, 1, 0, fab, _, by decide +kernel, madeState_eq (by decide +kernel), .inl rfl⟩,
    ⟨.drain 9 1 1 (some 255), true, 9, 255, 1, 1, fab, _, .inl ⟨rfl, rfl⟩, by decide +kernel, madeState_eq (by decide +kernel), by decide +kernel⟩,
    ⟨.undrain 9 1 1 none, false, 9, 255, 1, 1, fab, _, .inr ⟨rfl, rfl⟩, by decide +kernel, by decide +kernel, madeState_eq (by decide +kernel), by decide +kernel⟩,
    ⟨.drain 9 1 0 none, 9, 0, 1, 0, 0, 0, 0, 0, 0, 0, 0, none, fab, _, .inr (.inr (.inr (.inr (.inl rfl)))), by decide +kernel, madeState_eq (by decide +kernel), by decide +kernel⟩⟩

/-- `Obligations.FabricTimersAct`: its hypotheses can be met. -/
theorem met_FabricTimersAct :
    (∃ (dst p : Nat) (q : BitVec 32) (r : Retained) (s : State), s.fabric.retained.filter (fun x => x.dst == dst && x.seq == q) = [r] ∧ r.sends ≠ 0 ∧ r.sends < 8 ∧ r.again = false ∧ r.once = false ∧ routePorts s dst = [p] ∧ outQueue s p = [] ∧ r.flits ≤ (portOf s p).dataCredits ∧ r.sentAt + 5000 < 2 ^ 64) ∧
    (∃ (dst : Nat) (q : BitVec 32) (r : Retained) (s : State), s.fabric.retained.find? (fun r => r.dst == dst && r.seq == q && r.sends != 0) = some r ∧ 8 ≤ r.sends ∧ s.fabric.colls = []) ∧
    (∃ (dst p : Nat) (s : State), dst ∈ s.fabric.unreachable ∧ s.fabric.node ≠ 0xFFFF ∧ s.glaesh.nodeKey.isSome = true ∧ routePort s dst 0 0 = some p ∧ 1 ≤ (portOf s p).dataCredits ∧ outQueue s p = [] ∧ (∀ x ∈ s.fabric.retained, x.dst ≠ dst)) ∧
    (∃ (s u : State), s.fabric.runtime ≠ 0xFFFF ∧ reachable s 9 s.fabric.runtime.toNat 0 0 = true ∧ u = recur s .report) ∧
    (∃ (s : State), s.fabric.runtime = 0xFFFF) ∧
    (∃ (fn domain : Nat) (d : Domain) (s : State), domainOf s fn domain = some d ∧ d.owed = true) ∧
    (∃ (fn stream : Nat) (st : Stream) (s : State), streamFor s fn stream = some st ∧ st.whole? = none ∧ st.gained + 1000000000 < 2 ^ 64) ∧
    (∃ (fn seq : Nat) (c : Coll) (sh issued : Nat) (d : List Byte) (no : Nat) (i : Instance) (s : State), s.fabric.colls.find? (fun c => c.fn == fn && c.seq == seq && c.begun && c.desc.any (fun d => field d.2.1 44 4 != 0)) = some c ∧ c.kind ≠ 5 ∧ c.desc = some (sh, d, issued) ∧ bit (field d 1 1) 0 = false ∧ issued + 100 * field d 44 4 < 2 ^ 64 ∧ no = (shuttleOf s sh).inst ∧ AMap.get? s.prog.instances no = some i ∧ (∀ n : Nat, shAddr (field d 48 8) = .weave n → inRegion i (sh / 128) n 16 = true)) :=
  ⟨
    ⟨4, 0, 7, ⟨4, 7, 0, .trigOut, 1, 7, 0, 0, false, false⟩, kept 7, by decide +kernel⟩,
    ⟨4, 7, ⟨4, 7, 0, .trigOut, 1, 8, 0, 0, false, false⟩, kept 8, by decide +kernel⟩,
    ⟨4, 0, { fab with fabric := { fab.fabric with unreachable := [4] } }, by decide +kernel, by decide +kernel, by decide +kernel, one_port (by decide +kernel), by decide +kernel⟩,
    ⟨fab, _, by decide +kernel, reaches (p := 0) (by decide +kernel) (by decide +kernel), rfl⟩,
    ⟨node, by decide +kernel⟩,
    ⟨0, 1, { fn := 0, id := 1, epoch := 1, node := 4, owed := true }, { fab with fabric := { fab.fabric with domains := [{ fn := 0, id := 1, epoch := 1, node := 4, owed := true }] } }, by decide +kernel⟩,
    ⟨0, 1, { fn := 0, id := 1 }, { fab with fabric := { fab.fabric with streams := [{ fn := 0, id := 1 }] } }, by decide +kernel⟩,
    ⟨0, 1, { coll0 with cid := none, desc := some (0, lay 64 [(44, 4, 1), (48, 8, 2 ^ 63 + 48)], 0) }, 0, 0, lay 64 [(44, 4, 1), (48, 8, 2 ^ 63 + 48)], 5, inst0, { shOn 0 [] with fabric := { fab.fabric with colls := [{ coll0 with cid := none, desc := some (0, lay 64 [(44, 4, 1), (48, 8, 2 ^ 63 + 48)], 0) }] } }, by decide +kernel, by decide +kernel, by decide +kernel, by decide +kernel, by decide +kernel, by decide +kernel, by decide +kernel, fun n h => by
      have e : shAddr (field (lay 64 [(44, 4, 1), (48, 8, 2 ^ 63 + 48)]) 48 8) = .weave 48 := by decide +kernel
      rw [e] at h; cases h; decide +kernel⟩⟩

/-- `Obligations.FlashEventsEnd`: its hypotheses can be met. -/
theorem met_FlashEventsEnd :
    (∃ (d : Nat) (p : Program) (rest : List Program) (s : State), (dieOf s.flash d).programs = p :: rest ∧ p.parity = false ∧ p.moot = false ∧ (∀ x ∈ s.flash.map, x.names p.obj p.ver p.gran = true → x.seq ≤ p.seq)) ∧
    (∃ (d : Nat) (p : Program) (rest : List Program) (s : State), (dieOf s.flash d).programs = p :: rest ∧ p.parity = false ∧ p.moot = true) ∧
    (∃ (d : Nat) (p : Program) (rest : List Program) (s : State), (dieOf s.flash d).programs = p :: rest ∧ p.parity = true) ∧
    (∃ (d : Nat) (p : Program) (rest : List Program) (s : State), (dieOf s.flash d).programs = p :: rest ∧ (dieOf s.flash d).failed = false ∧ (blockSetOf (dieOf s.flash d) p.set).state ≠ .retired ∧ Hours.total (dieOf s.flash d).retired24 < 63) ∧
    (∃ (fl : Flash) (p : Program) (st : Stripe), p.parity = false ∧ p.moot = false ∧ superseded fl p = false ∧ fl.stripes.find? (·.takes (putStream fl 0 none)) = some st) ∧
    (∃ (d b : Nat) (s : State), (dieOf s.flash d).failed = false ∧ d < 512 ∧ b < 828 ∧ (blockSetOf (dieOf s.flash d) b).state = .closed ∧ validIn s.flash d b = [] ∧ (dieOf s.flash d).programs.any (·.set == b) = false) ∧
    (∃ (d b : Nat) (s : State), (dieOf s.flash d).failed = false ∧ d < 512 ∧ b < 828 ∧ (blockSetOf (dieOf s.flash d) b).state = .closed ∧ validIn s.flash d b = [] ∧ (dieOf s.flash d).programs.any (·.set == b) = false ∧ Hours.total (dieOf s.flash d).retired24 < 63) ∧
    (∃ (d b : Nat) (s : State), validIn s.flash d b ≠ []) ∧
    (∃ (s : State), (eraseSpread s.flash).1 - (eraseSpread s.flash).2 ≤ 300) ∧
    (∃ (s : State), 300 < (eraseSpread s.flash).1 - (eraseSpread s.flash).2) ∧
    (∃ (d : Nat) (s : State), d < 512 ∧ (dieOf s.flash d).failed = false) ∧
    (∃ (d : Nat), 512 ≤ d) ∧
    (∃ (obj gran : Nat) (c : FlashClient) (fr : Frame) (x : Loc) (s : State), (objOf s obj).bind (fun y => (verOf y (clientVer s obj y c)).bind (fun v => frameOf y v gran)) = some fr ∧ fr.tier ≠ .near ∧ locOf s.flash obj fr.ver gran = some x ∧ readTurn s x c = false) ∧
    (∃ (obj gran : Nat) (o : Obj) (v : Version) (fr : Frame) (l : Loc) (s : State), objOf s obj = some o ∧ verOf o o.current = some v ∧ frameOf o v gran = some fr ∧ frameNamed s obj fr.ver gran = some fr ∧ fr.tier ≠ .near ∧ locOf s.flash obj fr.ver gran = some l) ∧
    (∃ (obj gran : Nat) (o : Obj) (v : Version) (fr : Frame) (l : Loc) (s : State), objOf s obj = some o ∧ verOf o o.current = some v ∧ frameOf o v gran = some fr ∧ frameNamed s obj fr.ver gran = some fr ∧ fr.tier ≠ .near ∧ fr.lost = false ∧ locOf s.flash obj fr.ver gran = some l ∧ (dieOf s.flash l.die).failed = false ∧ stripeShort s.flash l = false ∧ (blockSetOf (dieOf s.flash l.die) l.set).suspect = false) ∧
    (∃ (obj gran : Nat) (s : State), (∀ o v fr, objOf s obj = some o → verOf o o.current = some v → frameOf o v gran = some fr → fr.lost = false ∧ ∀ l, locOf s.flash obj fr.ver gran = some l → (dieOf s.flash l.die).failed = false)) ∧
    (∃ (obj gran f bar len : Nat) (w : ApRead) (o : Obj) (v : Version) (fr : Frame) (s : State), objOf s obj = some o ∧ apWaits s obj gran (.aperture f bar len) = some w ∧ clientVer s obj o (.aperture f bar len) = w.ver ∧ verOf o w.ver = some v ∧ frameOf o v gran = some fr ∧ frameNamed s obj fr.ver gran = some fr ∧ fr.tier = .near ∧ fr.lost = false) ∧
    (∃ (data : List (List Byte)) (parity : List Byte) (i n : Nat), i < data.length ∧ (∀ x ∈ data, x.length = n) ∧ parity = parityBytes n data) ∧
    (∃ (obj gran : Nat) (o : Obj) (v : Version) (fr : Frame) (s : State), objOf s obj = some o ∧ chanHolds s (channelOf s obj gran) = false ∧ s.space.moves.find? (fun m => m.obj == obj && m.gran == gran) = none ∧ verOf o o.current = some v ∧ frameOf o v gran = some fr ∧ frameNamed s obj fr.ver gran = some fr ∧ fr.tier ≠ .near ∧ fr.lost = false ∧ fr.full = false ∧ o.hint ≠ 2 ∧ nearRoom s obj gran = true) ∧
    (∃ (obj gran : Nat) (o : Obj) (v : Version) (fr : Frame) (fl : Flash) (s : State), objOf s obj = some o ∧ chanHolds s (channelOf s obj gran) = false ∧ s.space.moves.find? (fun m => m.obj == obj && m.gran == gran) = none ∧ verOf o o.current = some v ∧ frameOf o v gran = some fr ∧ frameNamed s obj fr.ver gran = some fr ∧ fr.tier = .near ∧ mayEvict s obj o fr = true ∧ heldNear s obj gran = false ∧ peatRoom s obj = true ∧ flashNow s.flash obj fr.ver gran = some fl) ∧
    (∃ (obj gran : Nat) (o : Obj) (v : Version) (fr : Frame) (s : State), objOf s obj = some o ∧ chanHolds s (channelOf s obj gran) = false ∧ s.space.moves.find? (fun m => m.obj == obj && m.gran == gran) = none ∧ verOf o o.current = some v ∧ frameOf o v gran = some fr ∧ fr.tier = .near ∧ fr.full = false ∧ mayEvict s obj o fr = false) ∧
    (∃ (obj gran : Nat) (s : State), chanHolds s (channelOf s obj gran) = true) :=
  ⟨
    ⟨511, program0, [], media, by decide +kernel⟩,
    ⟨511, { program0 with moot := true }, [], mediaWith [{ program0 with moot := true }], by decide +kernel⟩,
    ⟨511, { program0 with parity := true }, [], mediaWith [{ program0 with parity := true }], by decide +kernel⟩,
    ⟨511, program0, [], media, by decide +kernel⟩,
    ⟨{ stripes := [stripe0] }, program0, stripe0, by decide +kernel⟩,
    ⟨511, 827, media, by decide +kernel⟩,
    ⟨511, 827, media, by decide +kernel⟩,
    ⟨0, 0, peatNode, by decide +kernel⟩,
    ⟨media, by decide +kernel⟩,
    ⟨{ media with flash := { media.flash with dies := [(511, { sets := [(827, { erases := 301 })] })] } }, by decide +kernel⟩,
    ⟨511, media, by decide +kernel⟩,
    ⟨512, by decide +kernel⟩,
    ⟨1, 0, .command 1, peatFrame, ⟨1, 0, 0, 0, 0, 0, 0, 1⟩, { run (adm 0x103 []) [(1, peatObj)] with flash := { peatNode.flash with reads := [⟨.command 1, 1, 0, 0, some 9⟩] } }, by decide +kernel⟩,
    ⟨1, 0, peatObj, dataVer, peatFrame, ⟨1, 0, 0, 0, 0, 0, 0, 1⟩, peatNode, by decide +kernel⟩,
    ⟨1, 0, peatObj, dataVer, peatFrame, ⟨1, 0, 0, 0, 0, 0, 0, 1⟩, peatNode, by decide +kernel⟩,
    ⟨1, 0, peatNode, not_lost (o := peatObj) (v := dataVer) (fr := peatFrame) (by decide +kernel) (by decide +kernel) (by decide +kernel) rfl (fun l h => by cases h; decide +kernel)⟩,
    ⟨1, 0, 0, 4295032832, 8, ⟨0, 4295032832, 8, 1, 0, 0, 0⟩, dataObj, dataVer, nearFrame, { apNode dataObj with space := { objs := [(1, dataObj)], apReads := [⟨0, 4295032832, 8, 1, 0, 0, 0⟩] } }, by decide +kernel⟩,
    ⟨[[1], [2]], _, 1, 1, by decide +kernel, by decide +kernel, rfl⟩,
    ⟨1, 0, peatObj, dataVer, peatFrame, peatNode, by decide +kernel⟩,
    ⟨1, 0, dataObj, dataVer, nearFrame, _, apNode dataObj, by decide +kernel, by decide +kernel, by decide +kernel, by decide +kernel, by decide +kernel, by decide +kernel, by decide +kernel, by decide +kernel, by decide +kernel, by decide +kernel, now_eq (by decide +kernel)⟩,
    ⟨1, 0, { dataObj with hint := 3 }, dataVer, nearFrame, apNode { dataObj with hint := 3 }, by decide +kernel⟩,
    ⟨1, 0, { apNode dataObj with stk := { node.stk with chans := [(67, { state := .segment })] } }, by decide +kernel⟩⟩

/-- `Obligations.StartSequenceRuns`: its hypotheses can be met. -/
theorem met_StartSequenceRuns :
    (∃ (k : Nat) (failed : Bool) (bad : List Nat) (s : State), s.boot.starting = true ∧ s.boot.kindling = false ∧ 1 ≤ k ∧ k ≤ 9 ∧ (stageNeeds false k).all s.boot.stages.contains = true ∧ k ∉ s.boot.stages ∧ stageFails s k failed bad = false) ∧
    (∃ (s : State), (3 ≤ s.boot.failCount.toNat ∧ s.boot.strapCode ≠ 9 ∨ s.boot.strapShort = true ∨ s.boot.strapCode = 8)) ∧
    (∃ (s : State), (s.boot.failCount.toNat < 3 ∨ s.boot.strapCode = 9) ∧ s.boot.strapShort = false ∧ s.boot.strapCode ≠ 8) ∧
    (∃ (k : Nat) (failed : Bool) (bad : List Nat) (s : State), s.boot.starting = true ∧ s.boot.kindling = false ∧ k ≤ 9 ∧ k ≠ 0 ∧ (stageNeeds false k).all s.boot.stages.contains = true ∧ k ∉ s.boot.stages ∧ stageFails s k failed bad = true) ∧
    (∃ (s : State), s.boot.starting = true ∧ s.boot.kindling = false) ∧
    (∃ (s : State), s.boot.kindling = true) ∧
    (∃ (s : State), s.boot.starting = true ∧ s.boot.kindling = true ∧ 3 ∈ s.boot.stages) :=
  ⟨
    ⟨9, true, [], starting [1, 2, 3, 4, 5, 6, 7, 8], by decide +kernel⟩,
    ⟨{ off with boot := { off.boot with failCount := 3 } }, .inl (by decide +kernel)⟩,
    ⟨{ off with boot := { off.boot with failCount := 2 } }, .inl (by decide +kernel), by decide +kernel⟩,
    ⟨6, false, [15, 511], starting [1, 2, 3, 4, 5], by decide +kernel⟩,
    ⟨starting [], by decide +kernel⟩,
    ⟨{ starting [] with boot := { (starting []).boot with kindling := true } }, by decide +kernel⟩,
    ⟨{ starting [1, 3] with boot := { (starting [1, 3]).boot with kindling := true } }, by decide +kernel⟩⟩

/-- `Obligations.HealthPanelAndSnapshots`: its hypotheses can be met. -/
theorem met_HealthPanelAndSnapshots :
    (∃ (s : State), s.service.mode = .service ∧ s.boot.serviceReady = true ∧ s.service.panel = 1 ∧ s.service.pressPending = false) ∧
    (∃ (s : State), s.service.mode = .removal ∧ s.board.holdUp = false) ∧
    (∃ (s : State), s.service.mode = .banked ∧ s.service.pressPending = false) ∧
    (∃ (s : State), (s.service.mode = .enteringBanked ∨ s.service.mode = .leavingBanked)) ∧
    (∃ (s : State), s.service.mode = .safe ∧ s.board.tripLatch = false ∧ s.board.holdUp = false) ∧
    (∃ (s : State), (s.service.mode = .dormant ∨ s.service.mode = .enteringDormant)) ∧
    (∃ (s : State), s.service.mode ≠ .safe ∧ s.board.pwrGood = true) ∧
    (∃ (s : State), s.service.mode ≠ .safe ∧ s.board.pwrGood = false ∧ s.board.holdUp = false) ∧
    (∃ (s : State), s.service.mode = .safe) ∧
    (∃ (s : State), s.service.mode = .removal ∧ s.board.holdUp = false ∧ s.service.removalSince + 3000000000 < 2 ^ 64) ∧
    (∃ (src : Nat) (s : State), src ∈ s.service.snapDue ∧ s.service.frozen = false ∧ src < 255) ∧
    (∃ (src : Nat) (s : State), src ∈ s.service.snapDue ∧ s.service.frozen = true) ∧
    (∃ (s : State), s.service.frozen = true ∧ s.service.valid = false) :=
  ⟨
    ⟨node, by decide +kernel⟩,
    ⟨{ node with service := { node.service with mode := .removal } }, by decide +kernel⟩,
    ⟨{ node with service := { node.service with mode := .banked } }, by decide +kernel⟩,
    ⟨{ node with service := { node.service with mode := .leavingBanked } }, .inr (by decide +kernel)⟩,
    ⟨{ node with service := { node.service with mode := .safe } }, by decide +kernel⟩,
    ⟨{ node with service := { node.service with mode := .dormant } }, .inl (by decide +kernel)⟩,
    ⟨node, by decide +kernel⟩,
    ⟨off, by decide +kernel⟩,
    ⟨{ node with service := { node.service with mode := .safe } }, by decide +kernel⟩,
    ⟨{ node with service := { node.service with mode := .removal } }, by decide +kernel⟩,
    ⟨5, { node with service := { node.service with mode := .service, snapDue := [5] } }, by decide +kernel⟩,
    ⟨5, { node with service := { node.service with mode := .service, snapDue := [5], frozen := true } }, by decide +kernel⟩,
    ⟨{ node with service := { node.service with mode := .service, frozen := true } }, by decide +kernel⟩⟩

/-- `Obligations.SecurityCommandsRun`: its hypotheses can be met. -/
theorem met_SecurityCommandsRun :
    (∃ (cid k : Nat) (host : List Byte) (a : Adm) (s : State), running s cid 0x800 = some a ∧ s.sched.admitted.any commitRuns = false ∧ host.length = a.p 40 4 ∧ k = stageSlot s ∧ (slotMem s.boot k).wf) ∧
    (∃ (k : Nat) (s : State), s.boot.kindling = false ∧ runningSlot s.boot = some k) ∧
    (∃ (k : Nat) (s : State), s.boot.kindling = true ∧ s.boot.lastGood = some k ∧ k ≤ 1) ∧
    (∃ (cid : Nat) (a : Adm) (s : State), running s cid 0x800 = some a ∧ s.sched.admitted.any commitRuns = true) ∧
    (∃ (cid : Nat) (a : Adm) (s : State), running s cid 0x801 = some a ∧ a.p 32 4 ≤ slotLen s.boot (stageSlot s)) ∧
    (∃ (cid : Nat) (a : Adm) (r : Result) (s : State), findAdm s cid = some a ∧ a.cmd.opcode = 0x801 ∧ a.phase = .done r ∧ r.status = 0 ∧ programWaits s.flash cid = false ∧ a.switch = none) ∧
    (∃ (m : Mem) (minSvn : BitVec 32), m.nat 12 4 < minSvn.toNat) ∧
    (∃ (cid : Nat) (a : Adm) (s : State), running s cid 0x802 = some a ∧ (fnOf s a.cmd.fn).kek.bind (fun k => Config.keyUnwrap k (slice (a.cmd.packet.drop 40) 0 40)) = none) ∧
    (∃ (cid : Nat) (a : Adm) (s : State), running s cid 0x803 = some a ∧ (s.sched.admitted.any (fun b => b.cmd.fn == a.p 32 1 && b.cmd.cid != cid) = true ∨ s.prog.instances.any (fun e => e.2.fn == a.p 32 1) = true)) ∧
    (∃ (cid : Nat) (a : Adm) (s : State), running s cid 0x803 = some a ∧ s.sched.admitted.any (fun b => b.cmd.fn == a.p 32 1 && b.cmd.cid != cid) = false ∧ s.prog.instances.any (fun e => e.2.fn == a.p 32 1) = false ∧ a.p 33 1 = 1) ∧
    (∃ (f : Nat) (s t : State), sealFn s f = some t) ∧
    (∃ (cid : Nat) (a : Adm) (s : State), running s cid 0x803 = some a ∧ s.sched.admitted.any (fun b => b.cmd.fn == a.p 32 1 && b.cmd.cid != cid) = false ∧ s.prog.instances.any (fun e => e.2.fn == a.p 32 1) = false ∧ a.p 33 1 ≠ 1 ∧ (fnOf s (a.p 32 1)).isSealed = false) ∧
    (∃ (cid : Nat) (a : Adm) (u s : State), running s cid 0x803 = some a ∧ s.sched.admitted.any (fun b => b.cmd.fn == a.p 32 1 && b.cmd.cid != cid) = false ∧ s.prog.instances.any (fun e => e.2.fn == a.p 32 1) = false ∧ a.p 33 1 ≠ 1 ∧ (fnOf s (a.p 32 1)).isSealed = true ∧ u = setShaper (setFn s (a.p 32 1) { fnOf s (a.p 32 1) with isSealed := false, bolts := [], dedStacks := [], shaper := 0 }) (fnOf s (a.p 32 1)).shaper.toNat {}) ∧
    (∃ (cid : Nat) (a : Adm) (s : State), running s cid 0x804 = some a) :=
  ⟨
    ⟨1, _, [7], adm 2048 [(40, 4, 1), (44, 4, 33554431)], run (adm 2048 [(40, 4, 1), (44, 4, 33554431)]) [], by decide +kernel, by decide +kernel, by decide +kernel, rfl, by decide +kernel⟩,
    ⟨0, node, by decide +kernel⟩,
    ⟨1, { node with boot := { node.boot with kindling := true, lastGood := some 1 } }, by decide +kernel⟩,
    ⟨1, adm 0x800 [], { node with sched := { admitted := [adm 0x800 [], { adm 0x801 [] with cmd := { cmd 0x801 [] with cid := 2 } }] } }, by decide +kernel⟩,
    ⟨1, adm 2049 [(32, 4, 0)], run (adm 2049 [(32, 4, 0)]) [], by decide +kernel⟩,
    ⟨1, { adm 0x801 [] with phase := .done {} }, {}, run { adm 0x801 [] with phase := .done {} } [], by decide +kernel⟩,
    ⟨[], 1, by decide +kernel⟩,
    ⟨1, adm 2050 [], run (adm 2050 []) [], by decide +kernel⟩,
    ⟨1, adm 0x803 [], live (adm 0x803 []) inst0, by decide +kernel, .inr (by decide +kernel)⟩,
    ⟨1, adm 2051 [(33, 1, 1)], run (adm 2051 [(33, 1, 1)]) [], by decide +kernel⟩,
    ⟨0, node, _, madeState_eq (by decide +kernel)⟩,
    ⟨1, adm 2051 [], run (adm 2051 []) [], by decide +kernel⟩,
    ⟨1, adm 2051 [], _, updFn (run (adm 2051 []) []) 0 (fun x => { x with isSealed := true }), by decide +kernel, by decide +kernel, by decide +kernel, by decide +kernel, by decide +kernel, rfl⟩,
    ⟨1, adm 2052 [], run (adm 2052 []) [], by decide +kernel⟩⟩

/-- `Obligations.AlertFollowsStatus`: its hypotheses can be met. -/
theorem met_AlertFollowsStatus :
    (∃ (s t : State), step s = .next t) ∧
    (∃ (s : State), s.board.powered = true ∧ s.board.alertN = false) :=
  ⟨
    ⟨node, { node with time := node.time + 1 }, rfl⟩,
    ⟨{ node with board := { node.board with alertN := false } }, by decide +kernel⟩⟩

/-- `Obligations.SecurityCommandsRun`, clause 10: whether a wrapped key opens is a free value; given one that does, the rest is met. -/
theorem met_keyOpens (k key : BitVec 256)
    (h : Config.keyUnwrap k (slice ((adm 0x802 []).cmd.packet.drop 40) 0 40) = some key) :
    ∃ (cid : Nat) (a : Adm) (s : State), running s cid 0x802 = some a ∧
      (fnOf s a.cmd.fn).kek.bind (fun k => Config.keyUnwrap k (slice (a.cmd.packet.drop 40) 0 40)) = some key :=
  ⟨1, adm 0x802 [], updFn (run (adm 0x802 []) []) 0 (fun x => { x with kek := some k }), rfl, h⟩

end Sys2Proof.Tests
end

section
/-! PROOFS. O1 and O6: what one step does with the queue, and what a device reset from the rails' side leaves. The start of the
rails and each row that begins a reset have an equation of their own here. -/

namespace Sys2Proof.Laws
open Sys2Proof Sys2Proof.Machine Sys2Proof.Safety

/-! ### One count of node time -/

/-- A map whose values are changed in place is read as the change of what was there. -/
theorem get?_mapValues {α β : Type} (m : AMap α) (g : α → β) (i : Nat) :
    AMap.get? (m.map (fun e => (e.1, g e.2))) i = (AMap.get? m i).map g := by
  induction m with
  | nil => rfl
  | cons e m ih =>
    by_cases h : e.1 = i
    · simp [AMap.get?, h]
    · simpa [AMap.get?, h] using ih

theorem tickChan_of_not_entry {c : Chan} (h : c.state ≠ .entry) : tickChan c = c := by simp [tickChan, h]

theorem tick_of_powered {s : State} (h : s.board.powered = true) :
    tick s = { s with
      time := s.time + 1
      stk := { s.stk with chans := s.stk.chans.map (fun e => (e.1, tickChan e.2)) }
      looms := { s.looms with looms := s.looms.looms.map (fun e => (e.1, advanceLoom e.2)) } } := by
  simp [tick, h]

theorem tick_of_unpowered {s : State} (h : s.board.powered = false) : tick s = s := by simp [tick, h]

theorem tick_time (s : State) : (tick s).time = if s.board.powered = true then s.time + 1 else s.time := by
  by_cases h : s.board.powered = true
  · rw [tick_of_powered h, if_pos h]
  · rw [tick_of_unpowered (Bool.not_eq_true _ ▸ h), if_neg h]

/-- A tick changes node time, channels and looms alone. -/
theorem tick_frame (s : State) :
    tick s = { s with
      time := (tick s).time
      stk := { s.stk with chans := (tick s).stk.chans }
      looms := { s.looms with looms := (tick s).looms.looms } } := by
  unfold tick
  split <;> rfl

/-- A channel that is not in the entry of a segment is the same after a tick (R209). -/
theorem tick_keeps_chan {s : State} {c : Nat} {ch : Chan} (hc : AMap.get? s.stk.chans c = some ch)
    (hne : ch.state ≠ .entry) : AMap.get? (tick s).stk.chans c = some ch := by
  by_cases h : s.board.powered = true
  · rw [tick_of_powered h, get?_mapValues, hc, Option.map_some, tickChan_of_not_entry hne]
  · rwa [tick_of_unpowered (Bool.not_eq_true _ ▸ h)]

theorem step_cons {s : State} {c : Instr} {rest : List Instr} (h : s.pending = c :: rest) :
    step s = exec c { s with pending := rest } := by
  simp [step, h]

theorem step_nil {s : State} (h : s.pending = []) : step s = .next (tick s) := by simp [step, h]

/-- Settles O1: the front command by `step_cons`, the empty queue by the tick's frame. -/
theorem stepRunsFrontCommand : Obligations.StepRunsFrontCommand :=
  ⟨fun _ _ _ h => step_cons h,
   fun s h => ⟨tick s, step_nil h, tick_time s, tick_frame s, fun _ _ hc hne => tick_keeps_chan hc hne⟩⟩

/-! ### The strap and what a device reset leaves -/

/-- A measurement of the strap changes the strap's figures alone (R57, R479). -/
theorem measureStrap_frame (b : Boot) (conv : List Nat) :
    measureStrap b conv = { b with
      strapRaw := BitVec.ofNat 10 (median conv), strapCode := (measureStrap b conv).strapCode
      strapShort := (measureStrap b conv).strapShort, strapOpen := (measureStrap b conv).strapOpen
      strapRsvd := (measureStrap b conv).strapRsvd, strapOwed := false } := rfl

@[simp] theorem measureStrap_strapRaw (b : Boot) (conv : List Nat) :
    (measureStrap b conv).strapRaw = BitVec.ofNat 10 (median conv) := rfl

theorem measureOwed_of_owed {b : Boot} (h : b.strapOwed = true) (conv : List Nat) :
    measureOwed b conv = measureStrap b conv := by
  simp [measureOwed, h]

theorem resetLeaves_deviceReset (s : State) (cause : Nat) : resetLeaves s (deviceReset s cause) cause := by
  simp [resetLeaves, deviceReset, lose, bootKept]

/-- What a device reset leaves does not speak of the board or of the service controller. -/
theorem resetLeaves_setBoard {s t : State} {cause : Nat} (h : resetLeaves s t cause) (b : Board) (v : Service) :
    resetLeaves s { t with board := b, service := v } cause := h

/-- Nor does it speak of the strap. -/
theorem resetLeaves_measureStrap {s t : State} {cause : Nat} (h : resetLeaves s t cause) (conv : List Nat) :
    resetLeaves s { t with boot := measureStrap t.boot conv } cause := by
  rw [measureStrap_frame]
  exact h

/-! ### The start of the main rails -/

theorem whenPowered_next {s : State} (h : s.board.powered = true) (t : State) : whenPowered s t = .next t := by
  simp [whenPowered, h]

/-- The main rails may start where nothing holds them and the node is neither Dormant nor safe to remove. -/
theorem mayStartRails_iff (s : State) :
    mayStartRails s = true ↔ railsFree s.board ∧ s.service.mode ≠ .dormant ∧ s.service.mode ≠ .safe := by
  have hcool : (!(s.board.coolWait && decide (coolX16 ≤ s.board.hotX16))) = true ↔
      (s.board.coolWait = true → s.board.hotX16 < 1440) := by
    cases s.board.coolWait
    · simp
    · simp [show coolX16 = 1440 from rfl]
  simp only [mayStartRails, railsFree, Bool.and_eq_true, hcool]
  simp [and_assoc]

theorem startIfReady_of_free {s : State} (hf : railsFree s.board) (hd : s.service.mode ≠ .dormant)
    (hs : s.service.mode ≠ .safe) : startIfReady s = startRails s := by
  rw [startIfReady, if_pos ((mayStartRails_iff s).2 ⟨hf, hd, hs⟩)]

/-- Without input the rails do not restart. -/
theorem restartIfReady_of_absent {s : State} (h : s.board.band = .absent) (conv : List Nat) :
    restartIfReady s conv = s := by
  simp [restartIfReady, mayStartRails, h]

/-- A start that owes no device reset changes the board and the service controller alone. -/
theorem startRails_of_none_owed {s : State} (h : s.board.restart = 0) :
    startRails s = railsOn { s with
      board := { s.board with restart := 0, restored := false }
      service := { s.service with mode := .service, panel := 0 } } := by
  simp [startRails, h]

/-- A restart is the device reset it owes, with the first rail on (R63, R66, R477). -/
theorem startRails_of_owed {s : State} (h : s.board.restart ≠ 0) :
    startRails s = railsOn { deviceReset s s.board.restart with
      board := { (deviceReset s s.board.restart).board with restart := 0, restored := false }
      service := { (deviceReset s s.board.restart).service with mode := .service, panel := 0 } } := by
  simp [startRails, h]

theorem resetLeaves_startRails {s : State} (h : s.board.restart ≠ 0) : resetLeaves s (startRails s) s.board.restart := by
  rw [startRails_of_owed h]
  exact resetLeaves_setBoard (resetLeaves_deviceReset s _) _ _

/-! The start of the rails, with the reset it may owe, keeps the pins and latches of the always-on domain, and the snapshot
store (R478, R523). -/

@[simp] theorem startRails_rails (s : State) : (startRails s).board.rails = 1 := rfl
@[simp] theorem startRails_holdUp (s : State) : (startRails s).board.holdUp = false := rfl
@[simp] theorem startRails_status (s : State) : (startRails s).board.status = s.board.status := by
  unfold startRails; split <;> rfl
@[simp] theorem startRails_perstLow (s : State) : (startRails s).board.perstLow = s.board.perstLow := by
  unfold startRails; split <;> rfl
@[simp] theorem startRails_tripLatch (s : State) : (startRails s).board.tripLatch = s.board.tripLatch := by
  unfold startRails; split <;> rfl
@[simp] theorem startRails_thermTripN (s : State) : (startRails s).board.thermTripN = s.board.thermTripN := by
  unfold startRails; split <;> rfl
@[simp] theorem startRails_cyclePending (s : State) : (startRails s).board.cyclePending = s.board.cyclePending := by
  unfold startRails; split <;> rfl
@[simp] theorem startRails_store (s : State) : (startRails s).service.store = s.service.store := by
  unfold startRails; split <;> rfl

/-- A row that restarts the rails and measures the strap, where nothing holds them, is the restart with the strap that its
device reset owes (R57). -/
theorem restartIfReady_of_free {s : State} (hf : railsFree s.board) (hd : s.service.mode ≠ .dormant)
    (hs : s.service.mode ≠ .safe) (h : s.board.restart ≠ 0) (conv : List Nat) :
    restartIfReady s conv = { startRails s with boot := measureStrap (startRails s).boot conv } := by
  have howed : (startRails s).boot.strapOwed = true := by
    rw [startRails_of_owed h]
    rfl
  rw [restartIfReady, if_pos ((mayStartRails_iff s).2 ⟨hf, hd, hs⟩), ← measureOwed_of_owed howed]

/-! ### The rows that begin a device reset -/

theorem exec_powerOnReset {s : State}
    (h : s.board.powered = true → s.board.band = .absent ∧ s.board.rails = 0 ∧ s.board.holdUp = false)
    (conv : List Nat) (vstby : Bool) :
    exec (.powerOnReset conv vstby) s = .next { deviceReset s 1 with
      board := { ({} : Board) with
        stby := vstby, perstLow := s.board.perstLow, plateX16 := s.board.plateX16, hotX16 := s.board.hotX16 }
      boot := measureStrap (deviceReset s 1).boot conv
      service := {} } := by
  have hno : (s.board.powered && (s.board.band != .absent || s.board.rails != 0 || s.board.holdUp)) = false := by
    simpa [and_assoc] using h
  simp only [exec, execPowerOnReset, hno]
  rfl

/-- The row of a pin reset with the always-on domain up, by hold-up, Dormant and reset release (R56, R66, R472). -/
theorem exec_pinReset {s : State} (hp : s.board.powered = true) (conv : List Nat) :
    exec (.pinReset conv) s = .next (
      if s.board.holdUp then { s with board := { s.board with heldPerst := true } }
      else if s.service.mode = .dormant then startIfReady (pinReset s conv)
      else if s.boot.released then pinReset { s with flash := holdUp s.flash } conv
      else { s with board := { s.board with perstLow := true } }) :=
  whenPowered_next hp _

theorem resetLeaves_pinReset (s : State) (conv : List Nat) : resetLeaves s (pinReset s conv) 2 :=
  resetLeaves_measureStrap (resetLeaves_setBoard (resetLeaves_deviceReset s 2) _ (deviceReset s 2).service) conv

/-- From Dormant a pin reset is the device reset of cause 2 and the start of the rails, which owes no second one (R472). -/
theorem exec_pinReset_dormant {s : State} (hf : railsFree s.board) (hd : s.service.mode = .dormant) (conv : List Nat) :
    exec (.pinReset conv) s = .next (railsOn { pinReset s conv with
      board := { (pinReset s conv).board with restart := 0, restored := false }
      service := { (pinReset s conv).service with mode := .service, panel := 0 } }) := by
  have ⟨hp, _, _, _, _, _, _, hh, _⟩ := hf
  have hstart : startIfReady (pinReset s conv) = startRails (pinReset s conv) :=
    startIfReady_of_free (s := pinReset s conv) hf NodeMode.noConfusion NodeMode.noConfusion
  rw [exec_pinReset hp, hstart, startRails_of_none_owed rfl]
  simp [hh, hd]

/-- The state once a hold-up has ended with `VAON` kept and no POWER_CYCLE held: the rails off, a restart of cause 3 owed, a
PERST_N level and a return of VIN that came meanwhile in effect (R66). -/
def holdUpOver (vin : Bool) (s : State) : State :=
  { railsOff s with board := { (railsOff s).board with
      heldPerst := false, heldVin := false, heldCycle := false, perstLow := s.board.perstLow || s.board.heldPerst
      cyclePending := false, restart := 3
      band := if (vin || s.board.heldVin) && s.board.band == .absent then .normal else s.board.band } }

theorem exec_holdUpEnd {s : State} (hp : s.board.powered = true) (hh : s.board.holdUp = true)
    (hc : s.board.heldCycle = false) (hm : s.service.mode ≠ .removal) (vin : Bool) (conv : List Nat) :
    exec (.holdUpEnd true vin conv) s = .next (restartIfReady (holdUpOver vin s) conv) := by
  have hover : execHoldUpEnd true vin conv s = whenPowered s (restartIfReady (holdUpOver vin s) conv) := by
    simp only [execHoldUpEnd, hh, hc, hm, holdUpOver]
    simp [railsOff, lose]
  exact hover.trans (whenPowered_next hp _)

/-- What a reset leaves of the state after a hold-up, it leaves of the state before. -/
theorem resetLeaves_of_holdUpOver {s t : State} {vin : Bool} {cause : Nat} (h : resetLeaves (holdUpOver vin s) t cause) :
    resetLeaves s t cause := h

theorem exec_holdUpEnd_lost {s : State} (hp : s.board.powered = true) (hh : s.board.holdUp = true) (vin : Bool)
    (conv : List Nat) : exec (.holdUpEnd false vin conv) s = .next (powerLost s) := by
  have hlost : execHoldUpEnd false vin conv s = whenPowered s (powerLost s) := by simp [execHoldUpEnd, hh]
  exact hlost.trans (whenPowered_next hp _)

/-- The state whose thermal latch has released, with every sensor's reading at most this (R70). -/
def tripReleased (hot : Int) (s : State) : State :=
  { s with board := { s.board with tripLatch := false, thermTripN := true, restored := false, hotX16 := hot } }

theorem exec_tripLatchRelease {s : State} {hot : Int} (hp : s.board.powered = true) (hl : s.board.tripLatch = true)
    (hr : s.board.restored = true) (hhot : hot < 1440) :
    exec (.tripLatchRelease hot) s = .next (startIfReady (tripReleased hot s)) := by
  have hgo : (s.board.tripLatch && s.board.restored && decide (hot < coolX16)) = true := by
    rw [hl, hr]
    exact decide_eq_true hhot
  simp only [exec, execTripLatchRelease, hgo, if_true]
  exact whenPowered_next hp _

/-- The state whose second after POWER_CYCLE has passed (R72). -/
def cycleOver (s : State) : State := { s with board := { s.board with cyclePending := false } }

theorem exec_powerCycleRestart {s : State} (hp : s.board.powered = true) (hc : s.board.cyclePending = true)
    (conv : List Nat) : exec (.powerCycleRestart conv) s = .next (restartIfReady (cycleOver s) conv) := by
  simp only [exec, execPowerCycleRestart, hc, if_true]
  exact whenPowered_next hp _

/-! ### What a device reset leaves, row by row -/

theorem powerOnReset_leaves (conv : List Nat) (vstby : Bool) (s : State)
    (h : s.board.powered = true → s.board.band = .absent ∧ s.board.rails = 0 ∧ s.board.holdUp = false) :
    ∃ t, exec (.powerOnReset conv vstby) s = .next t ∧ resetLeaves s t 1 ∧ t.board.powered = true ∧ t.board.stby = vstby ∧
      t.board.status = 0 ∧ t.service = {} ∧ t.board.rails = 0 ∧ t.boot.strapRaw = BitVec.ofNat 10 (median conv) :=
  ⟨_, exec_powerOnReset h conv vstby,
    resetLeaves_measureStrap (resetLeaves_setBoard (resetLeaves_deviceReset s 1) _ _) conv, rfl, rfl, rfl, rfl, rfl,
    measureStrap_strapRaw _ conv⟩

theorem pinReset_leaves (conv : List Nat) (s : State) (hp : s.board.powered = true) (hh : s.board.holdUp = false)
    (hd : s.service.mode ≠ .dormant) (hr : s.boot.released = true) :
    ∃ t, exec (.pinReset conv) s = .next t ∧ resetLeaves s t 2 ∧ t.service.store = s.service.store ∧
      t.board.perstLow = true ∧ t.board.alertN = true ∧ t.board.rails = s.board.rails ∧ t.board.pwrGood = s.board.pwrGood ∧
      t.board.status = s.board.status ∧ t.boot.strapRaw = BitVec.ofNat 10 (median conv) := by
  have he : exec (.pinReset conv) s = .next (pinReset { s with flash := holdUp s.flash } conv) := by
    rw [exec_pinReset hp]
    simp [hh, hd, hr]
  exact ⟨_, he, resetLeaves_pinReset { s with flash := holdUp s.flash } conv, rfl, rfl, rfl, rfl, rfl, rfl,
    measureStrap_strapRaw _ conv⟩

theorem pinReset_dormant_leaves (conv : List Nat) (s : State) (hf : railsFree s.board) (hd : s.service.mode = .dormant) :
    ∃ t, exec (.pinReset conv) s = .next t ∧ resetLeaves s t 2 ∧ t.board.rails = 1 ∧ t.service.mode = .service :=
  ⟨_, exec_pinReset_dormant hf hd conv, resetLeaves_setBoard (resetLeaves_pinReset s conv) _ _, rfl, rfl⟩

theorem pinReset_before_release (conv : List Nat) (s : State) (hp : s.board.powered = true) (hh : s.board.holdUp = false)
    (hd : s.service.mode ≠ .dormant) (hr : s.boot.released = false) :
    exec (.pinReset conv) s = .next { s with board := { s.board with perstLow := true } } := by
  rw [exec_pinReset hp]
  simp [hh, hd, hr]

theorem pinReset_in_holdUp (conv : List Nat) (s : State) (hp : s.board.powered = true) (hh : s.board.holdUp = true) :
    exec (.pinReset conv) s = .next { s with board := { s.board with heldPerst := true } } := by
  rw [exec_pinReset hp, if_pos hh]

theorem holdUpEnd_leaves (vin : Bool) (conv : List Nat) (s : State) (hh : s.board.holdUp = true)
    (hc : s.board.heldCycle = false) (hm : s.service.mode ≠ .removal)
    (hf : railsFree { s.board with
      holdUp := false, rails := 0, cyclePending := false,
      band := if (vin || s.board.heldVin) && s.board.band == .absent then .normal else s.board.band }) :
    ∃ t, exec (.holdUpEnd true vin conv) s = .next t ∧ resetLeaves s t 3 ∧ t.service.store = s.service.store ∧
      t.board.holdUp = false ∧ t.board.rails = 1 ∧ t.board.status = s.board.status ∧
      t.board.perstLow = (s.board.perstLow || s.board.heldPerst) ∧ t.boot.strapRaw = BitVec.ofNat 10 (median conv) := by
  have howed : (holdUpOver vin s).board.restart ≠ 0 := by simp [holdUpOver]
  have hstart := restartIfReady_of_free (s := holdUpOver vin s) hf NodeMode.noConfusion NodeMode.noConfusion howed conv
  have he := exec_holdUpEnd hf.1 hh hc hm vin conv
  rw [hstart] at he
  exact ⟨_, he, resetLeaves_of_holdUpOver (resetLeaves_measureStrap (resetLeaves_startRails howed) conv),
    startRails_store _, startRails_holdUp _, startRails_rails _, startRails_status _, startRails_perstLow _,
    measureStrap_strapRaw _ conv⟩

theorem holdUpEnd_without_input (conv : List Nat) (s : State) (hp : s.board.powered = true) (hh : s.board.holdUp = true)
    (hc : s.board.heldCycle = false) (hv : s.board.heldVin = false) (hb : s.board.band = .absent)
    (hm : s.service.mode ≠ .removal) :
    ∃ t, exec (.holdUpEnd true false conv) s = .next t ∧ t.board.holdUp = false ∧ t.board.rails = 0 ∧ t.board.restart = 3 ∧
      t.board.status = s.board.status ∧ t.service.store = s.service.store ∧ t.sched = {} ∧ t.space = {} := by
  have habsent : (holdUpOver false s).board.band = .absent := by simp [holdUpOver, hv, hb]
  have he := exec_holdUpEnd hp hh hc hm false conv
  rw [restartIfReady_of_absent habsent] at he
  exact ⟨_, he, rfl, rfl, rfl, rfl, rfl, rfl, rfl⟩

theorem holdUpEnd_lost_leaves (vin : Bool) (conv : List Nat) (s : State) (hp : s.board.powered = true)
    (hh : s.board.holdUp = true) :
    ∃ t, exec (.holdUpEnd false vin conv) s = .next t ∧ t.board.powered = false ∧ t.board.rails = 0 ∧ t.board.status = 0 ∧
      t.service = {} :=
  ⟨_, exec_holdUpEnd_lost hp hh vin conv, rfl, rfl, rfl, rfl⟩

theorem tripLatchRelease_leaves (hot : Int) (s : State) (hl : s.board.tripLatch = true) (hr : s.board.restored = true)
    (hhot : hot < 1440) (h : s.board.restart ≠ 0) (hf : railsFree { s.board with tripLatch := false, hotX16 := hot })
    (hd : s.service.mode ≠ .dormant) (hs : s.service.mode ≠ .safe) :
    ∃ t, exec (.tripLatchRelease hot) s = .next t ∧ resetLeaves s t s.board.restart ∧ t.board.tripLatch = false ∧
      t.board.thermTripN = true ∧ t.board.rails = 1 ∧ t.board.status = s.board.status := by
  have howed : (tripReleased hot s).board.restart ≠ 0 := h
  have he := exec_tripLatchRelease hf.1 hl hr hhot
  rw [startIfReady_of_free (s := tripReleased hot s) hf hd hs] at he
  exact ⟨_, he, resetLeaves_startRails howed, startRails_tripLatch _, startRails_thermTripN _,
    startRails_rails _, startRails_status _⟩

theorem powerCycleRestart_leaves (conv : List Nat) (s : State) (hc : s.board.cyclePending = true)
    (h : s.board.restart ≠ 0) (hf : railsFree { s.board with cyclePending := false })
    (hd : s.service.mode ≠ .dormant) (hs : s.service.mode ≠ .safe) :
    ∃ t, exec (.powerCycleRestart conv) s = .next t ∧ resetLeaves s t s.board.restart ∧ t.board.cyclePending = false ∧
      t.board.rails = 1 ∧ t.board.status = s.board.status ∧ t.boot.strapRaw = BitVec.ofNat 10 (median conv) := by
  have howed : (cycleOver s).board.restart ≠ 0 := h
  have he := exec_powerCycleRestart hf.1 hc conv
  rw [restartIfReady_of_free (s := cycleOver s) hf hd hs howed] at he
  exact ⟨_, he, resetLeaves_measureStrap (resetLeaves_startRails howed) conv, startRails_cyclePending _,
    startRails_rails _, startRails_status _, measureStrap_strapRaw _ conv⟩

/-- Settles O6, row by row. -/
theorem deviceResetsBegin : Obligations.DeviceResetsBegin :=
  ⟨powerOnReset_leaves, pinReset_leaves, pinReset_dormant_leaves, pinReset_before_release, pinReset_in_holdUp,
    holdUpEnd_leaves, holdUpEnd_without_input, holdUpEnd_lost_leaves, tripLatchRelease_leaves, powerCycleRestart_leaves⟩

end Sys2Proof.Laws
end

section
/-! PROOFS. O46: the rows of the draught controller. The two folds of the rows, the lowest of the readings and the shares of an
interval's energy, have a lemma each. -/

namespace Sys2Proof.Laws
open Sys2Proof Sys2Proof.Machine Sys2Proof.Safety

/-! ### The monitors' readings -/

/-- What lies at or below the lowest of readings is what lies at or below each of them. -/
theorem le_foldl_min_iff (b a : Nat) (rs : List Nat) : b ≤ rs.foldl min a ↔ b ≤ a ∧ ∀ r ∈ rs, b ≤ r := by
  induction rs generalizing a with
  | nil => simp
  | cons r rs ih => simp [ih, and_assoc]

theorem foldl_min_eq_of_least {rs : List Nat} {low : Nat} (hmem : low ∈ rs) (hle : ∀ r ∈ rs, low ≤ r) :
    rs.foldl min (rs.headD 0) = low := by
  have hhead : rs.headD 0 ∈ rs := by
    cases rs with
    | nil => cases hmem
    | cons r rs => exact List.mem_cons_self
  exact le_antisymm (((le_foldl_min_iff _ _ rs).1 le_rfl).2 low hmem) ((le_foldl_min_iff _ _ rs).2 ⟨hle _ hhead, hle⟩)

/-- A map that gives each of some keys its value is read at one of them. -/
theorem get?_map_key {α : Type} (g : Nat → α) {ks : List Nat} {i : Nat} (h : i ∈ ks) :
    AMap.get? (ks.map (fun k => (k, g k))) i = some (g i) := by
  induction ks with
  | nil => cases h
  | cons k ks ih =>
    by_cases hk : k = i
    · simp [AMap.get?, hk]
    · have hi : i ∈ ks := (List.mem_cons.1 h).resolve_left (fun e => hk e.symm)
      simpa [AMap.get?, hk] using ih hi

/-- A bolt's rate: the lowest reading of its eight looms and its reed (R25). -/
def boltLow (rs : List Nat) (b : Nat) : Nat :=
  ((List.range 8).map (fun i => rs.getD (8 * b + i) 0)).foldl min (rs.getD (128 + b) 0)

theorem boltLow_le (rs : List Nat) (b : Nat) :
    (∀ i, i < 8 → boltLow rs b ≤ rs.getD (8 * b + i) 0) ∧ boltLow rs b ≤ rs.getD (128 + b) 0 := by
  obtain ⟨hreed, hlooms⟩ := (le_foldl_min_iff (boltLow rs b) _ _).1 le_rfl
  exact ⟨fun i hi => hlooms _ (List.mem_map.2 ⟨i, List.mem_range.2 hi, rfl⟩), hreed⟩

theorem monitorSample_sets_rates (rs : List Nat) (s : State) :
    ∃ t, exec (.monitorSample rs) s = .next t ∧ t.looms.monitors = rs ∧
      (∀ b i, b < 16 → i < 8 → AMap.getD t.looms.boltRate b 0 ≤ rs.getD (8 * b + i) 0 ∧
        AMap.getD t.looms.boltRate b 0 ≤ rs.getD (128 + b) 0) ∧
      t = { recur s .monitors with looms := t.looms } := by
  refine ⟨_, rfl, rfl, fun b i hb hi => ?_, rfl⟩
  have hrate : AMap.getD ((List.range 16).map (fun b => (b, boltLow rs b))) b 0 = boltLow rs b := by
    rw [AMap.getD, get?_map_key _ (List.mem_range.2 hb), Option.getD_some]
  obtain ⟨hlooms, hreed⟩ := boltLow_le rs b
  exact ⟨hrate.trans_le (hlooms i hi), hrate.trans_le hreed⟩

/-! ### The loom supply -/

/-- One step of the loom supply from `v` toward `goal`, of at most 5 mV (R458). -/
def supplyStep (v goal : Nat) : Nat := if v < goal then min goal (v + 5) else max goal (v - 5)

/-- The setting that the supply moves to, within V_FLOOR and 0.900 V (R458). -/
def supplyGoal (d : Draught) : Nat := max d.vFloorMv.toNat (min 900 d.vloomTarget)

theorem exec_vloomStep {s : State} (h : inBanked s = false) :
    exec .vloomStep s = .next { recur s .supply with draught := { s.draught with
      vloomMv := BitVec.ofNat 16 (supplyStep s.draught.vloomMv.toNat (supplyGoal s.draught)) } } := by
  change execVloomStep s = _
  rw [execVloomStep, if_neg (by simp [h])]
  rfl

theorem exec_vloomStep_banked {s : State} (h : inBanked s = true) : exec .vloomStep s = .next s := if_pos h

theorem supplyStep_near (v goal : Nat) : supplyStep v goal ≤ v + 5 ∧ v ≤ supplyStep v goal + 5 := by
  unfold supplyStep
  split <;> omega

theorem supplyStep_within {v goal lo hi : Nat} (hv : lo ≤ v ∧ v ≤ hi) (hg : lo ≤ goal ∧ goal ≤ hi) :
    lo ≤ supplyStep v goal ∧ supplyStep v goal ≤ hi := by
  unfold supplyStep
  split <;> omega

theorem vloomStep_moves_at_most_5mV (s : State) (hb : inBanked s = false) (hv : s.draught.vloomMv.toNat < 65000) :
    ∃ t, exec .vloomStep s = .next t ∧
      t.draught.vloomMv.toNat ≤ s.draught.vloomMv.toNat + 5 ∧ s.draught.vloomMv.toNat ≤ t.draught.vloomMv.toNat + 5 ∧
      (s.draught.vFloorMv.toNat ≤ 900 → s.draught.vFloorMv.toNat ≤ s.draught.vloomMv.toNat →
        s.draught.vloomMv.toNat ≤ 900 →
        s.draught.vFloorMv.toNat ≤ t.draught.vloomMv.toNat ∧ t.draught.vloomMv.toNat ≤ 900) ∧
      t = { recur s .supply with draught := t.draught } := by
  refine ⟨_, exec_vloomStep hb, ?_⟩
  obtain ⟨hup, hdown⟩ := supplyStep_near s.draught.vloomMv.toNat (supplyGoal s.draught)
  have hfits : (BitVec.ofNat 16 (supplyStep s.draught.vloomMv.toNat (supplyGoal s.draught))).toNat =
      supplyStep s.draught.vloomMv.toNat (supplyGoal s.draught) := by
    rw [BitVec.toNat_ofNat, Nat.mod_eq_of_lt (by omega)]
  simp only [hfits]
  refine ⟨hup, hdown, fun hfloor hlo hhi => supplyStep_within ⟨hlo, hhi⟩ ?_, trivial⟩
  unfold supplyGoal
  omega

/-! ### The energy of an interval -/

/-- What an interval's energy gives to the functions (R467). -/
def energyParts (acts : AMap Nat) (nj : Nat) : List (Nat × Nat) :=
  let total := acts.foldl (fun n e => n + e.2) 0
  if total = 0 then [(0, nj)] else apportion total nj 0 acts

theorem energyParts_nil (nj : Nat) : energyParts [] nj = [(0, nj)] := rfl

theorem energyParts_single {f pj : Nat} (h : pj ≠ 0) (nj : Nat) : energyParts [(f, pj)] nj = [(f, nj)] := by
  simp [energyParts, apportion, h]

/-- A function's energy raised. -/
def addEnergy (nj : Nat) (x : FnState) : FnState := { x with energyNj := x.energyNj + nj }

/-- The node's account after an interval: what does not make a whole microjoule is kept for the next. -/
def accountEnergy (d : Draught) (nj : Nat) : Draught :=
  { d with
    activityPj := [], energyUj := d.energyUj + BitVec.ofNat 64 ((d.energyRestNj + nj) / 1000)
    energyRestNj := (d.energyRestNj + nj) % 1000 }

/-- The state after an interval whose energy is given in these parts. -/
def afterInterval (nj : Nat) (parts : List (Nat × Nat)) (s : State) : State :=
  let t := parts.foldl (fun s e => updFn s e.1 (addEnergy e.2)) (recur s .energy)
  { t with draught := accountEnergy t.draught nj }

theorem exec_energyInterval (nj : Nat) (s : State) :
    exec (.energyInterval nj) s = .next (afterInterval nj (energyParts s.draught.activityPj nj) s) := rfl

/-- An interval whose energy goes to one function: no other function's record changes. -/
theorem energyInterval_to_one {f nj : Nat} {s : State} (h : energyParts s.draught.activityPj nj = [(f, nj)]) :
    ∃ t, exec (.energyInterval nj) s = .next t ∧ (fnOf t f).energyNj = (fnOf s f).energyNj + nj ∧
      (∀ g, g ≠ f → fnOf t g = fnOf s g) ∧ t.draught = accountEnergy s.draught nj ∧
      t.sched.admitted = s.sched.admitted := by
  refine ⟨afterInterval nj [(f, nj)] s, by rw [exec_energyInterval, h], ?_, fun g hg => ?_, rfl, rfl⟩
  · exact congrArg FnState.energyNj (fnOf_updFn_same (recur s .energy) f (addEnergy nj))
  · exact fnOf_updFn_other (recur s .energy) f g (addEnergy nj) hg.symm

theorem energyInterval_idle (nj : Nat) (s : State) (h : s.draught.activityPj = []) :
    ∃ t, exec (.energyInterval nj) s = .next t ∧ (fnOf t 0).energyNj = (fnOf s 0).energyNj + nj ∧
      (∀ f, f ≠ 0 → fnOf t f = fnOf s f) ∧
      t.draught.energyUj = s.draught.energyUj + BitVec.ofNat 64 ((s.draught.energyRestNj + nj) / 1000) ∧
      t.sched.admitted = s.sched.admitted := by
  obtain ⟨t, hexec, hgot, hkept, hdraught, hadm⟩ := energyInterval_to_one (by rw [h]; exact energyParts_nil nj)
  exact ⟨t, hexec, hgot, hkept, by rw [hdraught]; rfl, hadm⟩

theorem energyInterval_one_active (f pj nj : Nat) (s : State) (h : s.draught.activityPj = [(f, pj)]) (hpj : pj ≠ 0) :
    ∃ t, exec (.energyInterval nj) s = .next t ∧ (fnOf t f).energyNj = (fnOf s f).energyNj + nj ∧
      (∀ g, g ≠ f → fnOf t g = fnOf s g) ∧ t.draught.activityPj = [] := by
  obtain ⟨t, hexec, hgot, hkept, hdraught, -⟩ := energyInterval_to_one (by rw [h]; exact energyParts_single hpj nj)
  exact ⟨t, hexec, hgot, hkept, by rw [hdraught]; rfl⟩

/-! ### Ageing -/

theorem ageingHour_takes_lowest (rs : List Nat) (low : Nat) (s : State) (hmem : low ∈ rs) (hle : ∀ r ∈ rs, low ≤ r)
    (hlt : low < 65536) :
    ∃ t, exec (.ageingHour rs) s = .next t ∧ t.draught.hours = satAdd s.draught.hours 1 ∧ t.draught.ageMin.toNat = low ∧
      (t.draught.ageWarn = true ↔ 100 * low < 93 * 32768) ∧ t.fns = s.fns ∧ t.space = s.space := by
  have hlow := foldl_min_eq_of_least hmem hle
  refine ⟨_, rfl, rfl, ?_, ?_, rfl, rfl⟩
  · simp only [hlow, BitVec.toNat_ofNat, Nat.mod_eq_of_lt hlt]
  · simp only [hlow, decide_eq_true_iff]

theorem planDue_of_start_or_hours {s : State}
    (h : s.boot.starting = true ∨ s.draught.planHours + 720 ≤ s.draught.hours.toNat) : planDue s = true := by
  rcases h with hs | hh
  · simp [planDue, hs]
  · simp [planDue, hh]

theorem exec_marginReplan {s : State} (h : planDue s = true) (mv : Nat) :
    exec (.marginReplan mv) s = .next { s with draught := { s.draught with
      planPending := some mv, agePlanned := s.draught.ageMin.toNat, planHours := s.draught.hours.toNat } } :=
  if_neg (by simp [h])

/-! ### Heat -/

@[simp] theorem noteTemp_fns (s : State) (l : ThermLevel) (x : Int) : (noteTemp s l x).fns = s.fns := by cases l <;> rfl
@[simp] theorem noteTemp_sched (s : State) (l : ThermLevel) (x : Int) : (noteTemp s l x).sched = s.sched := by
  cases l <;> rfl
@[simp] theorem noteTemp_draught (s : State) (l : ThermLevel) (x : Int) : (noteTemp s l x).draught = s.draught := by
  cases l <;> rfl

/-- A cause of a snapshot is only noted: the service controller alone changes (R522). -/
theorem causeSnap_kept (s : State) (i : Nat) : causeSnap s i = { s with service := (causeSnap s i).service } := by
  unfold causeSnap
  split <;> rfl

/-- The state in which a level of heat is in force and its reading noted (R460). -/
def levelEntered (l : ThermLevel) (x : Int) (s : State) : State :=
  let t := noteTemp s l x
  { t with draught := { t.draught with levels := t.draught.levels ++ [l] } }

/-- The supply at thermal level 2 asks for the lowest setting (R460). -/
def coolest (s : State) : State := { s with draught := { s.draught with vloomTarget := max 650 s.draught.vFloorMv.toNat } }

theorem exec_thermalLevelEntry {l : ThermLevel} {x : Int} {s : State} (hx : entryPoint l ≤ x) (hl : l ∉ s.draught.levels) :
    exec (.thermalLevelEntry l x) s =
      if l = .die2 then .next (causeSnap (coolest (levelEntered l x s)) 4) else .next (levelEntered l x s) :=
  if_neg (by simp [hx, hl])

theorem thermalLevelEntry_sets_level (l : ThermLevel) (x : Int) (s : State) (hx : entryPoint l ≤ x)
    (hl : l ∉ s.draught.levels) :
    ∃ t, exec (.thermalLevelEntry l x) s = .next t ∧ t.draught.levels = s.draught.levels ++ [l] ∧ t.fns = s.fns ∧
      t.sched = s.sched ∧ (l = .die2 → t.draught.vloomTarget = max 650 s.draught.vFloorMv.toNat) := by
  rw [exec_thermalLevelEntry hx hl]
  by_cases hd : l = .die2
  · rw [if_pos hd, causeSnap_kept]
    exact ⟨_, rfl, by simp [coolest, levelEntered], by simp [coolest, levelEntered], by simp [coolest, levelEntered],
      fun _ => by simp [coolest, levelEntered]⟩
  · rw [if_neg hd]
    exact ⟨_, rfl, by simp [levelEntered], by simp [levelEntered], by simp [levelEntered], fun h => absurd h hd⟩

theorem exec_thermalLevelExit {l : ThermLevel} {x : Int} {s : State} (hx : x ≤ entryPoint l - 80) (hl : l ∈ s.draught.levels) :
    exec (.thermalLevelExit l x) s = .next { noteTemp s l x with
      draught := { (noteTemp s l x).draught with levels := (noteTemp s l x).draught.levels.filter (· != l) } } :=
  if_neg (by simp [hx, hl])

theorem thermalLevelExit_clears_level (l : ThermLevel) (x : Int) (s : State) (hx : x ≤ entryPoint l - 80)
    (hl : l ∈ s.draught.levels) :
    ∃ t, exec (.thermalLevelExit l x) s = .next t ∧ l ∉ t.draught.levels ∧
      (∀ k, k ≠ l → (k ∈ t.draught.levels ↔ k ∈ s.draught.levels)) ∧ t.fns = s.fns ∧ t.sched = s.sched :=
  ⟨_, exec_thermalLevelExit hx hl, by simp, fun k hk => by simp [hk], by simp, by simp⟩

theorem exec_junctionCapStep (s : State) :
    exec .junctionCapStep s = .next { recur s .junction with draught := { s.draught with
      junctionCap := if .die2 ∈ s.draught.levels then s.draught.junctionCap
        else if .die1 ∈ s.draught.levels then max 1200 (s.draught.junctionCap - 100)
        else min 2400 (s.draught.junctionCap + 50) } } := by
  change execJunctionCapStep s = _
  simp only [execJunctionCapStep, recur_draught, List.contains_iff_mem]

/-! ### Pacing -/

theorem paceStep_cuts (s : State) (hp : s.draught.pace = true)
    (hslack : ∀ g ∈ s.draught.paceGroups, now (recur s .pace) < g.last + 1000000 → s.draught.paceMinUs.toNat < g.slack) :
    exec .paceStep s =
      .next { recur s .pace with draught := { s.draught with paceCut := min 20 (s.draught.paceCut + 2) } } := by
  have hall : (s.draught.paceGroups.filter (fun g => decide (now (recur s .pace) < g.last + 1000000))).all
      (fun g => decide (s.draught.paceMinUs.toNat < g.slack)) = true := by
    simp only [List.all_eq_true, List.mem_filter, decide_eq_true_iff]
    exact fun g hg => hslack g hg.1 hg.2
  exact if_pos ((Bool.and_eq_true _ _).mpr ⟨hp, hall⟩)

/-- Settles O46, row by row. -/
theorem draughtFollowsTheReadings : Obligations.DraughtFollowsTheReadings :=
  ⟨monitorSample_sets_rates, fun _ _ => rfl, fun _ => exec_vloomStep_banked, vloomStep_moves_at_most_5mV, energyInterval_idle,
    energyInterval_one_active, ageingHour_takes_lowest,
    fun mv _ h => ⟨_, exec_marginReplan (planDue_of_start_or_hours h) mv, rfl, rfl, rfl, rfl, rfl⟩,
    thermalLevelEntry_sets_level, thermalLevelExit_clears_level, exec_junctionCapStep, paceStep_cuts⟩

end Sys2Proof.Laws
end

section
/-! PROOFS. O43 does not hold: a pick that streams rows of a list makes their granules the ones last used (R163), and the
statement lets the close of a window change no part of the object space but the record of streamed granules. -/

namespace Sys2Proof.Laws
open Sys2Proof Sys2Proof.Machine Sys2Proof.Safety

/-- A list index of dimension 32 whose one list holds one row, at byte 256 of its only granule (R307, R312). -/
def oneRowIndex : Obj :=
  { fn := 0, kind := .listIndex 32 false 1, base := 1073741824, span := 1, current := 1, tip := 1, next := 2
    versions := [⟨1, 4096, [(4, 3), (8, 32), (12, 1), (64, 128), (128, 1), (136, 1), (145, 1)], 1, []⟩]
    frames := [⟨1, 0, .near, false, false, []⟩] }

/-- A window on that list with the one member that it needs. -/
def oneMemberWindow : Window := ⟨1, 1, 0, 0, 0, 100, 150, 200, 1, [1]⟩

/-- A node with that index and that window, and no granule used yet. -/
def windowOpen : State :=
  { State.reset with space := { objs := [(1, oneRowIndex)] }, looms := { windows := [oneMemberWindow] } }

/-- The granules last used after a step. -/
def recentAfter (o : Out) : List (Nat × Nat × Nat) :=
  match o with
  | .next t => t.space.recent
  | _ => []

/-- The close's pick reads the list's row, so that its granule is the one last used. -/
theorem recentAfter_pickWindowClose : recentAfter (exec (.pickWindowClose 1 1 0 0) windowOpen) = [(1, 1, 0)] := by
  decide +kernel

/-- Refutes O43: the window's pick on loom 0 uses granule 0 of the index, which enters `recent`. -/
theorem not_picksAndMerges : ¬ Obligations.PicksAndMerges := by
  rintro ⟨hclose, -⟩
  obtain ⟨t, hexec, -, -, -, -, -, -, -, hspace⟩ := hclose 1 1 0 0 0 oneMemberWindow windowOpen (by decide +kernel)
    (by decide) (by decide) (.inl (by decide)) (by decide +kernel)
  have hused : t.space.recent = [(1, 1, 0)] := by
    have hafter := recentAfter_pickWindowClose
    rwa [hexec] at hafter
  have hkept : t.space.recent = [] := congrArg Space.recent hspace
  exact List.cons_ne_nil _ _ (hused.symm.trans hkept)

end Sys2Proof.Laws
end

section
/-! PROOFS. O21: how commands and versions end their wait. First what the release of superseded versions and a switch keep, then
what the end of a command owes the host, then the rows. -/

namespace Sys2Proof.Laws
open Sys2Proof Sys2Proof.Machine Sys2Proof.Safety

/-! ### Superseded versions -/

/-- An object that is there is changed in place. -/
theorem updObj_of_some {s : State} {oid : Nat} {o : Obj} (h : objOf s oid = some o) (g : Obj → Obj) :
    updObj s oid g = putObj s oid (g o) := by
  simp [updObj, h]

/-- A change of an object touches the object space alone. -/
theorem updObj_changes (s : State) (oid : Nat) (g : Obj → Obj) : ∃ space, updObj s oid g = { s with space := space } := by
  unfold updObj
  split <;> exact ⟨_, rfl⟩

/-- An object with the versions that are kept, their frames and their ranges (R40). -/
def trimmed (s : State) (oid : Nat) (o : Obj) : Obj :=
  let vs := o.versions.filter (keepVersion s oid o)
  { o with
    versions := vs, frames := o.frames.filter (liveFrame { o with versions := vs })
    former := o.former.filter (fun r => vs.any (fun v => decide (v.num ≤ r.2.2))) }

/-- The frames that no kept version uses (R40). -/
def goneFrames (s : State) (oid : Nat) (o : Obj) : List Frame :=
  o.frames.filter (fun fr => !liveFrame { o with versions := o.versions.filter (keepVersion s oid o) } fr)

/-- Nothing of a frame is left in the map, the moves and the granules used. -/
def forgetFrames (s : State) (oid : Nat) (gone : List Frame) : State :=
  { s with
    flash := gone.foldl (fun fl fr => unmap fl oid fr.ver fr.gran) s.flash
    space := { s.space with
      moves := s.space.moves.filter (fun m => !(m.obj == oid && gone.any (fun fr => fr.ver == m.ver && fr.gran == m.gran)))
      recent := s.space.recent.filter (fun x => !(x.1 == oid && gone.any (fun fr => fr.ver == x.2.1 && fr.gran == x.2.2)))
      streamed := s.space.streamed.filter (fun x => !(x.1 == oid && gone.any (fun fr => fr.ver == x.2.1 && fr.gran == x.2.2))) } }

/-- The object trimmed, before its hint is reviewed. -/
def swept (s : State) (oid : Nat) (o : Obj) : State :=
  forgetFrames (putObj s oid (trimmed s oid o)) oid (goneFrames s oid o)

theorem objOf_swept_same (s : State) (oid : Nat) (o : Obj) : objOf (swept s oid o) oid = some (trimmed s oid o) :=
  objOf_putObj_same s oid _

theorem objOf_swept_other (s : State) {oid x : Nat} (o : Obj) (h : x ≠ oid) : objOf (swept s oid o) x = objOf s x :=
  objOf_putObj_other s oid x _ h.symm

/-- An object not destroyed is trimmed; where frames went, its hint is reviewed (R40, R163). -/
theorem freeVersions_live {s : State} {oid : Nat} {o : Obj} (ho : objOf s oid = some o) (hd : o.destroyed = false) :
    freeVersions s oid = if (goneFrames s oid o).isEmpty then swept s oid o else reviewHint (swept s oid o) oid := by
  unfold freeVersions
  rw [ho]
  exact if_neg (by simp [hd])

/-- The release of superseded versions touches the object space and the flash alone (R40). -/
theorem freeVersions_changes (s : State) (oid : Nat) :
    ∃ space flash, freeVersions s oid = { s with space := space, flash := flash } := by
  unfold freeVersions
  split
  · exact ⟨_, _, rfl⟩
  · next o ho =>
    have hswept : ∃ space flash, reviewHint (swept s oid o) oid = { s with space := space, flash := flash } := by
      obtain ⟨space, h⟩ := updObj_changes (swept s oid o) oid
        (fun x => { x with overridden := rehint x (swept s oid o).space.moves oid })
      exact ⟨space, _, h⟩
    dsimp only
    split
    · exact ⟨_, _, rfl⟩
    · split
      · exact ⟨_, _, rfl⟩
      · exact hswept

/-- Of an object not destroyed the current version stays current, and it and the later ones stay. -/
theorem freeVersions_keeps {s : State} {oid : Nat} {o : Obj} (ho : objOf s oid = some o) (hd : o.destroyed = false) :
    ∃ o', objOf (freeVersions s oid) oid = some o' ∧ o'.current = o.current ∧
      ∀ n, o.current ≤ n → verOf o' n = verOf o n := by
  have hver : ∀ n, o.current ≤ n → verOf (trimmed s oid o) n = verOf o n := by
    intro n hn
    have hkeep : ∀ v : Version, decide (keepVersion s oid o v = true ∧ (v.num == n) = true) = (v.num == n) := by
      intro v
      by_cases hv : v.num = n
      · subst hv
        simp [keepVersion, hd, hn]
      · simp [hv]
    simp only [verOf, trimmed, List.find?_filter, hkeep]
  rw [freeVersions_live ho hd]
  split
  · exact ⟨_, objOf_swept_same s oid o, rfl, hver⟩
  · rw [reviewHint, updObj_of_some (objOf_swept_same s oid o)]
    exact ⟨_, objOf_putObj_same _ _ _, rfl, hver⟩

theorem freeVersions_other {s : State} {oid x : Nat} {o : Obj} (ho : objOf s oid = some o) (hd : o.destroyed = false)
    (hx : x ≠ oid) : objOf (freeVersions s oid) x = objOf s x := by
  rw [freeVersions_live ho hd]
  split
  · exact objOf_swept_other s o hx
  · rw [reviewHint, updObj_of_some (objOf_swept_same s oid o), objOf_putObj_other _ _ _ _ hx.symm]
    exact objOf_swept_other s o hx

/-- A review of every object touches the object space and the flash alone. -/
theorem freeAll_changes (s : State) : ∃ space flash, freeAll s = { s with space := space, flash := flash } := by
  have hfold : ∀ (objs : AMap Obj) (s : State), ∃ space flash,
      objs.foldl (fun s e => freeVersions s e.1) s = { s with space := space, flash := flash } := by
    intro objs
    induction objs with
    | nil => exact fun s => ⟨_, _, rfl⟩
    | cons e objs ih =>
      intro s
      obtain ⟨space, flash, hfree⟩ := freeVersions_changes s e.1
      obtain ⟨space', flash', hrest⟩ := ih (freeVersions s e.1)
      exact ⟨space', flash', by rw [List.foldl_cons, hrest, hfree]⟩
  exact hfold s.space.objs s

/-! ### The switch of a version -/

/-- The object whose version has become current, with its range (R154). -/
def withCurrent (s : State) (oid : Nat) (o : Obj) (v : Version) (ver : Nat) : Obj :=
  let n := granules v.size
  let o := { o with current := ver }
  if rangeFree (assigned s o.fn oid) (o.base / granule) (n + 1) then { o with span := n }
  else { o with
    base := granule * lowestRange s o.fn (2 ^ 33) n, span := n, former := o.former ++ [(o.base, o.span, ver - 1)] }

theorem withCurrent_keeps (s : State) (oid : Nat) (o : Obj) (v : Version) (ver : Nat) :
    (withCurrent s oid o v ver).current = ver ∧ (withCurrent s oid o v ver).versions = o.versions ∧
      (withCurrent s oid o v ver).destroyed = o.destroyed := by
  unfold withCurrent
  dsimp only
  split <;> exact ⟨rfl, rfl, rfl⟩

theorem switchTo_later {s : State} {oid n : Nat} {o : Obj} {v : Version} (ho : objOf s oid = some o)
    (hd : o.destroyed = false) (hv : verOf o n = some v) (hn : o.current < n) :
    switchTo s oid n = freeVersions (putObj s oid (withCurrent s oid o v n)) oid := by
  have hgo : (o.destroyed || decide (n ≤ o.current)) = false := by simp [hd, hn]
  simp only [switchTo, ho, hv]
  exact if_neg (by simpa using hgo)

/-- A later version of an object not destroyed becomes current, with its bytes as they were (R39, R40). -/
theorem switchTo_makes_current {s : State} {oid n : Nat} {o : Obj} {v : Version} (ho : objOf s oid = some o)
    (hd : o.destroyed = false) (hv : verOf o n = some v) (hn : o.current < n) :
    (∃ o', objOf (switchTo s oid n) oid = some o' ∧ o'.current = n ∧ verOf o' n = some v) ∧
      (∀ x, x ≠ oid → objOf (switchTo s oid n) x = objOf s x) ∧
      ∃ space flash, switchTo s oid n = { s with space := space, flash := flash } := by
  obtain ⟨hcur, hvers, hdes⟩ := withCurrent_keeps s oid o v n
  have hput := objOf_putObj_same s oid (withCurrent s oid o v n)
  have hlive : (withCurrent s oid o v n).destroyed = false := hdes.trans hd
  rw [switchTo_later ho hd hv hn]
  refine ⟨?_, fun x hx => ?_, ?_⟩
  · obtain ⟨o', ho', hcur', hver'⟩ := freeVersions_keeps hput hlive
    refine ⟨o', ho', hcur'.trans hcur, ?_⟩
    rw [hver' n hcur.le, verOf, hvers]
    exact hv
  · rw [freeVersions_other hput hlive hx]
    exact objOf_putObj_other _ _ _ _ hx.symm
  · obtain ⟨space, flash, h⟩ := freeVersions_changes (putObj s oid (withCurrent s oid o v n)) oid
    exact ⟨space, flash, h⟩

/-! ### The switch of a build -/

theorem forgetMutations_changes (s : State) (oid : Nat) : ∃ space, forgetMutations s oid = { s with space := space } := by
  unfold forgetMutations
  split
  · exact ⟨_, rfl⟩
  · exact updObj_changes _ _ _

theorem forgetMutations_current {s : State} {oid : Nat} {o : Obj} (h : objOf s oid = some o) :
    ∃ o', objOf (forgetMutations s oid) oid = some o' ∧ o'.current = o.current := by
  unfold forgetMutations
  split
  · exact ⟨o, h, rfl⟩
  · rw [updObj_of_some h]
    exact ⟨_, objOf_putObj_same _ _ _, rfl⟩

theorem newTable_changes (s : State) (o : Obj) : ∃ fabric, newTable s o = { s with fabric := fabric } := by
  unfold newTable
  split <;> exact ⟨_, rfl⟩

/-- Where no mutation came after a build, it is folded in as it was built and needs no more room (R140). -/
theorem reapplied_without_mutations {o : Obj} (h : o.mutations = []) (b : Building) :
    reapplied o b = some { mem := b.bytes, size := b.size } := by
  simp [reapplied, h, applyMutations]

theorem placeReapplied_unchanged (s : State) (oid : Nat) (o : Obj) (b : Building) :
    placeReapplied s oid o b { mem := b.bytes, size := b.size } = some s := by
  have hgrown : (List.range (granules b.size)).filter (fun g => decide (granules b.size ≤ g)) = [] := by
    simp [List.filter_eq_nil_iff]
  simp only [placeReapplied, hgrown]
  rfl

/-- An object without a build that has become a version. -/
def withoutBuild (b : Building) (o : Obj) : Obj := { o with building := o.building.filter (fun x => x.cid != b.cid) }

/-- A build under its number, the newest version of its object and not yet current (R139). -/
def numbered (s : State) (oid : Nat) (o : Obj) (b : Building) : State :=
  updObj (numberBuild (newTable (putObj s oid (withoutBuild b o)) o) oid (buildTag b.cid) (withVersion o b.bytes o.next)
    b.size).1 oid (fun x => { x with tip := o.next })

/-- The result of a build's command: the number made, and the version that the command pinned (R115, R139). -/
def builtResult (s : State) (oid n cid : Nat) : Result :=
  { version := BitVec.ofNat 32 ((findAdm s cid).elim 0 (fun a => pinnedVer a oid)), value := BitVec.ofNat 32 n }

theorem objOf_newTable_putObj (s : State) (oid : Nat) (o x : Obj) : objOf (newTable (putObj s oid x) o) oid = some x := by
  obtain ⟨fabric, htable⟩ := newTable_changes (putObj s oid x) o
  rw [htable]
  exact objOf_putObj_same s oid x

theorem numberBuild_number {s : State} {oid : Nat} {o : Obj} (h : objOf s oid = some o) (tag : Nat) (m : Mem) (size : Nat) :
    (numberBuild s oid tag m size).2 = o.next := by
  simp only [numberBuild, h]

/-- A numbered build stands behind the versions there, and the current version is as before. -/
theorem numberBuild_adds {s : State} {oid : Nat} {o : Obj} (h : objOf s oid = some o) (tag : Nat) (m : Mem) (size : Nat) :
    ∃ o', objOf (numberBuild s oid tag m size).1 oid = some o' ∧ o'.current = o.current ∧ o'.destroyed = o.destroyed ∧
      o'.versions = o.versions ++ [{ num := o.next, size := size, bytes := m, origin := o.next }] := by
  simp only [numberBuild, h]
  exact ⟨_, objOf_putObj_same _ _ _, rfl, rfl, rfl⟩

theorem numberBuild_sched (s : State) (oid tag : Nat) (m : Mem) (size : Nat) :
    (numberBuild s oid tag m size).1.sched = s.sched := by
  unfold numberBuild
  split <;> rfl

theorem numbered_sched (s : State) (oid : Nat) (o : Obj) (b : Building) : (numbered s oid o b).sched = s.sched := by
  obtain ⟨fabric, htable⟩ := newTable_changes (putObj s oid (withoutBuild b o)) o
  obtain ⟨space, htip⟩ := updObj_changes (numberBuild (newTable (putObj s oid (withoutBuild b o)) o) oid (buildTag b.cid)
    (withVersion o b.bytes o.next) b.size).1 oid (fun x => { x with tip := o.next })
  rw [numbered, htip, htable]
  exact numberBuild_sched _ _ _ _ _

/-- The numbered build is found under its number, and the current version is as before. -/
theorem numbered_adds (s : State) (oid : Nat) (o : Obj) (b : Building) :
    ∃ o' v, objOf (numbered s oid o b) oid = some o' ∧ o'.current = o.current ∧ o'.destroyed = o.destroyed ∧
      verOf o' o.next = some v := by
  obtain ⟨o', ho', hcur, hdes, hvers⟩ := numberBuild_adds (objOf_newTable_putObj s oid o (withoutBuild b o)) (buildTag b.cid)
    (withVersion o b.bytes o.next) b.size
  have hnext : (withoutBuild b o).next = o.next := rfl
  have hfound : (verOf o' o.next).isSome = true := by simp [verOf, hvers, hnext]
  obtain ⟨v, hv⟩ := Option.isSome_iff_exists.1 hfound
  rw [numbered, updObj_of_some ho']
  exact ⟨_, v, objOf_putObj_same _ _ _, hcur, hdes, hv⟩

/-- A build under its number that has become current, its command ended (R39, R140). -/
def built (s : State) (oid : Nat) (o : Obj) (b : Building) : State :=
  finish (switchTo (numbered s oid o b) oid o.next) b.cid (builtResult (numbered s oid o b) oid o.next b.cid)

/-- The switch of a build that no mutation followed: it is numbered, becomes current, and its command ends (R139, R140). -/
theorem switchBuild_without_mutations {s : State} {oid : Nat} {o : Obj} {b : Building} (ho : objOf s oid = some o)
    (hm : o.mutations = []) (hn : o.next < 0xFFFFFFFF) :
    switchBuild s oid o b = forgetMutations (built s oid o b) oid := by
  have hroom : ¬ 0xFFFFFFFF ≤ o.next := by omega
  have hbuilt : updObj s oid (fun o => { o with building := o.building.filter (fun x => x.cid != b.cid) }) =
      putObj s oid (withoutBuild b o) := updObj_of_some ho _
  simp only [switchBuild, hbuilt, reapplied_without_mutations hm, Option.bind_some, if_neg hroom,
    placeReapplied_unchanged, Option.map_some, numberBuild_number (objOf_newTable_putObj s oid o (withoutBuild b o))]
  rfl

/-- The row of a build that may switch under its number. -/
theorem exec_versionSwitch_build {s : State} {oid : Nat} {o : Obj} {b : Building} (ho : objOf s oid = some o)
    (hb : nextBuild s oid o = some b) : exec (.versionSwitch oid o.next) s = .next (switchBuild s oid o b) := by
  have hnext : (nextBuild s oid o).filter (fun _ => o.next == o.next) = some b := by simp [hb, Option.filter]
  simp only [exec, execVersionSwitch, ho, hnext]

/-- The row of a version that a command whose work has ended owes. -/
theorem exec_versionSwitch_owed {s : State} {oid n : Nat} {o : Obj} (ho : objOf s oid = some o)
    (hb : nextBuild s oid o = none)
    (howed : s.sched.admitted.any (fun a => a.isDone && a.switch == some n && a.switchObj == oid) = true) :
    exec (.versionSwitch oid n) s = .next (switchTo s oid n) := by
  simp only [exec, execVersionSwitch, ho, hb, Option.filter_none]
  exact if_pos howed

theorem owed_version_becomes_current (oid n : Nat) (o : Obj) (v : Version) (s : State) (ho : objOf s oid = some o)
    (hd : o.destroyed = false) (hb : nextBuild s oid o = none) (hv : verOf o n = some v) (hn : o.current < n)
    (howed : s.sched.admitted.any (fun a => a.isDone && a.switch == some n && a.switchObj == oid) = true) :
    ∃ t o', exec (.versionSwitch oid n) s = .next t ∧ objOf t oid = some o' ∧ o'.current = n ∧ verOf o' n = some v ∧
      otherObjectsKept s t oid ∧ t.fns = s.fns ∧ t.sched = s.sched := by
  obtain ⟨⟨o', ho', hcur, hver⟩, hother, space, flash, hrest⟩ := switchTo_makes_current ho hd hv hn
  exact ⟨_, o', exec_versionSwitch_owed ho hb howed, ho', hcur, hver, fun x hx => by rw [hother x hx], by rw [hrest],
    by rw [hrest]⟩

theorem build_becomes_current (oid : Nat) (o : Obj) (b : Building) (a : Adm) (s : State) (ho : objOf s oid = some o)
    (hd : o.destroyed = false) (hb : nextBuild s oid o = some b) (hm : o.mutations = []) (hn : o.next < 0xFFFFFFFF)
    (hcur : o.current < o.next) (ha : findAdm s b.cid = some a) :
    ∃ t o', exec (.versionSwitch oid o.next) s = .next t ∧ objOf t oid = some o' ∧ o'.current = o.next ∧
      doneWith t b.cid (fun r => r.status = stOk ∧ r.value = BitVec.ofNat 32 o.next ∧
        r.version = BitVec.ofNat 32 (pinnedVer a oid)) := by
  obtain ⟨x, v, hx, hxcur, hxdes, hxver⟩ := numbered_adds s oid o b
  obtain ⟨⟨y, hy, hycur, -⟩, -, space, flash, hswitch⟩ :=
    switchTo_makes_current hx (hxdes.trans hd) hxver (hxcur.trans_lt hcur)
  have hadm : findAdm (numbered s oid o b) b.cid = some a := by rw [findAdm, numbered_sched]; exact ha
  have hdone : doneWith (built s oid o b) b.cid (· = builtResult (numbered s oid o b) oid o.next b.cid) :=
    doneWith_finish (by rw [hswitch]; exact hadm)
  obtain ⟨o', ho', hcur'⟩ := forgetMutations_current (s := built s oid o b) hy
  obtain ⟨space', hforget⟩ := forgetMutations_changes (built s oid o b) oid
  refine ⟨_, o', ?_, ho', hcur'.trans hycur, ?_⟩
  · rw [exec_versionSwitch_build ho hb, switchBuild_without_mutations ho hm hn]
  · obtain ⟨c, r, hc, hphase, hr⟩ := hdone
    rw [hforget]
    refine ⟨c, r, hc, hphase, ?_⟩
    rw [hr, builtResult, hadm]
    exact ⟨rfl, rfl, rfl⟩

/-! ### What the end of a command owes the host -/

/-- An end with INTERNAL may note a cause of a snapshot (R522); counters of the reeds move (R334, R386). -/
theorem endCommand_replies (s : State) (c : Cmd) (r : Result) :
    ∃ reeds service, endCommand s c r = replyTo { s with reeds := reeds, service := service } c r := by
  unfold endCommand
  dsimp only
  split
  · rw [causeSnap_kept]
    exact ⟨_, _, rfl⟩
  · exact ⟨_, _, rfl⟩

/-- The result data of a host's command leaves at once (R89). -/
def sendData (s : State) (c : Cmd) (r : Result) : State :=
  if r.data.isEmpty then s
  else chargePcie (emit s (.dma c.fn c.resultAddr r.data (fnOf s c.fn).cfg.relaxed)) c.fn r.data.length

/-- What the data of a reply sends to the host. -/
def dataSent (s : State) (c : Cmd) (r : Result) : List Emission :=
  if r.data = [] then [] else [.dma c.fn c.resultAddr r.data (fnOf s c.fn).cfg.relaxed]

theorem sendData_changes (s : State) (c : Cmd) (r : Result) :
    ∃ draught link, sendData s c r = { s with draught := draught, link := link, sent := s.sent ++ dataSent s c r } := by
  unfold sendData dataSent
  by_cases h : r.data = []
  · simp only [h, List.isEmpty_nil, if_true, List.append_nil]
    exact ⟨_, _, rfl⟩
  · rw [if_neg (by simpa using h), if_neg h]
    exact ⟨_, _, rfl⟩

/-- The record that a host's command is owed (R115). -/
def owedRecord (s : State) (c : Cmd) (k : Nat) (r : Result) : Waiting :=
  ⟨c.cid, k, c.cookie, c.irqNow, c.fence, elapsed s c, r⟩

/-- A function with one more record owed. -/
def withRecord (w : Waiting) (x : FnState) : FnState := { x with waiting := x.waiting ++ [w] }

theorem replyTo_host {c : Cmd} {k : Nat} (h : c.origin = .host k) (s : State) (r : Result) :
    replyTo s c r = updFn (sendData s c r) c.fn (withRecord (owedRecord (sendData s c r) c k r)) := by
  simp only [replyTo, h]
  rfl

/-- The end of a host's command: its data leaves, its record is owed, and neither time, pool nor objects change. -/
theorem endCommand_host {c : Cmd} {k : Nat} (h : c.origin = .host k) (s : State) (r : Result) :
    (∃ e, fnOf (endCommand s c r) c.fn = withRecord ⟨c.cid, k, c.cookie, c.irqNow, c.fence, e, r⟩ (fnOf s c.fn)) ∧
      (endCommand s c r).sent = s.sent ++ dataSent s c r ∧ (endCommand s c r).time = s.time ∧
      (endCommand s c r).sched = s.sched ∧ (endCommand s c r).space = s.space := by
  obtain ⟨reeds, service, hend⟩ := endCommand_replies s c r
  obtain ⟨draught, link, hsend⟩ := sendData_changes { s with reeds := reeds, service := service } c r
  rw [hend, replyTo_host h, hsend]
  exact ⟨⟨_, fnOf_updFn_same _ _ _⟩, rfl, rfl, rfl, rfl⟩

theorem advanceTo_toNat {d : Nat} (h : d < 2 ^ 64) (s : State) : (advanceTo s d).time.toNat = max s.time.toNat d := by
  have ht := s.time.isLt
  rw [advanceTo, BitVec.toNat_ofNat, Nat.mod_eq_of_lt (by omega)]

/-! ### Deadlines -/

/-- A function whose queues hold a command no more. -/
def dequeued (cid : Nat) (x : FnState) : FnState :=
  { x with hostQ := x.hostQ.filter (fun y => y.cid != cid), fabQ := x.fabQ.filter (fun y => y.cid != cid) }

/-- A waiting command without an earlier outcome ends with DEADLINE (R438). -/
theorem exec_queuedDeadline {cid d : Nat} {c : Cmd} {s : State}
    (hfound : s.fns.findSome? (fun e => (e.2.hostQ ++ e.2.fabQ).find? (fun c => c.cid == cid)) = some c)
    (hd : c.deadline = some d) (hsteps : stepsOneTwo s c (featuresFor s c.fn c.origin) = none) :
    exec (.queuedDeadline cid) s =
      .next (endCommand (updFn (advanceTo s d) c.fn (dequeued cid)) c (.bare stDeadline)) := by
  have hearly : stepsOneTwo (advanceTo s d) c (featuresFor (advanceTo s d) c.fn c.origin) = none := hsteps
  simp only [exec, execQueuedDeadline, hfound, hd, hearly, Option.getD_none]
  rfl

theorem waiting_command_meets_deadline (cid d k : Nat) (c : Cmd) (s : State)
    (hfound : s.fns.findSome? (fun e => (e.2.hostQ ++ e.2.fabQ).find? (fun c => c.cid == cid)) = some c)
    (hd : c.deadline = some d) (hlt : d < 2 ^ 64) (hk : c.origin = .host k)
    (hsteps : stepsOneTwo s c (featuresFor s c.fn c.origin) = none) :
    ∃ t e, exec (.queuedDeadline cid) s = .next t ∧
      (fnOf t c.fn).waiting = (fnOf s c.fn).waiting ++ [⟨c.cid, k, c.cookie, c.irqNow, c.fence, e, .bare stDeadline⟩] ∧
      (fnOf t c.fn).hostQ = (fnOf s c.fn).hostQ.filter (fun y => y.cid != cid) ∧
      t.time.toNat = max s.time.toNat d ∧ t.sched = s.sched ∧ t.space = s.space ∧ t.sent = s.sent := by
  obtain ⟨⟨e, hfn⟩, hsent, htime, hsched, hspace⟩ :=
    endCommand_host hk (updFn (advanceTo s d) c.fn (dequeued cid)) (.bare stDeadline)
  rw [fnOf_updFn_same] at hfn
  refine ⟨_, e, exec_queuedDeadline hfound hd hsteps, by rw [hfn]; rfl, by rw [hfn]; rfl, ?_, hsched, hspace, ?_⟩
  · rw [htime, updFn_time, advanceTo_toNat hlt]
  · rw [hsent]
    exact List.append_nil s.sent

/-- The keys of an ended selection and its foreign targets are counted (R129, R357). -/
def counted (s : State) (a : Adm) (keys : Nat) : State :=
  countForeign (countKeys s a.fn keys) a (a.phase == .running && meetsForeign s a)

theorem counted_changes (s : State) (a : Adm) (keys : Nat) :
    ∃ fns reeds draught, counted s a keys = { s with fns := fns, reeds := reeds, draught := draught } ∧
      (meetsForeign s a = false → fns = s.fns) := by
  unfold counted countForeign
  cases hmet : (a.phase == .running && meetsForeign s a) with
  | false => exact ⟨_, _, _, rfl, fun _ => rfl⟩
  | true =>
    refine ⟨_, _, _, rfl, fun hforeign => ?_⟩
    rw [hforeign, Bool.and_false] at hmet
    cases hmet

theorem exec_deadlineExpire {cid d keys : Nat} {consumed : List Nat} {a : Adm} {r : Result} {s : State}
    (ha : findAdm s cid = some a) (hd : a.cmd.deadline = some d) (hrun : a.isDone = false)
    (hobj : objChanging a.cmd a.carried = false)
    (hr : deadlineResult (advanceTo s d) a consumed = some (r, keys)) :
    exec (.deadlineExpire cid consumed) s =
      .next (stopWaiting (finish (counted (advanceTo s d) a keys) cid r) cid) := by
  simp only [exec, execDeadlineExpire, ha, hd, hrun, hobj, Bool.or_false, Bool.false_eq_true, if_false, hr]
  rfl

theorem admitted_command_meets_deadline (cid d keys : Nat) (consumed : List Nat) (a : Adm) (r : Result) (s : State)
    (ha : findAdm s cid = some a) (hd : a.cmd.deadline = some d) (hlt : d < 2 ^ 64) (hrun : a.isDone = false)
    (hobj : objChanging a.cmd a.carried = false)
    (hr : deadlineResult (advanceTo s d) a consumed = some (r, keys)) :
    ∃ t, exec (.deadlineExpire cid consumed) s = .next t ∧ doneWith t cid (· = r) ∧ t.time.toNat = max s.time.toNat d ∧
      otherCommandsKept s t cid ∧ t.space = s.space ∧ t.sent = s.sent ∧
      (meetsForeign (advanceTo s d) a = false → t.fns = s.fns) := by
  obtain ⟨fns, reeds, draught, hcounted, hfns⟩ := counted_changes (advanceTo s d) a keys
  have hexec := exec_deadlineExpire ha hd hrun hobj hr
  rw [hcounted] at hexec
  refine ⟨_, hexec, ?_, advanceTo_toNat hlt s, ?_, rfl, rfl, hfns⟩
  · exact doneWith_finish (s := { advanceTo s d with fns := fns, reeds := reeds, draught := draught }) (r := r) ha
  · exact otherCommandsKept_finish { advanceTo s d with fns := fns, reeds := reeds, draught := draught } cid r

theorem deadlineResult_of_other_opcode (a : Adm) (consumed : List Nat) (s : State)
    (h : a.cmd.opcode ∉ [0x206, 0x207, 0x300, 0x301, 0x302]) :
    deadlineResult s a consumed = some (.bare stDeadline, 0) := by
  simp only [List.mem_cons, List.not_mem_nil, or_false, not_or] at h
  obtain ⟨hsearch, hbatch, htopk, hunique, hargmax⟩ := h
  unfold deadlineResult
  split
  · exact absurd ‹_› hsearch
  · exact absurd ‹_› hbatch
  · exact absurd ‹_› htopk
  · exact absurd ‹_› hunique
  · exact absurd ‹_› hargmax
  · rfl

/-! ### Completion -/

theorem atCompletion_reports (a : Adm) (r : Result) (s : State) :
    (atCompletion s a r).status = r.status ∧ (atCompletion s a r).value = r.value ∧
      (r.version ≠ 0 → (atCompletion s a r).version = r.version) ∧
      (a.cmd.opcode ≠ 0x001 → (atCompletion s a r).data = r.data) ∧
      (a.cmd.opcode = 0x001 → r.data.length = 64 →
        (atCompletion s a r).data = r.data.take 48 ++ toLE 8 s.time.toNat ++ r.data.drop 56) := by
  refine ⟨rfl, rfl, fun hv => if_neg hv, fun hop => if_neg (by simp [hop]), fun hop hlen => if_pos ?_⟩
  have hdata : r.data ≠ [] := by
    intro hnil
    simp [hnil] at hlen
  simp [hop, hdata]

theorem atCompletion_of_time {s t : State} (h : t.time = s.time) (a : Adm) (r : Result) :
    atCompletion t a r = atCompletion s a r := by
  rw [atCompletion, atCompletion, h]

theorem atCompletion_data_nil_iff (s : State) (a : Adm) (r : Result) : (atCompletion s a r).data = [] ↔ r.data = [] := by
  by_cases h : (a.cmd.opcode = 0x001 && !r.data.isEmpty) = true
  · have hdata : r.data ≠ [] := by
      intro hnil
      simp [hnil] at h
    have htime : toLE 8 s.time.toNat ≠ [] := List.ne_nil_of_length_pos (by simp)
    simp [atCompletion, h, hdata, htime]
  · simp [atCompletion, h]

/-- A grant or revocation touches the object space alone (R137). -/
theorem applyGrant_changes (s : State) (a : Adm) : ∃ space, applyGrant s a = { s with space := space } := by
  unfold applyGrant
  dsimp only
  split
  · exact ⟨_, rfl⟩
  · split
    · exact updObj_changes _ _ _
    · split
      · exact updObj_changes _ _ _
      · exact ⟨_, rfl⟩

theorem settle_without_switch {s : State} {a : Adm} (h : a.switch = none) (r : Result) :
    ∃ space, settle s a r = { s with space := space } := by
  simp only [settle, h]
  split
  · exact applyGrant_changes s a
  · exact ⟨_, rfl⟩

theorem observePhase_changes (s : State) (k : PhaseKey) (energy counts : Nat) :
    ∃ draught, observePhase s k energy counts = { s with draught := draught } := by
  unfold observePhase
  split <;> exact ⟨_, rfl⟩

/-- The completion of a host's command does not restart the node: what it brings lies in the boot store and in the mode. -/
theorem nodeEnds_host {c : Cmd} {k : Nat} (h : c.origin = .host k) (s : State) (r : Result) :
    ∃ boot service, nodeEnds s c r = { s with boot := boot, service := service } := by
  have hhost : c.origin.isHost = true := by rw [h]; rfl
  unfold nodeEnds
  split
  · exact ⟨_, _, rfl⟩
  · split
    · exact ⟨_, _, rfl⟩
    · rw [hhost]
      simp only [Bool.not_true, Bool.and_false, Bool.false_eq_true, if_false]
      exact ⟨_, _, rfl⟩

/-- A command out of the pool, with its windows and its segments' sequences (R40, R107). -/
def withoutCommand (cid : Nat) (s : State) : State :=
  { s with
    sched := { s.sched with admitted := s.sched.admitted.filter (fun b => b.cmd.cid != cid) }
    stk := { s.stk with sequences := s.stk.sequences.filter (fun q => q.cid != cid) } }

/-- The state in which a completed command has left the pool and its phase is observed (R464). -/
def leftPool (s : State) (a : Adm) (r : Result) (cid : Nat) : State :=
  let s := withoutCommand cid (leaveWindows (settle s a r) [cid])
  observePhase s (.service a.fn a.cmd.opcode) a.energy (now s - a.admitted)

theorem leftPool_changes {a : Adm} (h : a.switch = none) (s : State) (r : Result) (cid : Nat) :
    ∃ draught space stk looms, leftPool s a r cid = { s with
      draught := draught, space := space, stk := stk, looms := looms
      sched := { s.sched with admitted := s.sched.admitted.filter (fun b => b.cmd.cid != cid) } } := by
  obtain ⟨space, hsettle⟩ := settle_without_switch (s := s) h r
  obtain ⟨draught, hphase⟩ := observePhase_changes (withoutCommand cid (leaveWindows { s with space := space } [cid]))
    (.service a.fn a.cmd.opcode) a.energy (now s - a.admitted)
  rw [leftPool, hsettle]
  exact ⟨_, _, _, _, hphase⟩

/-- The reply of a completed command finds functions, time and what was sent as they were, and the pool without it. -/
theorem freeAll_leftPool_keeps {a : Adm} (h : a.switch = none) (s : State) (r : Result) (cid : Nat) :
    (freeAll (leftPool s a r cid)).fns = s.fns ∧ (freeAll (leftPool s a r cid)).time = s.time ∧
      (freeAll (leftPool s a r cid)).sent = s.sent ∧
      (freeAll (leftPool s a r cid)).sched.admitted = s.sched.admitted.filter (fun b => b.cmd.cid != cid) := by
  obtain ⟨draught, space, stk, looms, hleft⟩ := leftPool_changes h s r cid
  obtain ⟨space', flash, hfree⟩ := freeAll_changes (leftPool s a r cid)
  rw [hfree, hleft]
  exact ⟨rfl, rfl, rfl, rfl⟩

theorem atCompletion_leftPool {a : Adm} (h : a.switch = none) (s : State) (r : Result) (cid : Nat) :
    atCompletion (leftPool s a r cid) a r = atCompletion s a r := by
  obtain ⟨draught, space, stk, looms, hleft⟩ := leftPool_changes h s r cid
  exact atCompletion_of_time (by rw [hleft]) a r

/-- The versions that the command alone had pinned are freed before its reply (R40). -/
theorem exec_commandComplete {cid : Nat} {a : Adm} {r : Result} {s : State} (ha : findAdm s cid = some a)
    (hdone : a.phase = .done r) (hprog : programWaits s.flash cid = false) :
    exec (.commandComplete cid) s = .next (nodeEnds
      (endCommand (freeAll (leftPool s a r cid)) a.cmd (atCompletion (leftPool s a r cid) a r)) a.cmd r) := by
  simp only [exec, execCommandComplete, ha, hdone, hprog, Bool.false_eq_true, if_false]
  rfl

/-- A pool without a command: that number is not found, every other as before. -/
theorem findAdm_of_filtered {s t : State} {cid : Nat}
    (h : t.sched.admitted = s.sched.admitted.filter (fun b => b.cmd.cid != cid)) :
    findAdm t cid = none ∧ otherCommandsKept s t cid := by
  constructor
  · rw [findAdm, h, List.find?_eq_none]
    intro b hb
    have hne := (List.mem_filter.1 hb).2
    simpa using hne
  · intro c hc
    have hkeep : ∀ b : Adm, decide ((b.cmd.cid != cid) = true ∧ (b.cmd.cid == c) = true) = (b.cmd.cid == c) := by
      intro b
      by_cases hb : b.cmd.cid = c
      · subst hb
        simp [hc]
      · simp [hb]
    simp only [findAdm, h, List.find?_filter, hkeep]

theorem done_command_completes (cid k : Nat) (a : Adm) (r : Result) (s : State) (ha : findAdm s cid = some a)
    (hdone : a.phase = .done r) (hprog : programWaits s.flash cid = false) (hswitch : a.switch = none)
    (hk : a.cmd.origin = .host k) :
    ∃ t e, exec (.commandComplete cid) s = .next t ∧ findAdm t cid = none ∧ otherCommandsKept s t cid ∧
      (fnOf t a.cmd.fn).waiting =
        (fnOf s a.cmd.fn).waiting ++ [⟨cid, k, a.cmd.cookie, a.cmd.irqNow, a.cmd.fence, e, atCompletion s a r⟩] ∧
      t.sent = s.sent ++ (if r.data = [] then []
        else [.dma a.cmd.fn a.cmd.resultAddr (atCompletion s a r).data (fnOf s a.cmd.fn).cfg.relaxed]) ∧
      t.time = s.time := by
  have hcid : a.cmd.cid = cid := by simpa using List.find?_some ha
  have hexec := exec_commandComplete ha hdone hprog
  rw [atCompletion_leftPool hswitch] at hexec
  obtain ⟨hfns, htime, hsent, hadm⟩ := freeAll_leftPool_keeps hswitch s r cid
  generalize freeAll (leftPool s a r cid) = u at hexec hfns htime hsent hadm
  have hfn : fnOf u a.cmd.fn = fnOf s a.cmd.fn := by rw [fnOf, hfns]; rfl
  obtain ⟨⟨e, hrecord⟩, hdata, hendtime, hendsched, -⟩ := endCommand_host hk u (atCompletion s a r)
  obtain ⟨boot, service, hnode⟩ := nodeEnds_host hk (endCommand u a.cmd (atCompletion s a r)) r
  rw [hnode] at hexec
  obtain ⟨hgone, hkept⟩ := findAdm_of_filtered (t := endCommand u a.cmd (atCompletion s a r))
    ((congrArg Sched.admitted hendsched).trans hadm)
  refine ⟨_, e, hexec, hgone, hkept, ?_, ?_, hendtime.trans htime⟩
  · have hwaiting := congrArg FnState.waiting hrecord
    rw [hfn, hcid] at hwaiting
    exact hwaiting
  · simp only [dataSent, atCompletion_data_nil_iff, hsent, hfn] at hdata
    exact hdata

/-- Settles O21, row by row. -/
theorem commandsEnd : Obligations.CommandsEnd :=
  ⟨waiting_command_meets_deadline, admitted_command_meets_deadline,
    deadlineResult_of_other_opcode, done_command_completes, atCompletion_reports, owed_version_becomes_current,
    fun oid o b a s ho hd hb hm hn hcur _ ha => build_becomes_current oid o b a s ho hd hb hm hn hcur ha⟩

end Sys2Proof.Laws
end

section
/-! PROOFS. O3 and O4: the order of the rails. It holds at reset; as a property of one step from any state it does not
hold, for it lets rails that are off be wanted. -/

namespace Sys2Proof.Laws
open Sys2Proof Sys2Proof.Machine Sys2Proof.Safety

/-- The rails are off and yet wanted, with a thermal trip next. Rails that are wanted have the first of them on in every run, but
the order of the rails does not say so. -/
def offYetWanted : State :=
  { State.reset with board := { State.reset.board with railsWanted := true }, pending := [.thermTrip 1840] }

theorem railsOrdered_offYetWanted : railsOrdered offYetWanted := by
  unfold railsOrdered
  decide

/-- Refutes O3: from `offYetWanted` a thermal trip latches with the rails still wanted, for it turns off, and no longer wants,
only rails of which one is on (R70). -/
theorem not_railsStayInOrder : ¬ Obligations.RailsStayInOrder := by
  intro h
  obtain ⟨-, -, -, hlatched, -⟩ := h offYetWanted _ railsOrdered_offYetWanted rfl
  exact Bool.noConfusion (hlatched rfl).2

/-- Settles O4: at reset no rail is on or wanted, and nothing is latched. -/
theorem railsInOrderAtReset : Obligations.RailsInOrderAtReset := by
  unfold Obligations.RailsInOrderAtReset railsOrdered
  decide

end Sys2Proof.Laws
end

section
/-! PROOFS. O7: the rows by which the rails come up and reset is released, each with its equation, and what the band of the
input is once a row has taken it. -/

namespace Sys2Proof.Laws
open Sys2Proof Sys2Proof.Machine Sys2Proof.Safety

/-! ### STATUS and the band of the input -/

@[simp] theorem setStatus_status (s : State) (b : Nat) : (setStatus s b).board.status = s.board.status ||| (1#16 <<< b) := rfl

/-- VIN takes a band: the reading, the band and the 48 A limit, with the STATUS bit of the low or the high band (R59, R73). -/
theorem takeBand_keeps (s : State) (mv : Nat) :
    takeBand s mv = { s with board := { s.board with
      vinMv := mv, band := bandOf mv, currentLimit := bandOf mv == .low
      status := (takeBand s mv).board.status, alertN := (takeBand s mv).board.alertN } } := by
  unfold takeBand
  cases bandOf mv <;> rfl

theorem railsFree_takeBand {s : State} {mv : Nat} (h : railsFree { s.board with band := bandOf mv }) :
    railsFree (takeBand s mv).board := by
  rw [takeBand_keeps]
  exact h

@[simp] theorem takeBand_service (s : State) (mv : Nat) : (takeBand s mv).service = s.service := by rw [takeBand_keeps]
@[simp] theorem takeBand_restart (s : State) (mv : Nat) : (takeBand s mv).board.restart = s.board.restart := by
  rw [takeBand_keeps]

/-- What a device reset leaves speaks of the state before only by what survives it. -/
theorem resetLeaves_of_kept {s u t : State} {cause : Nat} (hb : u.boot = s.boot) (hg : u.glaesh = s.glaesh)
    (hp : u.pending = s.pending) (hs : u.sent = s.sent) (h : resetLeaves u t cause) : resetLeaves s t cause := by
  simpa only [resetLeaves, hb, hg, hp, hs] using h

@[simp] theorem startRails_vinMv (s : State) : (startRails s).board.vinMv = s.board.vinMv := by unfold startRails; split <;> rfl
@[simp] theorem startRails_band (s : State) : (startRails s).board.band = s.board.band := by unfold startRails; split <;> rfl
@[simp] theorem startRails_switchClosed (s : State) : (startRails s).board.switchClosed = s.board.switchClosed := by
  unfold startRails; split <;> rfl

@[simp] theorem takeBand_boot (s : State) (mv : Nat) : (takeBand s mv).boot = s.boot := by rw [takeBand_keeps]
@[simp] theorem takeBand_glaesh (s : State) (mv : Nat) : (takeBand s mv).glaesh = s.glaesh := by rw [takeBand_keeps]
@[simp] theorem takeBand_pending (s : State) (mv : Nat) : (takeBand s mv).pending = s.pending := by rw [takeBand_keeps]
@[simp] theorem takeBand_sent (s : State) (mv : Nat) : (takeBand s mv).sent = s.sent := by rw [takeBand_keeps]
@[simp] theorem takeBand_switchClosed (s : State) (mv : Nat) : (takeBand s mv).board.switchClosed = s.board.switchClosed := by
  rw [takeBand_keeps]

/-! ### The rails come up -/

/-- The state that VIN's return starts the rails from: the latch of a rail fault and a locked-open switch end (R60, R64). -/
def inputBack (s : State) : State :=
  { s with
    board := { s.board with railLatch := false, lockedOpen := false, restored := true }
    service := { s.service with mode := if s.service.mode = .safe then .service else s.service.mode } }

theorem inputBack_mode {s : State} (hd : s.service.mode ≠ .dormant) :
    (inputBack s).service.mode ≠ .dormant ∧ (inputBack s).service.mode ≠ .safe := by
  by_cases hs : s.service.mode = .safe
  · simp [inputBack, hs]
  · simp [inputBack, hs, hd]

theorem exec_vinTurnOn {s : State} {mv : Nat} (hb : s.board.band = .absent) (hd : s.service.mode ≠ .dormant)
    (hf : railsFree { s.board with band := bandOf mv, railLatch := false }) :
    exec (.vinTurnOn mv) s = .next (startRails (takeBand (inputBack s) mv)) := by
  have ⟨hp, hr, hband, _, _, _, _, hh, _⟩ := hf
  dsimp only at hr hband hh
  have hmode := takeBand_service (inputBack s) mv ▸ inputBack_mode hd
  have hrow : execVinTurnOn mv s = whenPowered s (startIfReady (takeBand (inputBack s) mv)) := by
    simp [execVinTurnOn, inputBack, hband, hb, hr, hh]
  rw [← startIfReady_of_free (s := takeBand (inputBack s) mv) (railsFree_takeBand hf) hmode.1 hmode.2]
  exact hrow.trans (whenPowered_next hp _)

theorem vinTurnOn_first (mv : Nat) (s : State) (hb : s.board.band = .absent) (hr : s.board.restart = 0)
    (hd : s.service.mode ≠ .dormant) (hf : railsFree { s.board with band := bandOf mv, railLatch := false }) :
    ∃ t, exec (.vinTurnOn mv) s = .next t ∧ t.board.rails = 1 ∧ t.board.railsWanted = true ∧ t.board.pwrGood = false ∧
      t.board.vinMv = mv ∧ t.board.band = bandOf mv ∧ t.board.railLatch = false ∧ t.board.lockedOpen = false ∧
      t.boot = s.boot ∧ t.fns = s.fns ∧ t.flash = s.flash ∧ t.time = s.time := by
  refine ⟨_, exec_vinTurnOn hb hd hf, ?_⟩
  rw [startRails_of_none_owed (by rw [takeBand_restart]; exact hr), takeBand_keeps]
  simp [railsOn, inputBack]

theorem vinTurnOn_restart (mv : Nat) (s : State) (hb : s.board.band = .absent) (hr : s.board.restart ≠ 0)
    (hd : s.service.mode ≠ .dormant) (hf : railsFree { s.board with band := bandOf mv, railLatch := false }) :
    ∃ t, exec (.vinTurnOn mv) s = .next t ∧ resetLeaves s t s.board.restart ∧ t.board.rails = 1 ∧ t.board.vinMv = mv := by
  have hrestart : (takeBand (inputBack s) mv).board.restart = s.board.restart := takeBand_restart _ mv
  have hleaves := resetLeaves_startRails (s := takeBand (inputBack s) mv) (hrestart ▸ hr)
  rw [hrestart] at hleaves
  exact ⟨_, exec_vinTurnOn hb hd hf, resetLeaves_of_kept (takeBand_boot (inputBack s) mv) (takeBand_glaesh _ mv)
    (takeBand_pending _ mv) (takeBand_sent _ mv) hleaves, startRails_rails _, startRails_vinMv _⟩

theorem vinTurnOn_in_holdUp (mv : Nat) (s : State) (hp : s.board.powered = true) (hh : s.board.holdUp = true) :
    exec (.vinTurnOn mv) s = .next { s with board := { s.board with heldVin := true, vinMv := mv } } :=
  (whenPowered_next hp _).trans (congrArg _ (if_pos hh))

theorem railEnable_next_rail (s : State) (hw : s.board.railsWanted = true) (h1 : 1 ≤ s.board.rails) (h10 : s.board.rails < 10) :
    exec .railEnable s = .next { s with board := { s.board with
      rails := s.board.rails + 1, pwrGood := s.board.rails + 1 == 10
      goodAt := if s.board.rails + 1 = 10 then (now s : Int) else s.board.goodAt } } := by
  simp [exec, execRailEnable, hw, h1, h10]

theorem measureOwed_strapRaw (b : Boot) (conv : List Nat) :
    (measureOwed b conv).strapRaw = if b.strapOwed = true then BitVec.ofNat 10 (median conv) else b.strapRaw := by
  unfold measureOwed
  split <;> rfl

theorem exec_resetRelease {s : State} (hp : s.board.powered = true) (hg : s.board.pwrGood = true)
    (hr : s.boot.released = false) (conv : List Nat) :
    exec (.resetRelease conv) s = .next { advanceTo s (releaseDue s) with
      board := { s.board with
        perstLow := false, resetting := false, driven := false
        tap := if s.board.tap = .extest then .bypass else s.board.tap }
      boot := { measureOwed s.boot conv with
        released := true, releasedAt := (advanceTo s (releaseDue s)).time, starting := true, stages := [] }
      draught := { s.draught with vFloorMv := BitVec.ofNat 12 (max 650 s.draught.ageFloorMv.toNat) }
      link := { s.link with training := s.link.refclk } } := by
  have hgo : (s.board.pwrGood && !s.boot.released) = true := by simp [hg, hr]
  exact (whenPowered_next hp _).trans (congrArg _ (if_pos hgo))

theorem resetRelease_starts (conv : List Nat) (s : State) (hp : s.board.powered = true) (hg : s.board.pwrGood = true)
    (hr : s.boot.released = false) (hd : releaseDue s < 2 ^ 64) :
    ∃ t, exec (.resetRelease conv) s = .next t ∧ t.time.toNat = max (now s) (releaseDue s) ∧ t.boot.released = true ∧
      t.boot.releasedAt = t.time ∧ t.boot.starting = true ∧ t.boot.stages = [] ∧
      t.boot.strapRaw = (if s.boot.strapOwed = true then BitVec.ofNat 10 (median conv) else s.boot.strapRaw) ∧
      t.link = { s.link with training := s.link.refclk } ∧ t.board.perstLow = false ∧ t.board.resetting = false ∧
      t.board.driven = false ∧ t.board.tap ≠ .extest ∧
      t.draught = { s.draught with vFloorMv := BitVec.ofNat 12 (max 650 s.draught.ageFloorMv.toNat) } ∧ t.fns = s.fns := by
  have htap : (if s.board.tap = .extest then TapInstr.bypass else s.board.tap) ≠ .extest := by
    split
    · exact TapInstr.noConfusion
    · assumption
  exact ⟨_, exec_resetRelease hp hg hr conv, advanceTo_toNat hd s, rfl, rfl, rfl, rfl, measureOwed_strapRaw s.boot conv, rfl,
    rfl, rfl, rfl, htap, rfl, rfl⟩

/-- The time at which the switch closes again: after an opening on current 1 s later at the earliest (R60). -/
def recloseAt (s : State) : State :=
  if s.board.openedOnCurrent then advanceTo s (s.board.openedAt + 100000000).toNat else s

theorem recloseAt_keeps (s : State) : recloseAt s = { s with time := (recloseAt s).time } := by
  unfold recloseAt
  split <;> rfl

/-- The state with the switch closed again at its time, at a bus voltage (R60). -/
def reclosed (mv : Nat) (s : State) : State :=
  takeBand { recloseAt s with board := { s.board with switchClosed := true } } mv

theorem exec_switchReclose {s : State} {mv : Nat} (hc : s.board.switchClosed = false) (hl : s.board.lockedOpen = false)
    (hlo : 49000 ≤ mv) (hhi : mv ≤ 60000) (hf : railsFree { s.board with switchClosed := true, band := bandOf mv })
    (hd : s.service.mode ≠ .dormant) (hs : s.service.mode ≠ .safe) :
    exec (.switchReclose mv) s = .next (startRails (reclosed mv s)) := by
  obtain ⟨hp, -, -, -, -, -, -, hh, -⟩ := id hf
  have hmode : (reclosed mv s).service = s.service := by
    rw [reclosed, takeBand_service, recloseAt_keeps]
  have hstart : startIfReady (reclosed mv s) = startRails (reclosed mv s) :=
    startIfReady_of_free (railsFree_takeBand hf) (hmode ▸ hd) (hmode ▸ hs)
  have hgo : (s.board.switchClosed || s.board.lockedOpen || s.board.holdUp || decide (mv < 49000) ||
      decide (60000 < mv)) = false := by
    have hh : s.board.holdUp = false := hh
    simp [hc, hl, hh, hlo, hhi]
  have hboard : (recloseAt s).board = s.board := by rw [recloseAt_keeps]
  rw [← hstart, reclosed, ← hboard]
  exact (whenPowered_next hp _).trans (congrArg _ (if_neg (by rw [hgo]; exact Bool.false_ne_true)))

theorem switchReclose_restart (mv : Nat) (s : State) (hc : s.board.switchClosed = false) (hl : s.board.lockedOpen = false)
    (hlo : 49000 ≤ mv) (hhi : mv ≤ 60000) (hr : s.board.restart ≠ 0)
    (hf : railsFree { s.board with switchClosed := true, band := bandOf mv })
    (hd : s.service.mode ≠ .dormant) (hs : s.service.mode ≠ .safe) :
    ∃ t, exec (.switchReclose mv) s = .next t ∧ resetLeaves s t s.board.restart ∧ t.board.switchClosed = true ∧
      t.board.rails = 1 ∧ t.board.band = bandOf mv := by
  have hrestart : (reclosed mv s).board.restart = s.board.restart := takeBand_restart _ mv
  have hkept : recloseAt s = { s with time := (recloseAt s).time } := recloseAt_keeps s
  have hleaves := resetLeaves_startRails (s := reclosed mv s) (hrestart ▸ hr)
  rw [hrestart] at hleaves
  have hback : resetLeaves s (startRails (reclosed mv s)) s.board.restart :=
    resetLeaves_of_kept (by rw [reclosed, takeBand_boot, hkept]) (by rw [reclosed, takeBand_glaesh, hkept])
      (by rw [reclosed, takeBand_pending, hkept]) (by rw [reclosed, takeBand_sent, hkept]) hleaves
  exact ⟨_, exec_switchReclose hc hl hlo hhi hf hd hs, hback,
    (startRails_switchClosed _).trans (takeBand_switchClosed _ mv), startRails_rails _, startRails_band _⟩

/-- The state with every junction sensor at this reading at most (R63, R70). -/
def cooled (hot : Int) (s : State) : State := { s with board := { s.board with hotX16 := hot } }

theorem exec_junctionSensorsCool {s : State} {hot : Int} (hc : s.board.coolWait = true) (hhot : hot < 1440)
    (hf : railsFree { s.board with hotX16 := hot }) (hd : s.service.mode ≠ .dormant) (hs : s.service.mode ≠ .safe) :
    exec (.junctionSensorsCool hot) s = .next (startRails (cooled hot s)) := by
  have hgo : (s.board.coolWait && decide (hot < coolX16)) = true := by
    rw [hc]
    exact decide_eq_true hhot
  rw [← startIfReady_of_free (s := cooled hot s) hf hd hs]
  exact (whenPowered_next hf.1 _).trans (congrArg _ (if_pos hgo))

theorem junctionSensorsCool_starts (hot : Int) (s : State) (hc : s.board.coolWait = true) (hhot : hot < 1440)
    (hr : s.board.restart = 0) (hf : railsFree { s.board with hotX16 := hot }) (hd : s.service.mode ≠ .dormant)
    (hs : s.service.mode ≠ .safe) :
    ∃ t, exec (.junctionSensorsCool hot) s = .next t ∧ t.board.rails = 1 ∧ t.board.coolWait = false ∧ t.boot = s.boot ∧
      t.fns = s.fns := by
  refine ⟨_, exec_junctionSensorsCool hc hhot hf hd hs, ?_⟩
  rw [startRails_of_none_owed (s := cooled hot s) hr]
  exact ⟨rfl, rfl, rfl, rfl⟩

/-- Settles O7, row by row. -/
theorem railsComeUp : Obligations.RailsComeUp :=
  ⟨vinTurnOn_first, vinTurnOn_restart, vinTurnOn_in_holdUp, railEnable_next_rail, resetRelease_starts, switchReclose_restart,
    junctionSensorsCool_starts⟩

end Sys2Proof.Laws
end

section
/-! PROOFS. O8: the rows that turn the rails off, and what a hold-up has done once it has begun. -/

namespace Sys2Proof.Laws
open Sys2Proof Sys2Proof.Machine Sys2Proof.Safety

/-! ### The rails go off -/

/-- A bit of STATUS below 16 is set by its row. -/
theorem setStatus_bit (s : State) {b : Nat} (h : b < 16) : (setStatus s b).board.status.getLsbD b = true := by
  simp [h]

theorem railFault_turns_off (code : Nat) (s : State) (hr : s.board.rails ≠ 0) (hl : s.board.railLatch = false)
    (hh : s.board.holdUp = false) :
    ∃ t, exec (.railFault code) s = .next t ∧ t.board.rails = 0 ∧ t.board.pwrGood = false ∧ t.board.railLatch = true ∧
      t.board.railFault = BitVec.ofNat 8 code ∧ t.board.status.getLsbD 3 = true ∧ t.sched = {} ∧ t.space = {} := by
  have he : exec (.railFault code) s = .next { setStatus (railsOff s) sbRailFault with
      board := { (setStatus (railsOff s) sbRailFault).board with railFault := BitVec.ofNat 8 code, railLatch := true } } := by
    have hlatch : (setStatus (railsOff s) sbRailFault).board.railLatch = false := hl
    simp only [exec, execRailFault, hr, hh, if_false, Bool.false_eq_true, hlatch]
  exact ⟨_, he, rfl, rfl, rfl, rfl, setStatus_bit (railsOff s) (by decide), rfl, rfl⟩

theorem thermTrip_turns_off (temp : Int) (s : State) (hp : s.board.powered = true) (hh : s.board.holdUp = false)
    (hr : s.board.rails ≠ 0) (ht : 1840 ≤ temp) :
    ∃ t, exec (.thermTrip temp) s = .next t ∧ t.board.rails = 0 ∧ t.board.pwrGood = false ∧
      t.board.tripLatch = true ∧ t.board.thermTripN = false ∧ t.board.hotX16 = temp ∧ t.board.status.getLsbD 2 = true ∧
      t.sched = {} ∧ t.space = {} := by
  have he : exec (.thermTrip temp) s = .next { setStatus (railsOff s) sbThermTrip with
      board := { (setStatus (railsOff s) sbThermTrip).board with
        thermTripN := false, tripLatch := true, restored := false, hotX16 := temp } } := by
    have hcold : ¬ temp < tripX16 := not_lt.2 ht
    have hup : ¬ ((s.board.holdUp || decide (s.board.rails = 0)) = true) := by simp [hh, hr]
    simp only [exec, execThermTrip, if_neg hcold, if_neg hup]
    exact whenPowered_next hp _
  exact ⟨_, he, rfl, rfl, rfl, rfl, rfl, setStatus_bit (railsOff s) (by decide), rfl, rfl⟩

/-- A hold-up has begun from this state (R65): PWR_GOOD low, VIN_LOSS set, the node's work gone, the journal in flash. -/
theorem beginHoldUp_leaves (s : State) :
    (beginHoldUp s).board.holdUp = true ∧ (beginHoldUp s).board.pwrGood = false ∧ (beginHoldUp s).flash.journal = [] ∧
      (beginHoldUp s).board.status = s.board.status ||| (1#16 <<< sbVinLoss) ∧ (beginHoldUp s).sched = {} ∧
      (beginHoldUp s).space = {} :=
  ⟨rfl, rfl, rfl, rfl, rfl, rfl⟩

theorem inputLost_of_pwrGood {s : State} (h : s.board.pwrGood = true) : inputLost s = beginHoldUp s := by
  simp [inputLost, h]

theorem inputLoss_holds_up (s : State) (hp : s.board.powered = true) (hg : s.board.pwrGood = true) :
    ∃ t, exec .inputLoss s = .next t ∧ t.board.holdUp = true ∧ t.board.pwrGood = false ∧ t.board.band = .absent ∧
      t.flash.journal = [] ∧ t.board.status.getLsbD 7 = true ∧ t.sched = {} ∧ t.space = {} := by
  have he : exec .inputLoss s = .next (beginHoldUp { s with board := { s.board with
      band := .absent, vinMv := 0, currentLimit := false, heldVin := false } }) := by
    rw [← inputLost_of_pwrGood (by exact hg)]
    exact whenPowered_next hp _
  exact ⟨_, he, rfl, rfl, rfl, rfl, setStatus_bit s (by decide), rfl, rfl⟩

/-- The switch has opened with PWR_GOOD high: the hold-up of an input loss (R60, R65). -/
theorem openSwitch_of_pwrGood {s : State} (h : s.board.pwrGood = true) (onCurrent : Bool) :
    openSwitch s onCurrent = beginHoldUp { s with board := { s.board with
      switchClosed := false, openedOnCurrent := onCurrent, openedAt := now s, currentLimit := false } } :=
  inputLost_of_pwrGood (by exact h)

theorem overvoltage_holds_up (s : State) (hp : s.board.powered = true) (hg : s.board.pwrGood = true)
    (hc : s.board.switchClosed = true) :
    ∃ t, exec .overvoltageSwitchOff s = .next t ∧ t.board.switchClosed = false ∧ t.board.holdUp = true ∧
      t.board.pwrGood = false ∧ t.flash.journal = [] ∧ t.board.status.getLsbD 6 = true ∧ t.board.status.getLsbD 7 = true := by
  have he : exec .overvoltageSwitchOff s = .next (openSwitch
      (setStatus { s with board := { s.board with band := .high } } sbVinHigh) false) :=
    (whenPowered_next hp _).trans (congrArg _ (if_pos hc))
  rw [openSwitch_of_pwrGood (by exact hg)] at he
  refine ⟨_, he, rfl, rfl, rfl, rfl, ?_, setStatus_bit _ (by decide)⟩
  rw [(beginHoldUp_leaves _).2.2.2.1]
  simp [sbVinHigh]

/-- The state with an opening on current recorded and OC_TRIP set (R60). -/
def currentTripped (s : State) : State :=
  setStatus { s with board := { s.board with
    openings := recentOpenings s ++ [(now s : Int)]
    lockedOpen := decide (3 ≤ (recentOpenings s ++ [(now s : Int)]).length) } } sbOcTrip

theorem ocTrip_holds_up (s : State) (hp : s.board.powered = true) (hg : s.board.pwrGood = true)
    (hc : s.board.switchClosed = true) :
    ∃ t, exec .ocTrip s = .next t ∧ t.board.switchClosed = false ∧ t.board.holdUp = true ∧ t.board.pwrGood = false ∧
      t.board.lockedOpen = decide (3 ≤ (recentOpenings s).length + 1) ∧
      t.flash.journal = [] ∧ t.board.status.getLsbD 4 = true ∧ t.board.status.getLsbD 7 = true := by
  have he : exec .ocTrip s = .next (openSwitch (currentTripped s) true) :=
    (whenPowered_next hp _).trans (congrArg _ (if_pos hc))
  have hlocked : (currentTripped s).board.lockedOpen = decide (3 ≤ (recentOpenings s).length + 1) :=
    congrArg (fun n => decide (3 ≤ n)) (List.length_append (as := recentOpenings s) (bs := [(now s : Int)]))
  rw [openSwitch_of_pwrGood (by exact hg)] at he
  refine ⟨_, he, rfl, rfl, rfl, hlocked, rfl, ?_, setStatus_bit _ (by decide)⟩
  rw [(beginHoldUp_leaves _).2.2.2.1]
  simp [currentTripped, sbOcTrip]

/-- The row of POWER_CYCLE with its right PEC byte (R71, R72). -/
theorem exec_powerCycle {v : Byte} {pec : Option Byte} {s : State} (hp : s.board.powered = true)
    (hpec : pecOk 8 [v] pec = true) : exec (.powerCycle v pec) s = .next (if v = 0xA5 then powerCycle s else s) := by
  have hput : mgmtPut s 8 [v] pec = if v = 0xA5 then powerCycle s else s := by
    simp only [mgmtPut, hpec]
    rfl
  exact (whenPowered_next hp _).trans (congrArg _ hput)

theorem powerCycle_of_hot {s : State} (ht : s.board.tripLatch = true) (hhot : 1440 ≤ s.board.hotX16) : powerCycle s = s := by
  simp [powerCycle, ht, show coolX16 = 1440 from rfl, hhot]

theorem powerCycle_of_cool {s : State} (h : s.board.tripLatch = true → s.board.hotX16 < 1440) :
    powerCycle s = if s.board.holdUp then { s with board := { s.board with heldCycle := true } }
      else { railsOff s with board := { (railsOff s).board with
        cyclePending := true, railLatch := false, lockedOpen := false, restored := true, restart := 4 } } := by
  have hgo : (s.board.tripLatch && decide (coolX16 ≤ s.board.hotX16)) = false := by
    simpa [show coolX16 = 1440 from rfl] using h
  simp only [powerCycle, hgo, Bool.false_eq_true, if_false]

theorem powerCycle_turns_off (pec : Option Byte) (s : State) (hp : s.board.powered = true) (hpec : pecOk 8 [0xA5] pec = true)
    (hh : s.board.holdUp = false) (ht : s.board.tripLatch = true → s.board.hotX16 < 1440) :
    ∃ t, exec (.powerCycle 0xA5 pec) s = .next t ∧ t.board.rails = 0 ∧ t.board.pwrGood = false ∧
      t.board.cyclePending = true ∧ t.board.restart = 4 ∧ t.board.railLatch = false ∧ t.board.lockedOpen = false ∧
      t.sched = {} ∧ t.space = {} := by
  have he := exec_powerCycle hp hpec
  rw [if_pos rfl, powerCycle_of_cool ht, if_neg (by simp [hh])] at he
  exact ⟨_, he, rfl, rfl, rfl, rfl, rfl, rfl, rfl, rfl⟩

theorem powerCycle_in_holdUp (pec : Option Byte) (s : State) (hp : s.board.powered = true) (hpec : pecOk 8 [0xA5] pec = true)
    (hh : s.board.holdUp = true) (ht : s.board.tripLatch = false) :
    exec (.powerCycle 0xA5 pec) s = .next { s with board := { s.board with heldCycle := true } } := by
  rw [exec_powerCycle hp hpec, if_pos rfl, powerCycle_of_cool (by simp [ht]), if_pos hh]

theorem powerCycle_ignored (v : Byte) (pec : Option Byte) (s : State) (hp : s.board.powered = true)
    (hpec : pecOk 8 [v] pec = true) (h : v ≠ 0xA5 ∨ (s.board.tripLatch = true ∧ 1440 ≤ s.board.hotX16)) :
    exec (.powerCycle v pec) s = .next s := by
  rw [exec_powerCycle hp hpec]
  obtain hv | ⟨ht, hhot⟩ := h
  · rw [if_neg hv]
  · rw [powerCycle_of_hot ht hhot, ite_self]

/-- Settles O8, row by row. -/
theorem railsGoOff : Obligations.RailsGoOff :=
  ⟨railFault_turns_off, thermTrip_turns_off, inputLoss_holds_up, overvoltage_holds_up, ocTrip_holds_up, powerCycle_turns_off,
    powerCycle_in_holdUp, powerCycle_ignored⟩

end Sys2Proof.Laws
end

section
/-! PROOFS. O9 and O10: the management endpoint with STATUS and ALERT_N, the pins, the trigger and boundary scan. -/

namespace Sys2Proof.Laws
open Sys2Proof Sys2Proof.Machine Sys2Proof.Safety

/-! ### The management endpoint -/

/-- What goes to the board's own pins and buses does not wake the link (R98). -/
theorem emit_smbus (s : State) (d : Option (List Byte)) : emit s (.smbus d) = { s with sent := s.sent ++ [.smbus d] } := by
  simp [emit, Emission.toHost]

theorem emit_tdo (s : State) (width value : Nat) :
    emit s (.tdo width value) = { s with sent := s.sent ++ [.tdo width value] } := by
  simp [emit, Emission.toHost]

theorem bandOf_in_range {mv : Nat} (h : 47000 ≤ mv) :
    bandOf mv = if mv < 50000 then .low else if mv ≤ 60000 then .normal else .high := by
  simp [bandOf, Nat.not_lt.2 h]

/-- The 48 A limit is active in the low band (R59). -/
theorem takeBand_currentLimit {mv : Nat} (h : 47000 ≤ mv) (s : State) :
    (takeBand s mv).board.currentLimit = decide (mv < 50000) := by
  have hlimit : (takeBand s mv).board.currentLimit = (bandOf mv == .low) := rfl
  rw [hlimit, bandOf_in_range h]
  by_cases hlow : mv < 50000
  · simp [hlow]
  · by_cases hnormal : mv ≤ 60000 <;> simp [hlow, hnormal]

/-- The low band sets VIN_LOW, the high band VIN_HIGH (R59, R73). -/
theorem takeBand_status {mv : Nat} (h : 47000 ≤ mv) (s : State) :
    (takeBand s mv).board.status = if mv < 50000 then s.board.status ||| (1#16 <<< sbVinLow)
      else if mv ≤ 60000 then s.board.status else s.board.status ||| (1#16 <<< sbVinHigh) := by
  rw [takeBand, bandOf_in_range h]
  by_cases hlow : mv < 50000
  · simp [hlow]
  · by_cases hnormal : mv ≤ 60000 <;> simp [hlow, hnormal]

theorem exec_inputBandChange {s : State} {mv : Nat} (hp : s.board.powered = true) (hb : s.board.band ≠ .absent)
    (hlo : 47000 ≤ mv) (hhi : mv ≤ 63000) (hne : s.board.band ≠ bandOf mv) :
    exec (.inputBandChange mv) s = .next (takeBand s mv) := by
  have hgo : (decide (s.board.band = .absent) || decide (mv < 47000) || decide (63000 < mv) ||
      decide (bandOf mv = s.board.band)) = false := by
    simp [hb, hlo, hhi, hne.symm]
  exact (whenPowered_next hp _).trans (congrArg _ (if_neg (by rw [hgo]; exact Bool.false_ne_true)))

theorem inputBandChange_sets_band (mv : Nat) (s : State) (hp : s.board.powered = true) (hb : s.board.band ≠ .absent)
    (hlo : 47000 ≤ mv) (hhi : mv ≤ 63000)
    (hne : s.board.band ≠ (if mv < 50000 then .low else if mv ≤ 60000 then .normal else .high)) :
    ∃ b, exec (.inputBandChange mv) s = .next { s with board := b } ∧ b.vinMv = mv ∧ b.rails = s.board.rails ∧
      b.band = (if mv < 50000 then .low else if mv ≤ 60000 then .normal else .high) ∧ b.currentLimit = decide (mv < 50000) ∧
      b.status = (if mv < 50000 then s.board.status ||| (1#16 <<< 5)
        else if mv ≤ 60000 then s.board.status else s.board.status ||| (1#16 <<< 6)) := by
  have hband := bandOf_in_range hlo
  refine ⟨(takeBand s mv).board, ?_, rfl, ?_, hband, takeBand_currentLimit hlo s, takeBand_status hlo s⟩
  · rw [exec_inputBandChange hp hb hlo hhi (hband ▸ hne), takeBand_keeps]
  · rw [takeBand_keeps]

theorem stbyLost_with_input (s : State) (hp : s.board.powered = true) (hb : s.board.band ≠ .absent) :
    ∃ b, exec .stbyLost s = .next { s with board := b } ∧
      b.status = s.board.status ||| (1#16 <<< 8) ∧ b.rails = s.board.rails ∧ b.stby = false ∧ b.powered = true := by
  have he : exec .stbyLost s = .next (setStatus { s with board := { s.board with stby := false } } sbStbyLost) :=
    (whenPowered_next hp _).trans (congrArg _ (if_pos (bne_iff_ne.2 hb)))
  exact ⟨_, he, rfl, rfl, rfl, hp⟩

theorem stbyLost_without_input (s : State) (hp : s.board.powered = true) (hb : s.board.band = .absent)
    (hh : s.board.holdUp = false) :
    ∃ t, exec .stbyLost s = .next t ∧ t.board.powered = false ∧ t.board.status = 0 := by
  have he : exec .stbyLost s = .next (powerLost { s with board := { s.board with stby := false } }) := by
    simp only [exec, execStbyLost, hb, hh]
    exact whenPowered_next hp _
  exact ⟨_, he, rfl, rfl⟩

/-- A word comes off the bus as it was sent, low byte first (R71). -/
theorem word_of_bytes (v : BitVec 16) :
    (BitVec.ofNat 8 (v.toNat / 256) : Byte) ++ (BitVec.ofNat 8 v.toNat : Byte) = v := by
  apply BitVec.eq_of_toNat_eq
  have := v.isLt
  rw [BitVec.toNat_append, BitVec.toNat_ofNat, BitVec.toNat_ofNat,
    ← Nat.shiftLeft_add_eq_or_of_lt (Nat.mod_lt _ (by decide)), Nat.shiftLeft_eq]
  omega

/-- A write of a word to the endpoint, with its right PEC byte (R68, R71-R73). -/
theorem mgmtPut_word {code : Byte} {v : BitVec 16} {pec : Option Byte} {s : State} (h : pecOk code (toLE 2 v.toNat) pec = true) :
    mgmtPut s code (toLE 2 v.toNat) pec =
      if code = 1 then { s with board := { s.board with status := s.board.status &&& ~~~v } }
      else if code = 9 then warnInlet { s with board := { s.board with inlet := some v.toInt, inletAt := now s } }
      else emit s (.smbus none) := by
  have hbytes : toLE 2 v.toNat = [BitVec.ofNat 8 v.toNat, BitVec.ofNat 8 (v.toNat / 256)] := rfl
  rw [hbytes] at h ⊢
  simp only [mgmtPut, h, Bool.not_true, Bool.false_eq_true, if_false, word_of_bytes]

theorem mgmtPut_wrong_pec {code : Byte} {d : List Byte} {pec : Option Byte} (h : pecOk code d pec = false) (s : State) :
    mgmtPut s code d pec = emit s (.smbus none) := by
  simp only [mgmtPut, h, Bool.not_false, if_true]

theorem statusWrite_clears (v : BitVec 16) (pec : Option Byte) (s : State) (hp : s.board.powered = true)
    (h : pecOk 1 (toLE 2 v.toNat) pec = true) :
    exec (.statusWrite v pec) s = .next { s with board := { s.board with status := s.board.status &&& ~~~v } } :=
  (whenPowered_next hp _).trans (congrArg _ (mgmtPut_word h))

theorem statusWrite_wrong_pec (v : BitVec 16) (pec : Option Byte) (s : State) (hp : s.board.powered = true)
    (h : pecOk 1 (toLE 2 v.toNat) pec = false) : exec (.statusWrite v pec) s = .next (emit s (.smbus none)) :=
  (whenPowered_next hp _).trans (congrArg _ (mgmtPut_wrong_pec h s))

/-- The state with the rack's value of the inlet temperature (R68). -/
def inletTold (v : BitVec 16) (s : State) : State :=
  { s with board := { s.board with inlet := some v.toInt, inletAt := now s } }

/-- The rack's value holds for 10 s (R68). -/
theorem inletE4_of_told {s : State} {v : Int} (hv : s.board.inlet = some v) (hn : (now s : Int) < s.board.inletAt + 1000000000) :
    inletE4 s = 10000 * v := by
  simp only [inletE4, hv, hn, if_true]

theorem inletE4_inletTold (v : BitVec 16) (s : State) : inletE4 (inletTold v s) = 10000 * v.toInt :=
  inletE4_of_told rfl (by show (now s : Int) < now s + 1000000000; omega)

/-- A value over 40 C sets THERM_WARN (R67, R73). -/
theorem warnInlet_inletTold (v : BitVec 16) (s : State) :
    warnInlet (inletTold v s) = if 640 < v.toInt then setStatus (inletTold v s) sbThermWarn else inletTold v s := by
  have hiff : 6400000 < 10000 * v.toInt ↔ 640 < v.toInt := by omega
  simp only [warnInlet, inletE4_inletTold, hiff]

/-- ALERT_N after a bit of STATUS has been set (R51, R74). -/
theorem setStatus_alertN (s : State) (b : Nat) :
    (setStatus s b).board.alertN =
      (s.board.alertN && ((setStatus s b).board.status == s.board.status || !pinsSetUp s.board)) := by
  simp [setStatus, pinsSetUp]

/-- A bit that is set anew asserts ALERT_N once the pins are set up (R74). -/
theorem setStatus_asserts {s : State} {b : Nat} (hnew : (setStatus s b).board.status ≠ s.board.status)
    (hup : pinsSetUp s.board = true) : (setStatus s b).board.alertN = false := by
  rw [setStatus_alertN, beq_eq_false_iff_ne.2 hnew, hup]
  exact Bool.and_false _

/-- A bit that was set before leaves ALERT_N (R74). -/
theorem setStatus_alertN_of_same {s : State} {b : Nat} (hsame : (setStatus s b).board.status = s.board.status) :
    (setStatus s b).board.alertN = s.board.alertN := by
  rw [setStatus_alertN, beq_iff_eq.2 hsame, Bool.true_or, Bool.and_true]

theorem inletTemp_is_kept (v : BitVec 16) (pec : Option Byte) (s : State) (hp : s.board.powered = true)
    (h : pecOk 9 (toLE 2 v.toNat) pec = true) :
    ∃ b, exec (.inletTemp v pec) s = .next { s with board := b } ∧ b.inlet = some v.toInt ∧ b.inletAt = now s ∧
    (640 < v.toInt → b.status = s.board.status ||| (1#16 <<< 1)) ∧ (¬ 640 < v.toInt → b.status = s.board.status) ∧
    (b.status ≠ s.board.status → s.board.configured = true → s.board.resetting = false → b.alertN = false) ∧
    (b.status = s.board.status → b.alertN = s.board.alertN) := by
  have he : exec (.inletTemp v pec) s = .next (warnInlet (inletTold v s)) :=
    (whenPowered_next hp _).trans (congrArg _ ((mgmtPut_word h).trans ((if_neg (by decide)).trans (if_pos rfl))))
  rw [warnInlet_inletTold] at he
  by_cases hv : 640 < v.toInt
  · rw [if_pos hv] at he
    exact ⟨(setStatus (inletTold v s) sbThermWarn).board, he, rfl, rfl, fun _ => rfl, fun hn => absurd hv hn,
      fun hnew hc hr => setStatus_asserts (s := inletTold v s) hnew (by simp [pinsSetUp, inletTold, hc, hr]),
      fun hsame => setStatus_alertN_of_same (s := inletTold v s) hsame⟩
  · rw [if_neg hv] at he
    exact ⟨(inletTold v s).board, he, rfl, rfl, fun h => absurd h hv, fun _ => rfl, fun h => absurd rfl h, fun _ => rfl⟩

theorem inletTempTimeout_forgets (v : Int) (s : State) (hp : s.board.powered = true) (hi : s.board.inlet = some v)
    (hd : (s.board.inletAt + 1000000000).toNat < 2 ^ 64) :
    ∃ t, exec .inletTempTimeout s = .next t ∧ t = { s with time := t.time, board := { s.board with inlet := none } } ∧
      t.time.toNat = max (now s) (s.board.inletAt + 1000000000).toNat := by
  have he : exec .inletTempTimeout s = .next { advanceTo s (s.board.inletAt + 1000000000).toNat with
      board := { s.board with inlet := none } } :=
    (whenPowered_next hp _).trans (congrArg _ (if_neg (by simp [hi])))
  exact ⟨_, he, rfl, advanceTo_toNat hd s⟩

theorem alertResponse_releases (s : State) (hp : s.board.powered = true) (ha : s.board.alertN = false) :
    exec (.alertResponse .alert) s =
      .next { s with board := { s.board with alertN := true }, sent := s.sent ++ [.smbus (some [0x2A])] } := by
  have hno : ¬ s.board.alertN = true := by simp [ha]
  refine (whenPowered_next hp _).trans (congrArg _ ((if_neg hno).trans ?_))
  rw [emit_smbus]

theorem alertResponse_read (code : Byte) (pec : Bool) (s : State) (hp : s.board.powered = true) :
    ∃ t d, exec (.alertResponse (.read code pec)) s = .next t ∧
      t = { s with sent := s.sent ++ [.smbus d], fresh := s.fresh + 1 } ∧
      (pec = false → code = 1 → d = some (toLE 2 s.board.status.toNat)) ∧
      (pec = false → code = 7 → d = some [s.board.railFault]) ∧ (code = 8 → d = none) := by
  refine ⟨_, mgmtAnswer s code pec, whenPowered_next hp _, emit_smbus _ _, ?_, ?_, ?_⟩
  · rintro rfl rfl
    rfl
  · rintro rfl rfl
    rfl
  · rintro rfl
    rfl

theorem alertResponse_eepromWrite (offset : Nat) (data : List Byte) (s : State) (hp : s.board.powered = true) :
    exec (.alertResponse (.eepromWrite offset data)) s = .next (emit s (.smbus none)) :=
  whenPowered_next hp _

theorem iinLimit_limits (s : State) (hp : s.board.powered = true) (hb : s.board.band = .low) :
    ∃ b, exec .iinLimit s = .next { s with board := b } ∧ b.status = s.board.status ||| (1#16 <<< 0) ∧ b.iin10Ma = 4800 := by
  have he : exec .iinLimit s = .next (setStatus { s with board := { s.board with iin10Ma := 4800 } } sbIinLimit) :=
    (whenPowered_next hp _).trans (congrArg _ (if_pos hb))
  exact ⟨_, he, rfl, rfl⟩

/-- Settles O9, row by row. -/
theorem managementEndpoint : Obligations.ManagementEndpoint :=
  ⟨inputBandChange_sets_band, stbyLost_with_input, stbyLost_without_input, statusWrite_clears, statusWrite_wrong_pec,
    inletTemp_is_kept, inletTempTimeout_forgets, alertResponse_releases, alertResponse_read, alertResponse_eepromWrite,
    iinLimit_limits⟩

/-! ### Pins, trigger and boundary scan -/

theorem pinConfiguration_configures (s : State) (hp : s.board.powered = true) :
    exec .pinConfiguration s = .next { s with board := { s.board with configured := true } } :=
  whenPowered_next hp _

theorem refclkStable_trains (s : State) :
    exec .refclkStable s = .next { s with link := { s.link with
      refclk := true, training := s.link.training || (s.boot.released && !s.link.up) } } :=
  rfl

/-- A pulse on TRIG_IN while no snapshot is frozen latches the banks and sends nothing (R58, R522). -/
theorem fireSnapshot_of_pin {s : State} (h : s.service.frozen = false) :
    fireSnapshot s 1 = postEvent { s with
      fresh := s.fresh + 1
      service := { s.service with
        frozen := true, valid := false, snapSeq := s.service.snapSeq + 1, snapSource := 1, snapTime := s.time
        latched := latchAll s } } 0 6 (s.service.snapSeq + 1) 1 s.time := by
  simp only [fireSnapshot, h, Bool.false_eq_true, if_false, if_true]
  rfl

theorem trigIn_fires (s : State) (hp : s.board.powered = true) (hc : s.board.configured = true)
    (hr : s.board.resetting = false) (hsrc : s.service.snapSrc.getLsbD 0 = true) (hf : s.service.frozen = false) :
    ∃ t, exec .trigIn s = .next t ∧ t.service.frozen = true ∧ t.service.valid = false ∧ t.service.snapSource = 1 ∧
      t.service.snapSeq = s.service.snapSeq + 1 ∧ t.service.snapTime = s.time ∧ t.sent = s.sent ∧ t.board = s.board := by
  have hgo : (pinsSetUp s.board && s.service.snapSrc.getLsbD 0) = true := by simp [pinsSetUp, hc, hr, hsrc]
  have he : exec .trigIn s = .next (fireSnapshot s 1) := (whenPowered_next hp _).trans (congrArg _ (if_pos hgo))
  rw [fireSnapshot_of_pin hf] at he
  exact ⟨_, he, rfl, rfl, rfl, rfl, rfl, rfl, rfl⟩

theorem trigIn_in_reset (s : State) (hp : s.board.powered = true) (hr : s.board.resetting = true) :
    exec .trigIn s = .next s := by
  have hno : ¬ (pinsSetUp s.board && s.service.snapSrc.getLsbD 0) = true := by simp [pinsSetUp, hr]
  exact (whenPowered_next hp _).trans (congrArg _ (if_neg hno))

theorem tapReset_selects_idcode (s : State) (hp : s.board.powered = true) :
    exec .tapReset s = .next { s with board := { s.board with tap := .idcode, driven := false } } :=
  whenPowered_next hp _

theorem bypass_selects_bypass (s : State) (hp : s.board.powered = true) :
    exec .bypass s = .next { s with
      board := { s.board with tap := .bypass, driven := false }, sent := s.sent ++ [.tdo 1 0] } :=
  (whenPowered_next hp _).trans (congrArg _ (emit_tdo _ _ _))

theorem idcode_shifts_out (s : State) (hp : s.board.powered = true) :
    exec .idcode s = .next { s with
      board := { s.board with tap := .idcode, driven := false }, sent := s.sent ++ [.tdo 32 0x15200FDB] } :=
  (whenPowered_next hp _).trans (congrArg _ (emit_tdo _ _ _))

/-- A pass through the boundary register (R76). -/
theorem tapBoundary_eq (s : State) (bits : BitVec 15) (i : TapInstr) :
    tapBoundary s bits i = { s with
      board := { s.board with tap := i, boundary := bits, driven := i == .extest }
      sent := s.sent ++ [.tdo 15 (Config.boundaryCapture s.fresh).toNat], fresh := s.fresh + 1 } :=
  emit_tdo _ _ _

theorem samplePreload_passes (bits : BitVec 15) (s : State) (hp : s.board.powered = true) :
    ∃ v, exec (.samplePreload bits) s = .next { s with
      board := { s.board with tap := .sample, boundary := bits, driven := false }
      sent := s.sent ++ [.tdo 15 v], fresh := s.fresh + 1 } :=
  ⟨_, (whenPowered_next hp _).trans (congrArg _ (tapBoundary_eq s bits .sample))⟩

theorem extest_drives (bits : BitVec 15) (s : State) (hp : s.board.powered = true) (hl : s.board.perstLow = true) :
    ∃ v, exec (.extest bits) s = .next { s with
      board := { s.board with tap := .extest, boundary := bits, driven := true }
      sent := s.sent ++ [.tdo 15 v], fresh := s.fresh + 1 } :=
  ⟨_, (whenPowered_next hp _).trans (congrArg _ ((if_pos hl).trans (tapBoundary_eq s bits .extest)))⟩

theorem extest_as_bypass (bits : BitVec 15) (s : State) (hp : s.board.powered = true) (hl : s.board.perstLow = false) :
    exec (.extest bits) s = exec .bypass s :=
  (whenPowered_next hp _).trans ((congrArg _ (if_neg (by simp [hl]))).trans (whenPowered_next hp _).symm)

/-- Settles O10, row by row. -/
theorem pinsAndBoundaryScan : Obligations.PinsAndBoundaryScan :=
  ⟨pinConfiguration_configures, refclkStable_trains, trigIn_fires, trigIn_in_reset, tapReset_selects_idcode,
    bypass_selects_bypass, idcode_shifts_out, samplePreload_passes, extest_drives, extest_as_bypass⟩

end Sys2Proof.Laws
end

section
/-! PROOFS. O60, first part: what leaves the board as it is, one lemma for each operation and each row, in the order of the
model's files. The rows that do change the board are in the second part. -/

namespace Sys2Proof.Laws
open Sys2Proof Sys2Proof.Machine Sys2Proof.Safety

/-- The board after a row, where the row goes on. -/
def boardAfter (s : State) : Out → Board
  | .next t => t.board
  | .fault _ | .refused _ => s.board

@[simp] theorem board_ite (c : Prop) {_ : Decidable c} (s t : State) :
    (if c then s else t).board = if c then s.board else t.board :=
  apply_ite State.board c s t

@[simp] theorem boardAfter_ite (u : State) (c : Prop) {_ : Decidable c} (s t : Out) :
    boardAfter u (if c then s else t) = if c then boardAfter u s else boardAfter u t :=
  apply_ite (boardAfter u) c s t

@[simp] theorem boardAfter_next (s t : State) : boardAfter s (.next t) = t.board := rfl

/-- Where both branches have a value, the choice has it, whatever the condition. -/
theorem ite_eq_of_branches {α : Type} {c : Prop} {_ : Decidable c} {a b x : α} (ha : a = x) (hb : b = x) :
    (if c then a else b) = x := by
  split <;> assumption

@[simp] theorem boardAfter_whenPowered (t u : State) :
    boardAfter u (whenPowered u t) = if u.board.powered then t.board else u.board := by
  unfold whenPowered
  rw [boardAfter_next, apply_ite State.board]

/-- What each step of a fold keeps, the fold keeps. -/
@[simp] theorem foldl_board {α : Type} (g : State → α → State) (h : ∀ s x, (g s x).board = s.board) (xs : List α)
    (s : State) : (xs.foldl g s).board = s.board := by
  induction xs generalizing s with
  | nil => rfl
  | cons x xs ih => rw [List.foldl_cons, ih, h]

@[simp] theorem foldl_fst_board {α β : Type} (g : State × β → α → State × β)
    (h : ∀ p x, (g p x).1.board = p.1.board) (xs : List α) (p : State × β) : (xs.foldl g p).1.board = p.1.board := by
  induction xs generalizing p with
  | nil => rfl
  | cons x xs ih => rw [List.foldl_cons, ih, h]

/-- Nor does the choice by an option change what every choice keeps. -/
@[simp] theorem elim_board {α : Type} (o : Option α) (s : State) (g : α → State) (h : ∀ x, (g x).board = s.board) :
    (o.elim s g).board = s.board := by
  cases o with
  | none => rfl
  | some x => exact h x


/-! ### Ops -/

@[simp] theorem observePhase_board (s : State) (k : PhaseKey) (energy counts : Nat) :
    (observePhase s k energy counts).board = s.board := by
  unfold observePhase
  split <;> rfl

@[simp] theorem raise_board (s : State) (f v : Nat) : (raise s f v).board = s.board := by
  simp [raise]

@[simp] theorem flushPba_board (s : State) (f : Nat) : (flushPba s f).board = s.board := by
  simp [flushPba]

@[simp] theorem announce_board (s : State) (f : Nat) : (announce s f).board = s.board := by
  simp [announce]

@[simp] theorem recordWritten_board (s : State) (f : Nat) (irqNow : Bool) :
    (recordWritten s f irqNow).board = s.board := by
  simp [recordWritten]

@[simp] theorem logUncorrectable_board (s : State) (f b : Nat) : (logUncorrectable s f b).board = s.board := by
  simp [logUncorrectable]

@[simp] theorem logCorrectable_board (s : State) (f b : Nat) : (logCorrectable s f b).board = s.board := by
  simp [logCorrectable]

@[simp] theorem meterCmd_board (s t : State) (cid f : Nat) : (meterCmd s t cid f).board = t.board := by
  rw [meterCmd_kept]

/-! ### Space -/

@[simp] theorem updObj_board (s : State) (oid : Nat) (g : Obj → Obj) : (updObj s oid g).board = s.board := by
  unfold updObj
  split <;> rfl

@[simp] theorem countRejected_board (s : State) (f id : Nat) : (countRejected s f id).board = s.board := by rfl

@[simp] theorem touchRange_board (s : State) (oid ver off n : Nat) : (touchRange s oid ver off n).board = s.board := by
  unfold touchRange
  split <;> rfl

@[simp] theorem streamRange_board (s : State) (oid ver off n : Nat) :
    (streamRange s oid ver off n).board = s.board := by
  unfold streamRange
  split <;> simp

@[simp] theorem dropCached_board (s : State) (c : Nat) : (dropCached s c).board = s.board := by
  unfold dropCached
  repeat' split
  all_goals simp

theorem placeOne_board {s t : State} {oid ver g : Nat} {full : Bool} {cid : Option Nat}
    (h : placeOne s oid ver g full cid = some t) : t.board = s.board := by
  unfold placeOne at h
  split at h
  · cases h
  · split at h
    · cases h
    · cases h
      simp

theorem placeAll_board {s t : State} {oid ver : Nat} {cid : Option Nat} {gs : List (Nat × Bool)}
    (h : placeAll s oid ver cid gs = some t) : t.board = s.board := by
  induction gs generalizing s with
  | nil => cases h; rfl
  | cons g gs ih =>
    unfold placeAll at h
    split at h
    · next hone => rw [ih h, placeOne_board hone]
    · cases h

@[simp] theorem reviewHint_board (s : State) (oid : Nat) : (reviewHint s oid).board = s.board := by
  simp [reviewHint]

@[simp] theorem updFrame_board (s : State) (oid ver g : Nat) (k : Frame → Frame) :
    (updFrame s oid ver g k).board = s.board := by
  simp [updFrame]

@[simp] theorem holdRequest_board (s : State) (c : Nat) (h : Held) : (holdRequest s c h).board = s.board := by rfl

@[simp] theorem queueRead_board (s : State) (client : FlashClient) (oid : Nat) (fr : Frame) (deadline : Option Nat) :
    (queueRead s client oid fr deadline).board = s.board := by rfl

@[simp] theorem queueRange_board (s : State) (client : FlashClient) (oid ver off len : Nat) (deadline : Option Nat) :
    (queueRange s client oid ver off len deadline).board = s.board := by
  unfold queueRange
  split <;> simp

@[simp] theorem countEcc_board (s : State) (stack : Nat) (e : Ecc) : (countEcc s stack e).board = s.board := by
  unfold countEcc
  split <;> rfl

@[simp] theorem spoil_board (s : State) (oid ver g : Nat) (bs : List Nat) : (spoil s oid ver g bs).board = s.board := by
  simp [spoil]

@[simp] theorem freeVersions_board (s : State) (oid : Nat) : (freeVersions s oid).board = s.board := by
  unfold freeVersions
  split <;> simp

@[simp] theorem freeAll_board (s : State) : (freeAll s).board = s.board := by
  simp [freeAll]

@[simp] theorem switchTo_board (s : State) (oid ver : Nat) : (switchTo s oid ver).board = s.board := by
  unfold switchTo
  repeat' split
  all_goals simp

theorem makeVersion_board {s t : State} {oid base n : Nat} {bytes : Mem} {size : Nat} {written : List Nat}
    {full : FullTest}
    {cid : Option Nat} (h : makeVersion s oid base bytes size written full cid = some (t, n)) : t.board = s.board := by
  unfold makeVersion at h
  split at h
  · cases h
  · split at h
    · cases h
    · split_ifs at h
      obtain ⟨u, hu, ht⟩ := Option.map_eq_some_iff.1 h
      cases ht
      rw [reviewHint_board, placeAll_board hu, putObj_board]

theorem placeBuild_board {s t : State} {oid tag size : Nat} {full : FullTest} {cid : Option Nat}
    (h : placeBuild s oid tag size full cid = some t) : t.board = s.board :=
  placeAll_board h

@[simp] theorem numberBuild_board (s : State) (oid tag : Nat) (bytes : Mem) (size : Nat) :
    (numberBuild s oid tag bytes size).1.board = s.board := by
  unfold numberBuild
  split <;> rfl

@[simp] theorem dropBuild_board (s : State) (oid tag : Nat) : (dropBuild s oid tag).board = s.board := by
  unfold dropBuild
  split <;> rfl

@[simp] theorem readRest_board (s : State) (oid : Nat) (fr : Frame) (at' n : Nat) :
    (readRest s oid fr at' n).board = s.board := by
  unfold readRest
  split <;> rfl

theorem rewrite_board {s t : State} {oid g n k : Nat} {cid : Option Nat} (h : rewrite s oid g n k cid = some t) :
    t.board = s.board := by
  unfold rewrite at h
  split at h
  · cases h; rfl
  · simp only at h
    split_ifs at h <;> cases h <;> simp

@[simp] theorem putBytes_board (s : State) (oid off : Nat) (bs : List Byte) :
    (putBytes s oid off bs).board = s.board := by
  simp [putBytes]

theorem createObj_board {s t : State} {f oid : Nat} {kind : ObjKind} {hint : BitVec 8} {bytes : Mem} {size : Nat}
    {full : FullTest} {cid : Option Nat} (h : createObj s f kind hint bytes size full cid = some (t, oid)) :
    t.board = s.board := by
  unfold createObj at h
  split at h
  · cases h
  · split at h
    · cases h
    · obtain ⟨u, hu, ht⟩ := Option.map_eq_some_iff.1 h
      cases ht
      exact (placeAll_board (Option.filter_eq_some_iff.1 hu).1).trans (by simp)

@[simp] theorem eraseObjects_board (s : State) (f : Nat) : (eraseObjects s f).board = s.board := by rfl

@[simp] theorem destroyObj_board (s : State) (oid : Nat) : (destroyObj s oid).board = s.board := by
  simp [destroyObj]

/-! ### Operands -/

/-- A row of a command keeps the board where the command's work does. -/
@[simp] theorem withCmd_board (s : State) (cid op : Nat) (k : Adm → State) (h : ∀ a, (k a).board = s.board) :
    boardAfter s (withCmd s cid op k) = s.board := by
  unfold withCmd
  split
  · rw [boardAfter_next, meterCmd_board, h]
  · rfl

@[simp] theorem leaveWindows_board (s : State) (gone : List Nat) : (leaveWindows s gone).board = s.board := by rfl

/-! ### Reset -/

@[simp] theorem lose_board (s : State) : (lose s).board = s.board := by rfl

@[simp] theorem abandonHost_board (s : State) (fs : Nat → Bool) : (abandonHost s fs).board = s.board := by
  simp [abandonHost]

@[simp] theorem hostReset_board (s : State) (fs : Nat → Bool) (ev : LastReset) :
    (hostReset s fs ev).board = s.board := by
  simp [hostReset]

@[simp] theorem hotResetAll_board (s : State) (ev : LastReset) : (hotResetAll s ev).board = s.board := by
  simp [hotResetAll]

/-! ### CfgSpace -/

@[simp] theorem vfOff_board (s : State) : (vfOff s).board = s.board := by
  simp [vfOff]

@[simp] theorem vfOn_board (s : State) : (vfOn s).board = s.board := by
  simp [vfOn]

@[simp] theorem setPower_board (s : State) (f v : Nat) : (setPower s f v).board = s.board := by
  simp [setPower]

@[simp] theorem updCfg_board (s : State) (f : Nat) (g : CfgRegs → CfgRegs) : (updCfg s f g).board = s.board := by rfl

@[simp] theorem cfgWrite_board (s : State) (f v : Nat) (fld : CfgField) : (cfgWrite s f v fld).board = s.board := by
  unfold cfgWrite
  split <;> simp

/-! ### FabricOps -/

@[simp] theorem updPort_board (s : State) (p : Nat) (g : Port → Port) : (updPort s p g).board = s.board := by rfl

@[simp] theorem wakeEgress_board (s : State) (p : Nat) (r : Retained) : (wakeEgress s p r).board = s.board := by
  simp [wakeEgress]

@[simp] theorem chargeEgress_board (s : State) (p : Nat) (r : Retained) : (chargeEgress s p r).board = s.board := by
  simp [chargeEgress]

@[simp] theorem updRetained_board (s : State) (r : Retained) (g : Retained → Retained) :
    (updRetained s r g).board = s.board := by rfl

@[simp] theorem launch_board (s : State) (r : Retained) (p : Nat) : (launch s r p).board = s.board := by
  simp [launch]

@[simp] theorem pump_board (n : Nat) (s : State) (p : Nat) : (pump n s p).board = s.board := by
  induction n generalizing s with
  | zero => rfl
  | succ n ih =>
    unfold pump
    split
    · rfl
    · simp [ih]

@[simp] theorem sendWaiting_board (s : State) (p : Nat) : (sendWaiting s p).board = s.board := by
  simp [sendWaiting]

@[simp] theorem enqueuePacket_board (s : State) (r : Retained) : (enqueuePacket s r).board = s.board := by
  simp [enqueuePacket]

@[simp] theorem sendPacket_board (s : State) (kind dst f : Nat) (epoch : Word) (ctx offset : Nat) (last comp : Bool)
    (extra : List Nat) (data : List Byte) :
    (sendPacket s kind dst f epoch ctx offset last comp extra data).board = s.board := by
  unfold sendPacket
  split <;> simp

@[simp] theorem sendBytes_board (s : State) (kind dst f : Nat) (epoch : Word) (ctx : Nat) (markLast : Bool)
    (bs : List Byte) :
    (sendBytes s kind dst f epoch ctx markLast bs).board = s.board := by
  simp [sendBytes]

@[simp] theorem sendPlain_board (s : State) (kind dst f : Nat) (epoch : Word) (ctx : Nat) (head : List Byte)
    (bs : List Byte) :
    (sendPlain s kind dst f epoch ctx head bs).board = s.board := by
  simp [sendPlain]

@[simp] theorem sendReply_board (s : State) (dst f ctx : Nat) (r : Result) :
    (sendReply s dst f ctx r).board = s.board := by
  simp [sendReply]

@[simp] theorem newKey_board (s : State) (f key : Nat) : (newKey s f key).board = s.board := by rfl

@[simp] theorem wakeNode_board (s : State) : (wakeNode s).board = s.board := by
  simp [wakeNode]

@[simp] theorem chargePcie_board (s : State) (f n : Nat) : (chargePcie s f n).board = s.board := by rfl

@[simp] theorem forgetSlots_board (s : State) (reply : Bool) (f src id : Nat) :
    (forgetSlots s reply f src id).board = s.board := by rfl

@[simp] theorem takeSlot_board (s : State) (p : Packet) (reply : Bool) (src id : Nat) :
    (takeSlot s p reply src id).board = s.board := by
  unfold takeSlot
  split <;> rfl

/-! ### Looms -/

@[simp] theorem updLoom_board (s : State) (l : Nat) (g : Loom → Loom) : (updLoom s l g).board = s.board := by rfl

@[simp] theorem startHead_board (s : State) (loom : Nat) : (startHead s loom).board = s.board := by
  unfold startHead
  dsimp only
  repeat' split
  all_goals simp

@[simp] theorem beginHead_board (s : State) (loom : Nat) : (beginHead s loom).board = s.board := by
  unfold beginHead
  dsimp only
  repeat' split
  all_goals simp

@[simp] theorem dropDescs_board (s : State) (loom : Nat) (keep : ArrayDesc → Bool) :
    (dropDescs s loom keep).board = s.board := by
  simp [dropDescs]

/-! ### Snapshot -/

@[simp] theorem fireSnapshot_board (s : State) (source : Nat) : (fireSnapshot s source).board = s.board := by
  simp [fireSnapshot]

@[simp] theorem causeSnap_board (s : State) (i : Nat) : (causeSnap s i).board = s.board := by
  simp [causeSnap]

/-! ### Aperture -/

@[simp] theorem afterPeatRead_board (s : State) (oid ver g : Nat) : (afterPeatRead s oid ver g).board = s.board := by
  unfold afterPeatRead
  repeat' split
  all_goals simp

@[simp] theorem apertureFail_board (s : State) (f : Nat) : (apertureFail s f).board = s.board := by
  simp [apertureFail]

@[simp] theorem eccFail_board (s : State) (f : Nat) : (eccFail s f).board = s.board := by
  simp [eccFail]

@[simp] theorem serveObject_board (s : State) (f bar oid off ver n : Nat) (ecc : List (Nat × Ecc)) :
    (serveObject s f bar oid off ver n ecc).board = s.board := by
  unfold serveObject
  repeat' split
  all_goals simp

@[simp] theorem serveRead_board (s : State) (f bar addr n : Nat) (ecc : List (Nat × Ecc)) :
    (serveRead s f bar addr n ecc).board = s.board := by
  unfold serveRead
  split <;> simp

@[simp] theorem storeGranule_board (s : State) (f oid off : Nat) (bs : List Byte) :
    (storeGranule s f oid off bs).board = s.board := by
  unfold storeGranule
  split
  · rfl
  · split
    · rfl
    · simp only
      split
      · simp
      · split
        · simp
        · split
          · simp
          · split
            · simp
            · split
              · split
                · next h => simp [rewrite_board h]
                · simp
              · simp

@[simp] theorem writeObject_board (s : State) (f oid off : Nat) (bs : List Byte) :
    (writeObject s f oid off bs).board = s.board := by
  unfold writeObject
  split <;> simp

@[simp] theorem nodeWrite_board (s : State) (f oid off : Nat) (bs : List Byte) :
    (nodeWrite s f oid off bs).board = s.board := by
  unfold nodeWrite
  exact foldl_board _ (fun s p => by dsimp only; split <;> simp) _ s

@[simp] theorem serveWrite_board (s : State) (f addr : Nat) (bs : List Byte) :
    (serveWrite s f addr bs).board = s.board := by
  unfold serveWrite
  split <;> simp

@[simp] theorem execApertureRead_board (f : Fn) (offset length : Nat) (ecc : List (Nat × Ecc)) (s : State) :
    boardAfter s (execApertureRead f offset length ecc s) = s.board := by
  unfold execApertureRead
  split
  · rfl
  · split
    · simp
    · split
      · simp
      · split <;> simp

@[simp] theorem execApertureWrite_board (f : Fn) (offset : Nat) (data : List Byte) (s : State) :
    boardAfter s (execApertureWrite f offset data s) = s.board := by
  unfold execApertureWrite
  split
  · rfl
  · split
    · rfl
    · split <;> simp

@[simp] theorem execApertureReadTimeout_board (f : Fn) (offset : Nat) (s : State) :
    boardAfter s (execApertureReadTimeout f offset s) = s.board := by
  unfold execApertureReadTimeout
  split <;> simp

/-! ### Access -/

@[simp] theorem countForeign_board (s : State) (a : Adm) (met : Bool) : (countForeign s a met).board = s.board := by
  simp [countForeign]

@[simp] theorem tierFailed_board (s : State) (a : Adm) : (tierFailed s a).board = s.board := by rfl

@[simp] theorem readFailed_board (s : State) (a : Adm) (lost : Bool) : (readFailed s a lost).board = s.board := by
  simp [readFailed]

@[simp] theorem chargeNear_board (s : State) (f n : Nat) : (chargeNear s f n).board = s.board := by rfl

@[simp] theorem countKeys_board (s : State) (f n : Nat) : (countKeys s f n).board = s.board := by rfl

@[simp] theorem countSpill_board (s : State) (k : Nat) : (countSpill s k).board = s.board := by
  simp [countSpill]

/-! ### ObjectOps -/

theorem writeData_go_board {oid off : Nat} {bs : List Byte} {srcFails : Nat → Bool} {cid : Option Nat}
    {gs : List Nat} {s : State}
    {n k : Nat} {t : State} {whole : Bool} (h : writeData.go oid off bs srcFails cid s n gs = some (t, k, whole)) :
    t.board = s.board := by
  induction gs generalizing s n with
  | nil => cases h; rfl
  | cons g gs ih =>
    unfold writeData.go at h
    simp only at h
    split_ifs at h
    · cases h; rfl
    · split at h
      · cases h
      · next hw => rw [ih h, putBytes_board, rewrite_board hw]

theorem writeData_board {s t : State} {oid off k : Nat} {bs : List Byte} {srcFails : Nat → Bool} {cid : Option Nat}
    {whole : Bool} (h : writeData s oid off bs srcFails cid = some (t, k, whole)) : t.board = s.board :=
  writeData_go_board h

@[simp] theorem writeBitmap_board (s : State) (a : Adm) (oid off : Nat) (bs : List Byte) :
    (writeBitmap s a oid off bs).board = s.board := by
  unfold writeBitmap
  split
  · rfl
  · split
    · simp
    · next h => simp [makeVersion_board h]

@[simp] theorem writeTo_board (s : State) (a : Adm) (oid : Nat) (t : Target) (off : Nat) (bs : List Byte)
    (srcFails : Nat → Bool)
    (failing : State → Nat → State) (hf : ∀ u n, (failing u n).board = u.board) :
    (writeTo s a oid t off bs srcFails failing).board = s.board := by
  unfold writeTo
  simp only
  split
  · split
    · simp [hf]
    · split
      · simp
      · next h => simp [hf, writeData_board h]
  · simp [hf]

@[simp] theorem writeTierFail_board (a : Adm) (s : State) (n : Nat) : (writeTierFail a s n).board = s.board := by rfl

@[simp] theorem writeReadFail_board (a : Adm) (ecc : Nat → Bool) (s : State) (n : Nat) :
    (writeReadFail a ecc s n).board = s.board := by
  simp [writeReadFail]

@[simp] theorem writeHostFail_board (a : Adm) (s : State) (n : Nat) : (writeHostFail a s n).board = s.board := by rfl

@[simp] theorem dropFeatures_board (s : State) (f : Nat) : (dropFeatures s f).board = s.board := by rfl

@[simp] theorem created_board (s : State) (a : Adm) (kind : ObjKind) (hint : BitVec 8) (bytes : Mem)
    (size : Nat) (full : FullTest) :
    (created s a kind hint bytes size full).board = s.board := by
  unfold created
  split
  · simp
  · next h => simp [createObj_board h]

/-! ### ProgOps -/

@[simp] theorem putShuttle_board (s : State) (sh : Nat) (x : Shuttle) : (putShuttle s sh x).board = s.board := by rfl

@[simp] theorem updShuttle_board (s : State) (sh : Nat) (g : Shuttle → Shuttle) :
    (updShuttle s sh g).board = s.board := by rfl

@[simp] theorem updInst_board (s : State) (no : Nat) (g : Instance → Instance) : (updInst s no g).board = s.board := by
  unfold updInst
  split <;> rfl

@[simp] theorem progViolate_board (s : State) (no : Nat) : (progViolate s no).board = s.board := by
  unfold progViolate
  split <;> simp

@[simp] theorem progWrite_board (s : State) (no : Nat) (i : Instance) (loom a : Nat) (bs : List Byte) :
    (progWrite s no i loom a bs).board = s.board := by
  unfold progWrite
  split
  · split <;> simp
  · simp
  · split <;> simp

@[simp] theorem answerShuttle_board (s : State) (sh inst a : Nat) (v : BitVec 512) :
    (answerShuttle s sh inst a v).board = s.board := by
  simp [answerShuttle]

@[simp] theorem serveHeld_board (s : State) (h : Held) : (serveHeld s h).board = s.board := by
  unfold serveHeld
  split <;> simp

@[simp] theorem serveStalled_board (s : State) (h : Held) : (serveStalled s h).board = s.board := by
  simp [serveStalled]

@[simp] theorem putKnot_board (s : State) (k : Nat) (x : Knot) : (putKnot s k x).board = s.board := by rfl

@[simp] theorem releaseWaiters_board (s : State) (k : Nat) (outcome : BitVec 64) (st : Byte) :
    (releaseWaiters s k outcome st).board = s.board := by rfl

@[simp] theorem freeKnot_board (s : State) (k : Nat) : (freeKnot s k).board = s.board := by rfl

@[simp] theorem noteMay_board (s : State) (no : Nat) : (noteMay s no).board = s.board := by
  unfold noteMay
  split <;> simp

@[simp] theorem noteKnot_board (s : State) (x : Knot) : (noteKnot s x).board = s.board :=
  elim_board _ s _ (fun n => noteMay_board s n)

@[simp] theorem writeExit_board (s : State) (i : Instance) (e : ExitInfo) : (writeExit s i e).board = s.board := by
  unfold writeExit
  split <;> simp

@[simp] theorem stopArrays_board (s : State) (no : Nat) : (stopArrays s no).board = s.board := by
  simp [stopArrays]

@[simp] theorem stopSelections_board (s : State) (no : Nat) : (stopSelections s no).board = s.board := by
  simp [stopSelections]

@[simp] theorem stopWork_board (s : State) (no : Nat) : (stopWork s no).board = s.board := by
  simp [stopWork]

@[simp] theorem meterTask_board (s t : State) (no k f : Nat) : (meterTask s t no k f).board = t.board := by
  unfold meterTask
  split
  · rfl
  · simp

@[simp] theorem observeTasks_board (s : State) (i : Instance) (ts : List Nat) : (observeTasks s i ts).board = s.board :=
  foldl_board _ (fun s t => by split <;> simp) ts s

theorem endInstance_board (arr : State → Nat → State) (harr : ∀ u k, (arr u k).board = u.board) (s : State) (no : Nat)
    (e : ExitInfo) : (endInstance arr s no e).board = s.board := by
  unfold endInstance
  split
  · rfl
  · simp [harr]

theorem boundaryWith_board (arr : State → Nat → State) (harr : ∀ u k, (arr u k).board = u.board) (s : State)
    (no : Nat) :
    (boundaryWith arr s no).board = s.board := by
  unfold boundaryWith
  simp only
  split
  · simp [endInstance_board arr harr]
  · simp

@[simp] theorem arriveN_board (n : Nat) (s : State) (k amount : Nat) : (arriveN n s k amount).board = s.board := by
  induction n generalizing s k amount with
  | zero =>
    unfold arriveN
    split
    · rfl
    · simp
  | succ n ih =>
    have hnext (s : State) (no : Nat) : (boundaryWith (fun s k => arriveN n s k 1) s no).board = s.board :=
      boundaryWith_board _ (fun u k => ih u k 1) s no
    unfold arriveN
    split
    · rfl
    · simp only
      split
      · simp
      · split <;> simp_all

@[simp] theorem arrive_board (s : State) (k amount : Nat) : (arrive s k amount).board = s.board := by
  simp [arrive]

@[simp] theorem arriveFor_board (s : State) (f k amount : Nat) : (arriveFor s f k amount).board = s.board := by
  simp [arriveFor]

@[simp] theorem instanceEnds_board (s : State) (no : Nat) (e : ExitInfo) : (instanceEnds s no e).board = s.board :=
  endInstance_board _ (fun u k => arrive_board u k 1) s no e

@[simp] theorem weaveError_board (s : State) (loom no : Nat) (e : Ecc) : (weaveError s loom no e).board = s.board := by
  unfold weaveError
  split <;> simp

@[simp] theorem boundary_board (s : State) (no : Nat) : (boundary s no).board = s.board :=
  boundaryWith_board _ (fun u k => arrive_board u k 1) s no

@[simp] theorem setKnot_board (s : State) (k : Nat) (counter target : BitVec 32) :
    (setKnot s k counter target).board = s.board := by
  unfold setKnot
  repeat' split
  all_goals simp

@[simp] theorem cycleOrEnd_board (s : State) (no : Nat) : (cycleOrEnd s no).board = s.board := by
  unfold cycleOrEnd
  split <;> simp

@[simp] theorem taskDone_board (s : State) (no t : Nat) : (taskDone s no t).board = s.board := by
  unfold taskDone
  split <;> simp

@[simp] theorem taskPart_board (s : State) (no t : Nat) : (taskPart s no t).board = s.board := by
  unfold taskPart
  split
  · rfl
  · split
    · rfl
    · split <;> simp

/-! ### Select -/

@[simp] theorem selectRun_board (s : State) (a : Adm) : (selectRun s a).board = s.board := by
  simp [selectRun]

@[simp] theorem execSelectTopk_board (cid : Nat) (s : State) : boardAfter s (execSelectTopk cid s) = s.board := by
  simp [execSelectTopk]

@[simp] theorem execSelectUnique_board (cid : Nat) (s : State) : boardAfter s (execSelectUnique cid s) = s.board := by
  simp [execSelectUnique]

@[simp] theorem execSelectArgmax_board (cid : Nat) (s : State) : boardAfter s (execSelectArgmax cid s) = s.board := by
  simp [execSelectArgmax]

/-! ### Versions -/

@[simp] theorem dropStream_board (s : State) (f id : Nat) : (dropStream s f id).board = s.board := by rfl

@[simp] theorem recordMutation_board (s : State) (a : Adm) (oid base : Nat) (m : Mutation) :
    (recordMutation s a oid base m).board = s.board := by
  simp [recordMutation]

@[simp] theorem forgetMutations_board (s : State) (oid : Nat) : (forgetMutations s oid).board = s.board := by
  simp [forgetMutations]

@[simp] theorem newTable_board (s : State) (o : Obj) : (newTable s o).board = s.board := by
  simp [newTable]

@[simp] theorem commitEdit_board (s : State) (a : Adm) (oid : Nat) (o : Obj) (e : Edit) (m : Mutation) (count : Nat) :
    (commitEdit s a oid o e m count).board = s.board := by
  unfold commitEdit
  split
  · simp
  · next h => simp [makeVersion_board h]

@[simp] theorem startBuild_board (s : State) (a : Adm) (oid : Nat) (o : Obj) (img : Mem × Nat) (makeCurrent : Bool) :
    (startBuild s a oid o img makeCurrent).board = s.board := by
  unfold startBuild
  simp only
  split
  · simp
  · split
    · simp
    · next h => simp [placeBuild_board h]

@[simp] theorem loadEnds_board (s : State) (a : Adm) (oid : Nat) (r : Result) :
    (loadEnds s a oid r).board = s.board := by
  simp [loadEnds]

@[simp] theorem loadRun_board (s : State) (a : Adm) (host : List Byte) (kindOk : Obj → Bool) (busy : Bool) :
    (loadRun s a host kindOk busy).board = s.board := by
  unfold loadRun
  simp only
  repeat' split
  all_goals simp

theorem placeReapplied_board {s t : State} {oid : Nat} {o : Obj} {b : Building} {e : Edit}
    (h : placeReapplied s oid o b e = some t) : t.board = s.board := by
  unfold placeReapplied at h
  rw [placeAll_board h]

@[simp] theorem switchBuild_board (s : State) (oid : Nat) (o : Obj) (b : Building) :
    (switchBuild s oid o b).board = s.board := by
  unfold switchBuild
  simp only
  split
  · simp
  · next h =>
    obtain ⟨e, -, hplace⟩ := Option.bind_eq_some_iff.1 h
    split_ifs at hplace
    obtain ⟨u, hu, hue⟩ := Option.map_eq_some_iff.1 hplace
    cases hue
    simp [placeReapplied_board hu]

@[simp] theorem execVersionSwitch_board (obj version : Nat) (s : State) :
    boardAfter s (execVersionSwitch obj version s) = s.board := by
  unfold execVersionSwitch
  repeat' split
  all_goals simp

/-! ### CollOps -/

@[simp] theorem sendPart_board (s : State) (c : Coll) (j : Nat) (bs : List Byte) :
    (sendPart s c j bs).board = s.board := by
  simp [sendPart]

@[simp] theorem sendParts_board (s : State) (c : Coll) : (sendParts s c).board = s.board := by
  simp [sendParts]

@[simp] theorem measureWait_board (s : State) (c : Coll) : (measureWait s c).board = s.board := by
  simp [measureWait]

@[simp] theorem tellMembers_board (s : State) (c : Coll) (st : Byte) : (tellMembers s c st).board = s.board := by
  simp [tellMembers]

@[simp] theorem sendDisagreement_board (s : State) (c : Coll) : (sendDisagreement s c).board = s.board := by
  simp [sendDisagreement]

@[simp] theorem putColl_board (s : State) (c : Coll) : (putColl s c).board = s.board := by rfl

@[simp] theorem dropColl_board (s : State) (c : Coll) : (dropColl s c).board = s.board := by rfl

@[simp] theorem closeColl_board (s : State) (c : Coll) : (closeColl s c).board = s.board := by rfl

@[simp] theorem collWord_board (s : State) (sh : Nat) (d : List Byte) (status count : Nat) :
    (collWord s sh d status count).board = s.board := by
  unfold collWord
  dsimp only
  repeat' split
  all_goals simp

@[simp] theorem collStore_board (s : State) (c : Coll) (bs : List Byte) : (collStore s c bs).1.board = s.board := by
  unfold collStore
  split
  · split
    · rfl
    · split
      · split
        · rfl
        · next h => split <;> simp [writeData_board h]
      · rfl
  · simp
  · rfl

@[simp] theorem collEnds_board (s : State) (c : Coll) (st : Byte) (count invalid : Nat) :
    (collEnds s c st count invalid).board = s.board := by
  unfold collEnds
  split <;> simp

@[simp] theorem deliver_board (s : State) (c : Coll) (bs : List Byte) : (deliver s c bs).board = s.board := by
  simp [deliver]

@[simp] theorem collDone_board (s : State) (c : Coll) (bs : List Byte) (invalid : Nat) :
    (collDone s c bs invalid).board = s.board := by
  unfold collDone
  dsimp only
  repeat' split
  all_goals simp

@[simp] theorem countMerge_board (s : State) (c : Coll) : (countMerge s c).board = s.board := by
  simp [countMerge]

@[simp] theorem collStep_board (s : State) (c : Coll) : (collStep s c).board = s.board := by
  unfold collStep
  dsimp only
  repeat' split
  all_goals simp

@[simp] theorem collStepAll_board (s : State) : (collStepAll s).board = s.board :=
  foldl_board _ (fun s c => by split <;> simp) _ s

@[simp] theorem collBegin_board (s : State) (c : Coll) : (collBegin s c).board = s.board := by
  simp [collBegin]

@[simp] theorem collForeign_board (s : State) (a : Adm) : (collForeign s a).board = s.board := by
  unfold collForeign
  split
  · split
    · simp
    · next h => simp [writeData_board h]
  · simp

@[simp] theorem execCollective_board (cid : Nat) (s : State) : boardAfter s (execCollective cid s) = s.board := by
  simp [execCollective]

@[simp] theorem collIssue_board (s : State) (sh no : Nat) (i : Instance) (d : List Byte) :
    (collIssue s sh no i d).board = s.board := by
  unfold collIssue
  split <;> simp

/-! ### Search -/

@[simp] theorem joinWindow_board (s : State) (a : Adm) (l : Nat) : (joinWindow s a l).board = s.board := by rfl

@[simp] theorem issueLists_board (s : State) (a : Adm) (i : Nat) (ls : List Nat) :
    (issueLists s a i ls).board = s.board := by
  simp [issueLists]

@[simp] theorem joinWindows_board (s : State) (a : Adm) : (joinWindows s a).board = s.board := by
  unfold joinWindows
  dsimp only
  repeat' split
  all_goals simp

@[simp] theorem searchRun_board (s : State) (a : Adm) (batch : Bool) : (searchRun s a batch).board = s.board := by
  simp [searchRun]

@[simp] theorem execSearch_board (cid : Nat) (s : State) : boardAfter s (execSearch cid s) = s.board := by
  simp [execSearch]

@[simp] theorem execSearchBatch_board (cid : Nat) (s : State) : boardAfter s (execSearchBatch cid s) = s.board := by
  simp [execSearchBatch]

@[simp] theorem execFilterEval_board (cid : Nat) (s : State) : boardAfter s (execFilterEval cid s) = s.board := by
  refine withCmd_board s cid _ _ (fun a => ?_)
  dsimp only
  repeat' split
  all_goals simp

@[simp] theorem execVersionInfo_board (cid : Nat) (s : State) : boardAfter s (execVersionInfo cid s) = s.board := by
  refine withCmd_board s cid _ _ (fun a => ?_)
  dsimp only
  repeat' split
  all_goals simp

/-! ### SchedOps -/

@[simp] theorem putSettings_board (s : State) (f : Nat) (c : Cmd) : (putSettings s f c).board = s.board := by
  simp [putSettings]

@[simp] theorem wake_board (s : State) (f : Nat) : (wake s f).board = s.board := by
  simp [wake]

@[simp] theorem wakeAll_board (s : State) : (wakeAll s).board = s.board := by
  simp [wakeAll]

@[simp] theorem queueReads_board (s : State) (a : Adm) : (queueReads s a).board = s.board := by
  unfold queueReads
  split <;> simp

@[simp] theorem enterPool_board (s : State) (c : Cmd) : (enterPool s c).board = s.board := by
  simp [enterPool]

@[simp] theorem chargeAdmission_board (s : State) (f : Nat) (c : Cmd) : (chargeAdmission s f c).board = s.board := by
  simp [chargeAdmission]

@[simp] theorem dequeue_board (s : State) (f : Nat) (host : Bool) : (dequeue s f host).board = s.board := by rfl

/-! ### Objects -/

@[simp] theorem execNop_board (cid : Nat) (s : State) : boardAfter s (execNop cid s) = s.board :=
  withCmd_board s cid _ _ (fun a => by simp)

@[simp] theorem execIdentify_board (cid : Nat) (s : State) : boardAfter s (execIdentify cid s) = s.board := by
  exact withCmd_board s cid _ _ (fun a => by simp)

@[simp] theorem execSchedSet_board (cid : Nat) (s : State) : boardAfter s (execSchedSet cid s) = s.board := by
  simp [execSchedSet]

@[simp] theorem execSchedGet_board (cid : Nat) (s : State) : boardAfter s (execSchedGet cid s) = s.board := by
  exact withCmd_board s cid _ _ (fun a => by simp)

@[simp] theorem execObjCreate_board (cid : Nat) (s : State) : boardAfter s (execObjCreate cid s) = s.board := by
  simp [execObjCreate]

@[simp] theorem execObjDestroy_board (cid : Nat) (s : State) : boardAfter s (execObjDestroy cid s) = s.board := by
  simp [execObjDestroy]

@[simp] theorem execObjWrite_board (cid : Nat) (host : List Byte) (s : State) :
    boardAfter s (execObjWrite cid host s) = s.board := by
  refine withCmd_board s cid _ _ (fun a => ?_)
  dsimp only
  repeat' split
  all_goals simp

@[simp] theorem execObjRead_board (cid : Nat) (s : State) : boardAfter s (execObjRead cid s) = s.board := by
  simp [execObjRead]

@[simp] theorem execObjCopy_board (cid : Nat) (s : State) : boardAfter s (execObjCopy cid s) = s.board := by
  simp [execObjCopy]

@[simp] theorem recordHint_board (s : State) (oid : Nat) (h : BitVec 8) : (recordHint s oid h).board = s.board := by
  unfold recordHint
  dsimp only
  repeat' split
  all_goals simp

@[simp] theorem execObjHint_board (cid : Nat) (s : State) : boardAfter s (execObjHint cid s) = s.board := by
  simp [execObjHint]

@[simp] theorem execObjInfo_board (cid : Nat) (s : State) : boardAfter s (execObjInfo cid s) = s.board := by
  refine withCmd_board s cid _ _ (fun a => ?_)
  dsimp only
  repeat' split
  all_goals simp

@[simp] theorem grantOutcome_board (s : State) (a : Adm) : (grantOutcome s a).board = s.board := by
  simp [grantOutcome]

@[simp] theorem applyGrant_board (s : State) (a : Adm) : (applyGrant s a).board = s.board := by
  simp [applyGrant]

@[simp] theorem execObjGrant_board (cid : Nat) (s : State) : boardAfter s (execObjGrant cid s) = s.board := by
  simp [execObjGrant]

@[simp] theorem execObjRevoke_board (cid : Nat) (s : State) : boardAfter s (execObjRevoke cid s) = s.board := by
  simp [execObjRevoke]

@[simp] theorem execHostReadError_board (cid : Nat) (arrived : List Byte) (s : State) (err : ReadError) :
    boardAfter s (execHostReadError cid arrived s err) = s.board := by
  unfold execHostReadError
  dsimp only
  split
  · rfl
  · simp only [boardAfter_ite]
    refine ite_eq_of_branches (by simp) (ite_eq_of_branches (by simp) (ite_eq_of_branches (by simp) ?_))
    split
    · rw [boardAfter_ite]
      refine ite_eq_of_branches (by simp) ?_
      split
      · simp
      · next h => simp [writeData_board h]
    · simp

/-! ### SpindleOps -/

theorem bringVersion_board {s t : State} {oid ver g : Nat} (h : bringVersion s oid ver g = some t) :
    t.board = s.board := by
  unfold bringVersion at h
  split at h
  · cases h; rfl
  · split_ifs at h <;> cases h <;> simp

theorem bringNear_board {s t : State} {oid g : Nat} (h : bringNear s oid g = some t) : t.board = s.board :=
  bringVersion_board h

theorem bringAll_board {s t : State} {gs : List (Nat × Nat)} (h : bringAll s gs = some t) : t.board = s.board := by
  induction gs generalizing s with
  | nil => cases h; rfl
  | cons g gs ih =>
    unfold bringAll at h
    split at h
    · next hone => rw [ih h, bringNear_board hone]
    · cases h

@[simp] theorem segWrite_board (s : State) (f : Nat) (x : Seg) (bs : List Byte) :
    (segWrite s f x bs).board = s.board := by
  unfold segWrite
  split <;> simp

@[simp] theorem segArrive_board (s : State) (f : Nat) (x : Seg) : (segArrive s f x).board = s.board := by
  simp [segArrive]

@[simp] theorem updChan_board (s : State) (c : Nat) (g : Chan → Chan) : (updChan s c g).board = s.board := by rfl

@[simp] theorem runOffChannel_board (s : State) (f : Nat) (x : Seg) : (runOffChannel s f x).board = s.board := by
  unfold runOffChannel
  split <;> simp

@[simp] theorem queueSegment_board (s : State) (c : Nat) (g : Segment) : (queueSegment s c g).board = s.board := by rfl

@[simp] theorem takeSegment_board (s : State) (f : Nat) (owner : Nat ⊕ Nat) (index : Nat) (d : List Byte) :
    (takeSegment s f owner index d).1.board = s.board := by
  unfold takeSegment
  simp only
  split
  · simp
  · split <;> simp

@[simp] theorem updSequence_board (s : State) (cid : Nat) (g : Sequence → Sequence) :
    (updSequence s cid g).board = s.board := by rfl

@[simp] theorem sequenceOn_board (s : State) (cid f : Nat) : (sequenceOn s cid f).board = s.board := by
  unfold sequenceOn
  split <;> simp

@[simp] theorem sequenceStep_board (s : State) (g : Segment) (rows : Nat) :
    (sequenceStep s g rows).board = s.board := by
  unfold sequenceStep
  split <;> simp

@[simp] theorem startSequence_board (s : State) (a : Adm) (ds : List (List Byte)) :
    (startSequence s a ds).board = s.board := by
  unfold startSequence
  simp only
  split
  · rfl
  · split
    · simp
    · next h =>
      split
      · simp
      · split
        · simp
        · simp [bringAll_board h]

@[simp] theorem execSpindleRun_board (cid : Nat) (s : State) : boardAfter s (execSpindleRun cid s) = s.board := by
  simp [execSpindleRun]

@[simp] theorem startSegment_board (s : State) (ch : Nat) : (startSegment s ch).board = s.board := by
  unfold startSegment
  dsimp only
  repeat' split
  all_goals simp

@[simp] theorem execSegmentStart_board (ch : Nat) (s : State) : boardAfter s (execSegmentStart ch s) = s.board := by
  simp [execSegmentStart]

@[simp] theorem execSegmentEnd_board (ch : Nat) (s : State) : boardAfter s (execSegmentEnd ch s) = s.board := by
  unfold execSegmentEnd
  dsimp only
  repeat' split
  all_goals simp

@[simp] theorem execSegmentStop_board (ch : Nat) (s : State) : boardAfter s (execSegmentStop ch s) = s.board := by
  unfold execSegmentStop
  dsimp only
  repeat' split
  all_goals simp

@[simp] theorem execChannelExitEnd_board (ch holdNs : Nat) (s : State) :
    boardAfter s (execChannelExitEnd ch holdNs s) = s.board := by
  simp [execChannelExitEnd]

@[simp] theorem execRefreshDue_board (ch : Nat) (s : State) : boardAfter s (execRefreshDue ch s) = s.board := by
  simp [execRefreshDue]

@[simp] theorem execGapEnd_board (ch : Nat) (s : State) : boardAfter s (execGapEnd ch s) = s.board := by
  simp [execGapEnd]

@[simp] theorem queueScan_board (s : State) (a : Adm) (oid stride : Nat) (parts : List (Nat × Nat × Nat)) :
    (queueScan s a oid stride parts).board = s.board := by
  simp [queueScan]

/-! ### Rank -/

@[simp] theorem answerPart_board (s : State) (src f ctx : Nat) (bs : List Byte) :
    (answerPart s src f ctx bs).board = s.board := by
  simp [answerPart]

@[simp] theorem cacheParts_board (s : State) (f image member : Nat) (parts : List (Nat × List Word)) :
    (cacheParts s f image member parts).board = s.board := by
  unfold cacheParts
  rfl

@[simp] theorem touchParts_board (s : State) (f image member : Nat) (rows : List Nat) :
    (touchParts s f image member rows).board = s.board := by rfl

@[simp] theorem dropRank_board (s : State) (cid : Nat) : (dropRank s cid).board = s.board := by rfl

@[simp] theorem rankFails_board (s : State) (cid : Nat) (st : Byte) : (rankFails s cid st).board = s.board := by rfl

@[simp] theorem rankFinish_board (s : State) (a : Adm) (ps : List PartFrom) : (rankFinish s a ps).board = s.board := by
  unfold rankFinish
  dsimp only
  refine (apply_ite State.board _ _ _).trans (ite_eq_of_branches (by simp) ?_)
  simp only [finish_board, dropRank_board, countSpill_board, countKeys_board]
  exact foldl_board _ (fun s p => by split <;> simp) _ s

@[simp] theorem rankStep_board (s : State) (cid : Nat) : (rankStep s cid).board = s.board := by
  unfold rankStep
  split <;> simp

@[simp] theorem rankStepAll_board (s : State) : (rankStepAll s).board = s.board := by
  simp [rankStepAll]

@[simp] theorem askPart_board (s : State) (c : Coll) (ver : Nat) (rows : List Nat) (i : Nat) :
    (askPart s c ver rows i).board = s.board := by
  simp [askPart]

@[simp] theorem seqQueue_board (s : State) (a : Adm) (m : Mem) (oid : Nat) : (seqQueue s a m oid).board = s.board := by
  unfold seqQueue
  dsimp only
  rw [board_ite]
  refine ite_eq_of_branches rfl ?_
  rw [updAdm_board, board_ite]
  refine ite_eq_of_branches rfl ?_
  cases h : bringAll s ((rangeGranules 0 (seqBytes m)).map (fun g => (oid, g))) with
  | none => rfl
  | some t => simp [bringAll_board h]

@[simp] theorem execRank_board (cid : Nat) (s : State) : boardAfter s (execRank cid s) = s.board := by
  simp [execRank]

@[simp] theorem cacheAccepted_board (s : State) (a : Adm) (member : Nat) :
    (cacheAccepted s a member).board = s.board := by
  unfold cacheAccepted
  split
  · rfl
  · exact cacheParts_board s _ _ _ _

@[simp] theorem rankContribution_board (s : State) (src f ctx member : Nat) (epoch : Word) (offset : Nat)
    (head bs : List Byte) :
    (rankContribution s src f ctx member epoch offset head bs).board = s.board := by
  unfold rankContribution
  repeat' split
  all_goals simp

/-! ### Tables -/

@[simp] theorem execTableCreate_board (cid : Nat) (s : State) : boardAfter s (execTableCreate cid s) = s.board := by
  simp [execTableCreate]

@[simp] theorem execTableLoad_board (cid : Nat) (host : List Byte) (s : State) :
    boardAfter s (execTableLoad cid host s) = s.board := by
  simp [execTableLoad]

@[simp] theorem gatherEnd_board (s : State) (a : Adm) (rows : List Byte) (ver : Nat) (td : Target) :
    (gatherEnd s a rows ver td).board = s.board := by
  unfold gatherEnd
  dsimp only
  split
  · split <;> simp
  · split
    · split
      · simp
      · next h => split <;> simp [writeData_board h]
    · simp

@[simp] theorem execGather_board (cid : Nat) (s : State) : boardAfter s (execGather cid s) = s.board := by
  refine withCmd_board s cid _ _ (fun a => ?_)
  dsimp only
  rw [board_ite, board_ite]
  refine ite_eq_of_branches (by simp) (ite_eq_of_branches (by simp) ?_)
  split
  · simp
  · split
    · simp
    · simp

@[simp] theorem updateTable_board (s : State) (a : Adm) (o : Obj) (t : Tbl) (tg : Target) :
    (updateTable s a o t tg).board = s.board := by
  simp [updateTable]

@[simp] theorem execRowUpdate_board (cid : Nat) (s : State) : boardAfter s (execRowUpdate cid s) = s.board := by
  refine withCmd_board s cid _ _ (fun a => ?_)
  dsimp only
  rw [board_ite, board_ite, board_ite]
  refine ite_eq_of_branches rfl (ite_eq_of_branches (by simp) (ite_eq_of_branches (by simp) ?_))
  split
  · split <;> simp
  · simp

@[simp] theorem execHotRowsSet_board (cid : Nat) (s : State) : boardAfter s (execHotRowsSet cid s) = s.board := by
  refine withCmd_board s cid _ _ (fun a => ?_)
  dsimp only
  repeat' split
  all_goals simp

/-! ### Pcie -/

@[simp] theorem endRequests_board (s : State) (f : Nat) : (endRequests s f).board = s.board := by
  unfold endRequests
  simp only [freeAll_board, leaveWindows_board, updFn_board]
  rw [foldl_board _ (fun s c => tellMembers_board s c stNoObject), foldl_board _ (fun s c => by split <;> simp)]

@[simp] theorem stopPrograms_board (s : State) (f : Nat) : (stopPrograms s f).board = s.board := by rfl

@[simp] theorem dropPrograms_board (s : State) (f : Nat) : (dropPrograms s f).board = s.board := by
  simp [dropPrograms]

@[simp] theorem destroyAll_board (s : State) (f : Nat) : (destroyAll s f).board = s.board := by
  simp [destroyAll]

@[simp] theorem flrFinish_board (s : State) (f : Nat) : (flrFinish s f).board = s.board := by
  simp [flrFinish]

@[simp] theorem flrFinishAll_board (s : State) : (flrFinishAll s).board = s.board := by
  simp [flrFinishAll]

@[simp] theorem execLinkDown_board (s : State) : boardAfter s (execLinkDown s) = s.board := by
  simp [execLinkDown]

@[simp] theorem execHotReset_board (s : State) : boardAfter s (execHotReset s) = s.board := by
  simp [execHotReset]

@[simp] theorem execFunctionLevelReset_board (f : Fn) (s : State) :
    boardAfter s (execFunctionLevelReset f s) = s.board := by
  simp [execFunctionLevelReset]

@[simp] theorem execFlrComplete_board (f : Fn) (s : State) : boardAfter s (execFlrComplete f s) = s.board := by
  simp [execFlrComplete]

@[simp] theorem execVfEnable_board (s : State) : boardAfter s (execVfEnable s) = s.board := by
  simp [execVfEnable]

@[simp] theorem execVfDisable_board (s : State) : boardAfter s (execVfDisable s) = s.board := by
  simp [execVfDisable]

@[simp] theorem execPowerStateWrite_board (f : Fn) (v : BitVec 2) (s : State) :
    boardAfter s (execPowerStateWrite f v s) = s.board := by
  simp [execPowerStateWrite]

@[simp] theorem execL1Entry_board (s : State) : boardAfter s (execL1Entry s) = s.board := by
  simp [execL1Entry]

@[simp] theorem takeDoe_board (s t : State) (f : Nat) : (takeDoe s t f).board = t.board := by
  unfold takeDoe
  split
  · simp
  · rfl

@[simp] theorem execConfigRequest_board (f : Fn) (acc : CfgAccess) (s : State) :
    boardAfter s (execConfigRequest f acc s) = s.board := by
  unfold execConfigRequest
  repeat' split
  all_goals simp

@[simp] theorem execPoisonedTlp_board (f : Fn) (err : LinkError) (s : State) :
    boardAfter s (execPoisonedTlp f err s) = s.board := by
  unfold execPoisonedTlp
  repeat' split
  all_goals simp

@[simp] theorem execDoeRequest_board (f : Fn) (len : Nat) (s : State) (obj : DoeObject) :
    boardAfter s (execDoeRequest f len s obj) = s.board := by
  unfold execDoeRequest
  repeat' split
  all_goals simp

@[simp] theorem execDoeAbort_board (f : Fn) (s : State) : boardAfter s (execDoeAbort f s) = s.board := by
  simp [execDoeAbort]

@[simp] theorem execSpdmRequest_board (f : Fn) (req : SpdmReq) (s : State) :
    boardAfter s (execSpdmRequest f req s) = s.board := by
  unfold execSpdmRequest
  repeat' split
  all_goals simp

@[simp] theorem execGetPqCert_board (f : Fn) (offset length : Nat) (s : State) :
    boardAfter s (execGetPqCert f offset length s) = s.board := by
  simp [execGetPqCert]

@[simp] theorem execGetPqSig_board (f : Fn) (s : State) : boardAfter s (execGetPqSig f s) = s.board := by
  unfold execGetPqSig
  split
  · rfl
  · split <;> simp

@[simp] theorem execSetKek_board (f : Fn) (secured : Bool) (key : BitVec 256) (s : State) :
    boardAfter s (execSetKek f secured key s) = s.board := by
  simp [execSetKek]

@[simp] theorem execSetCompositionKey_board (f : Fn) (secured : Bool) (key : BitVec 256) (s : State) :
    boardAfter s (execSetCompositionKey f secured key s) = s.board := by
  simp [execSetCompositionKey]

@[simp] theorem execSetNodeKey_board (f : Fn) (secured : Bool) (key : BitVec 256) (s : State) :
    boardAfter s (execSetNodeKey f secured key s) = s.board := by
  simp [execSetNodeKey]

@[simp] theorem execPcieLinkUp_board (rate width : Nat) (s : State) (partnerFlit : Bool) :
    boardAfter s (execPcieLinkUp rate width s partnerFlit) = s.board := by
  simp [execPcieLinkUp]

/-! ### Window -/

@[simp] theorem updSlot_board (s : State) (f k : Nat) (g : Slot → Slot) : (updSlot s f k g).board = s.board := by rfl

@[simp] theorem commitSlot_board (s : State) (f k n : Nat) : (commitSlot s f k n).board = s.board := by rfl

@[simp] theorem windowPart_board (s : State) (f k off : Nat) (bs : List Byte) :
    (windowPart s f k off bs).board = s.board := by
  unfold windowPart
  dsimp only
  repeat' split
  all_goals simp

@[simp] theorem execCommandWindowWrite_board (f : Fn) (offset : Nat) (data : List Byte) (s : State) :
    boardAfter s (execCommandWindowWrite f offset data s) = s.board := by
  simp [execCommandWindowWrite]

@[simp] theorem execRingEnable_board (f : Fn) (value : BitVec 32) (s : State) :
    boardAfter s (execRingEnable f value s) = s.board := by
  simp [execRingEnable]

@[simp] theorem execRingDisable_board (f : Fn) (value : BitVec 32) (s : State) :
    boardAfter s (execRingDisable f value s) = s.board := by
  simp [execRingDisable]

@[simp] theorem execRingHeadWrite_board (f : Fn) (value : BitVec 32) (s : State) :
    boardAfter s (execRingHeadWrite f value s) = s.board := by
  simp [execRingHeadWrite]

@[simp] theorem writeRecord_board (s : State) (f : Nat) (fields : List (Nat × Nat × Nat)) (kind : Nat) :
    (writeRecord s f fields kind).board = s.board := by rfl

@[simp] theorem execEventRecordWrite_board (f : Fn) (s : State) :
    boardAfter s (execEventRecordWrite f s) = s.board := by
  unfold execEventRecordWrite
  dsimp only
  repeat' split
  all_goals simp

@[simp] theorem execCoalesceTimeout_board (f : Fn) (s : State) : boardAfter s (execCoalesceTimeout f s) = s.board := by
  simp [execCoalesceTimeout]

@[simp] theorem execMsixUnmask_board (f : Fn) (vector : Nat) (s : State) :
    boardAfter s (execMsixUnmask f vector s) = s.board := by
  simp [execMsixUnmask]

@[simp] theorem execApply_board (f : Fn) (s : State) : boardAfter s (execApply f s) = s.board := by
  simp [execApply]

/-! ### Admission -/

@[simp] theorem execCommandAdmit_board (s : State) : boardAfter s (execCommandAdmit s) = s.board := by
  unfold execCommandAdmit
  dsimp only
  split
  · simp
  · split <;> simp

@[simp] theorem countEnd_board (s : State) (c : Cmd) (r : Result) : (countEnd s c r).board = s.board := by rfl

@[simp] theorem replyTo_board (s : State) (c : Cmd) (r : Result) : (replyTo s c r).board = s.board := by
  unfold replyTo
  split <;> simp

@[simp] theorem endCommand_board (s : State) (c : Cmd) (r : Result) : (endCommand s c r).board = s.board := by
  simp [endCommand]

@[simp] theorem execQueuedDeadline_board (cid : Nat) (s : State) :
    boardAfter s (execQueuedDeadline cid s) = s.board := by
  unfold execQueuedDeadline
  repeat' split
  all_goals simp

@[simp] theorem stopWaiting_board (s : State) (cid : Nat) : (stopWaiting s cid).board = s.board := by rfl

@[simp] theorem execDeadlineExpire_board (cid : Nat) (consumed : List Nat) (s : State) :
    boardAfter s (execDeadlineExpire cid consumed s) = s.board := by
  unfold execDeadlineExpire
  dsimp only
  repeat' split
  all_goals simp

@[simp] theorem settle_board (s : State) (a : Adm) (r : Result) : (settle s a r).board = s.board := by
  unfold settle
  split <;> simp

@[simp] theorem execShaperRefill_board (s : State) : boardAfter s (execShaperRefill s) = s.board := by rfl

@[simp] theorem execQueueSample_board (s : State) : boardAfter s (execQueueSample s) = s.board := by rfl

/-! ### ArrayOps -/

@[simp] theorem enqueueDesc_board (s : State) (loom f no : Nat) (task : Option Nat) (bad : Bool) (desc : List Byte) :
    (enqueueDesc s loom f no task bad desc).board = s.board := by
  simp [enqueueDesc]

@[simp] theorem descEnds_board (s : State) (loom : Nat) (d : ArrayDesc) (status rows : Nat) :
    (descEnds s loom d status rows).board = s.board := by
  unfold descEnds
  repeat' split
  all_goals simp

@[simp] theorem chargeArrays_board (s : State) (d : ArrayDesc) (rows : Nat) :
    (chargeArrays s d rows).board = s.board := by
  simp [chargeArrays]

@[simp] theorem descRun_board (s : State) (loom : Nat) (d : ArrayDesc) : (descRun s loom d).board = s.board := by
  simp [descRun]

@[simp] theorem descError_board (s : State) (loom : Nat) (d : ArrayDesc) (e : Ecc) :
    (descError s loom d e).board = s.board := by
  simp [descError]

@[simp] theorem execDescriptorComplete_board (loom : Nat) (ecc : Ecc) (s : State) :
    boardAfter s (execDescriptorComplete loom ecc s) = s.board := by
  unfold execDescriptorComplete
  split <;> simp

@[simp] theorem execRiseAdmit_board (loom array : Nat) (power : Bool) (s : State) :
    boardAfter s (execRiseAdmit loom array power s) = s.board := by
  simp [execRiseAdmit]

/-! ### Board -/

@[simp] theorem execTrigIn_board (s : State) : boardAfter s (execTrigIn s) = s.board := by
  simp [execTrigIn]

@[simp] theorem execRefclkStable_board (s : State) : boardAfter s (execRefclkStable s) = s.board := by rfl

/-! ### Health -/

@[simp] theorem sendReport_board (s : State) (kind : Nat) (body : List Byte) :
    (sendReport s kind body).board = s.board := by
  simp [sendReport]

/-! ### Power -/

@[simp] theorem execPowerCap_board (cid : Nat) (s : State) : boardAfter s (execPowerCap cid s) = s.board := by
  exact withCmd_board s cid _ _ (fun a => by simp)

@[simp] theorem allChannels_board (s : State) (st : ChanState) : (allChannels s st).board = s.board := by
  unfold allChannels
  rfl

@[simp] theorem execEnterBanked_board (cid : Nat) (s : State) : boardAfter s (execEnterBanked cid s) = s.board := by
  simp [execEnterBanked]

@[simp] theorem execEnterDormant_board (cid : Nat) (s : State) : boardAfter s (execEnterDormant cid s) = s.board := by
  simp [execEnterDormant]

@[simp] theorem execPrivPartition_board (cid : Nat) (s : State) : boardAfter s (execPrivPartition cid s) = s.board := by
  simp [execPrivPartition]

@[simp] theorem execEnergyRead_board (cid : Nat) (s : State) : boardAfter s (execEnergyRead cid s) = s.board := by
  exact withCmd_board s cid _ _ (fun a => by simp)

@[simp] theorem execHealthRead_board (cid : Nat) (s : State) : boardAfter s (execHealthRead cid s) = s.board := by
  exact withCmd_board s cid _ _ (fun a => by simp)

@[simp] theorem execSnapshotFire_board (cid : Nat) (s : State) : boardAfter s (execSnapshotFire cid s) = s.board := by
  simp [execSnapshotFire]

@[simp] theorem execSelfTest_board (cid : Nat) (passed : BitVec 32) (us : Nat)
    (measured : List (Nat × BitVec 32)) (s : State) :
    boardAfter s (execSelfTest cid passed us measured s) = s.board := by
  simp [execSelfTest]

@[simp] theorem execKindlingExit_board (cid : Nat) (s : State) : boardAfter s (execKindlingExit cid s) = s.board := by
  simp [execKindlingExit]

/-! ### Regs -/

@[simp] theorem regClear_board (s : State) (f off : Nat) (lo hi : Bool) : (regClear s f off lo hi).board = s.board := by
  simp [regClear]

@[simp] theorem readReg_board (s : State) (f off size : Nat) : (readReg s f off size).board = s.board := by
  simp [readReg]

@[simp] theorem fnWrite_board (s : State) (f off size v : Nat) : (fnWrite s f off size v).board = s.board := by
  simp [fnWrite]

@[simp] theorem devWrite_board (s : State) (off size v : Nat) : (devWrite s off size v).board = s.board := by
  simp [devWrite]

@[simp] theorem writeReg_board (s : State) (f off size v : Nat) : (writeReg s f off size v).board = s.board := by
  simp [writeReg]

@[simp] theorem execReadClear_board (f : Fn) (offset size : Nat) (s : State) :
    boardAfter s (execReadClear f offset size s) = s.board := by
  simp [execReadClear]

@[simp] theorem execQsampleCountRead_board (target : Fn) (s : State) :
    boardAfter s (execQsampleCountRead target s) = s.board := by
  simp [execQsampleCountRead]

@[simp] theorem execRegisterWrite_board (f : Fn) (offset size : Nat) (value : DWord) (s : State) :
    boardAfter s (execRegisterWrite f offset size value s) = s.board := by
  simp [execRegisterWrite]

@[simp] theorem execRearm_board (s : State) : boardAfter s (execRearm s) = s.board := by rfl

/-! ### Draught -/

@[simp] theorem execMonitorSample_board (readings : List Nat) (s : State) :
    boardAfter s (execMonitorSample readings s) = s.board := by rfl

@[simp] theorem execDroopEvent_board (bolt depthMv : Nat) (s : State) :
    boardAfter s (execDroopEvent bolt depthMv s) = s.board := by
  simp [execDroopEvent]

@[simp] theorem execDroopFloor_board (s : State) : boardAfter s (execDroopFloor s) = s.board := by rfl

@[simp] theorem execEfficiencyMeasure_board (etaMilli : Nat) (s : State) :
    boardAfter s (execEfficiencyMeasure etaMilli s) = s.board := by rfl

@[simp] theorem execVloomStep_board (s : State) : boardAfter s (execVloomStep s) = s.board := by
  simp [execVloomStep]

@[simp] theorem execEnergyInterval_board (inputNj : Nat) (s : State) :
    boardAfter s (execEnergyInterval inputNj s) = s.board := by
  unfold execEnergyInterval
  exact foldl_board (fun s (e : Nat × Nat) => updFn s e.1 (fun x => { x with energyNj := x.energyNj + e.2 }))
    (fun s e => rfl) _ _

@[simp] theorem execAgeingHour_board (ratios : List Nat) (s : State) :
    boardAfter s (execAgeingHour ratios s) = s.board := by rfl

@[simp] theorem execMarginReplan_board (floorMv : Nat) (s : State) :
    boardAfter s (execMarginReplan floorMv s) = s.board := by
  simp [execMarginReplan]

@[simp] theorem execJunctionCapStep_board (s : State) : boardAfter s (execJunctionCapStep s) = s.board := by rfl

@[simp] theorem execPaceStep_board (s : State) : boardAfter s (execPaceStep s) = s.board := by
  simp [execPaceStep]

@[simp] theorem execIoRateChange_board (stack level : Nat) (s : State) :
    boardAfter s (execIoRateChange stack level s) = s.board := by
  simp [execIoRateChange]

@[simp] theorem execFlashRateChange_board (channel level : Nat) (s : State) :
    boardAfter s (execFlashRateChange channel level s) = s.board := by
  simp [execFlashRateChange]

@[simp] theorem beginRemoval_board (s : State) : (beginRemoval s).board = s.board := by
  simp [beginRemoval]

@[simp] theorem execBankedExit_board (s : State) : boardAfter s (execBankedExit s) = s.board := by
  simp [execBankedExit]

/-! ### FabricIn -/

theorem takeSeq_board {s t : State} {f key src : Nat} {seq : BitVec 32} (h : takeSeq s f key src seq = some t) :
    t.board = s.board := by
  unfold takeSeq at h
  dsimp only at h
  split_ifs at h
  cases h
  rfl

@[simp] theorem ackPacket_board (s : State) (src f : Nat) (seq : BitVec 32) :
    (ackPacket s src f seq).board = s.board := by
  simp [ackPacket]

@[simp] theorem withPacket_board (s : State) (p : Packet) (compressible room : Bool) (act : State → State)
    (h : ∀ u, (act u).board = u.board) : boardAfter s (withPacket s p compressible room act) = s.board := by
  unfold withPacket
  split
  · rfl
  · split
    · simp
    · split
      · simp
      · next hseq => split <;> simp [h, takeSeq_board hseq]

@[simp] theorem withNodePacket_board (s : State) (src : Nat) (seq : BitVec 32) (act : State → State)
    (h : ∀ u, (act u).board = u.board) : boardAfter s (withNodePacket s src seq act) = s.board := by
  unfold withNodePacket
  split
  · rfl
  · split
    · simp
    · next hseq => simp [h, takeSeq_board hseq]

@[simp] theorem withComposition_board (s : State) (src : Nat) (seq : BitVec 32) (act : State → State)
    (h : ∀ u, (act u).board = u.board) : boardAfter s (withComposition s src seq act) = s.board := by
  unfold withComposition
  split
  · rfl
  · split
    · simp
    · next hseq => simp [h, takeSeq_board hseq]

@[simp] theorem putInbox_board (s : State) (kind : Nat) (p : Packet) (extra : List Nat) :
    (putInbox s kind p extra).1.board = s.board := by rfl

@[simp] theorem dropInbox_board (s : State) (b : Inbox) : (dropInbox s b).board = s.board := by rfl

@[simp] theorem noteDomain_board (s : State) (f id : Nat) (epoch : BitVec 32) (node : BitVec 16) (old : BitVec 32) :
    (noteDomain s f id epoch node old).board = s.board := by rfl

@[simp] theorem reissue_board (s : State) (f id : Nat) : (reissue s f id).board = s.board := by rfl

@[simp] theorem learnEpoch_board (s : State) (f id : Nat) (epoch : BitVec 32) (node : BitVec 16) :
    (learnEpoch s f id epoch node).board = s.board := by
  simp [learnEpoch]

@[simp] theorem setCseq_board (s : State) (cseq : BitVec 32) (always : Bool) :
    (setCseq s cseq always).board = s.board := by rfl

@[simp] theorem applyNode_board (s : State) (number runtime : BitVec 16) (reportMs : BitVec 32) :
    (applyNode s number runtime reportMs).board = s.board := by rfl

@[simp] theorem applyRoute_board (s : State) (first count : Nat) (mask : BitVec 16) :
    (applyRoute s first count mask).board = s.board := by rfl

@[simp] theorem applyTenant_board (s : State) (f : Nat) (features : BitVec 32) :
    (applyTenant s f features).board = s.board := by rfl

@[simp] theorem applyDrain_board (s : State) (fn : Option Nat) (on : Bool) : (applyDrain s fn on).board = s.board := by
  unfold applyDrain
  split <;> rfl

@[simp] theorem applyMessage_board (s : State) (m : List Byte) : (applyMessage s m).board = s.board := by
  unfold applyMessage
  repeat' split
  all_goals simp

@[simp] theorem compose_board (s : State) (m : List Byte) (always : Bool) : (compose s m always).board = s.board := by
  simp [compose]

@[simp] theorem sendCarried_board (s : State) (a : Adm) (dst : Nat) (epoch : BitVec 32) :
    (sendCarried s a dst epoch).board = s.board := by
  simp [sendCarried]

theorem installOne_board {s t : State} {f : Nat} {epoch : BitVec 32} {c : Copied}
    (h : installOne s f epoch c = some t) :
    t.board = s.board := by
  unfold installOne at h
  exact (placeAll_board h).trans (by simp)

/-- A fold of copies that have not found room stays without room. -/
theorem foldl_installOne_none (f : Nat) (epoch : BitVec 32) (cs : List Copied) :
    cs.foldl (fun s c => s.bind (fun s => installOne s f epoch c)) none = none := by
  induction cs with
  | nil => rfl
  | cons c cs ih => exact ih

theorem installCopy_board {s t : State} {f : Nat} {epoch : BitVec 32} {cs : List Copied}
    (h : installCopy s f epoch cs = some t) : t.board = s.board := by
  unfold installCopy at h
  split at h
  · cases h
  · clear * - h
    induction cs generalizing s with
    | nil => cases h; rfl
    | cons c cs ih =>
      rw [List.foldl_cons, Option.bind_some] at h
      cases hone : installOne s f epoch c with
      | none => rw [hone, foldl_installOne_none] at h; cases h
      | some u =>
        rw [hone] at h
        rw [ih h, installOne_board hone]

@[simp] theorem answerCopy_board (s : State) (src f id : Nat) (st : Byte) :
    (answerCopy s src f id st).board = s.board := by
  simp [answerCopy]

@[simp] theorem installDomain_board (s : State) (src f id : Nat) (epoch : BitVec 32) :
    (installDomain s src f id epoch).board = s.board := by
  unfold installDomain
  split
  · rfl
  · split
    · rfl
    · simp only
      split
      · simp
      · next h => simp [installCopy_board h]

/-! ### FabricCmd -/

@[simp] theorem execGroupCreate_board (cid : Nat) (s : State) : boardAfter s (execGroupCreate cid s) = s.board := by
  simp [execGroupCreate]

@[simp] theorem execGroupDestroy_board (cid : Nat) (s : State) : boardAfter s (execGroupDestroy cid s) = s.board := by
  refine withCmd_board s cid _ _ (fun a => ?_)
  dsimp only
  repeat' split
  all_goals simp

@[simp] theorem execFabricRequest_board (cid : Nat) (s : State) : boardAfter s (execFabricRequest cid s) = s.board := by
  simp [execFabricRequest]

@[simp] theorem execCompose_board (cid : Nat) (s : State) : boardAfter s (execCompose cid s) = s.board := by
  simp [execCompose]

@[simp] theorem execMigrate_board (cid : Nat) (s : State) : boardAfter s (execMigrate cid s) = s.board := by
  simp [execMigrate]

@[simp] theorem execPortStatus_board (cid : Nat) (s : State) : boardAfter s (execPortStatus cid s) = s.board := by
  exact withCmd_board s cid _ _ (fun a => by simp)

@[simp] theorem execCutover_board (cid : Nat) (s : State) : boardAfter s (execCutover cid s) = s.board := by
  unfold execCutover
  split <;> simp

/-! ### FabricRows -/

@[simp] theorem setPortState_board (s : State) (p : Nat) (st : PortState) :
    (setPortState s p st).board = s.board := by rfl

@[simp] theorem portDown_board (s : State) (p : Nat) : (portDown s p).board = s.board := by
  simp [portDown]

@[simp] theorem unreachableEnds_board (s : State) (dst : Nat) : (unreachableEnds s dst).board = s.board := by
  simp [unreachableEnds]

@[simp] theorem portLost_board (s : State) (p : Nat) : (portLost s p).board = s.board := by
  simp [portLost]

@[simp] theorem execPortDetect_board (port : Nat) (s : State) : boardAfter s (execPortDetect port s) = s.board := by
  simp [execPortDetect]

@[simp] theorem execEqualiseEnd_board (port : Nat) (lanes : BitVec 4) (s : State) :
    boardAfter s (execEqualiseEnd port lanes s) = s.board := by
  simp [execEqualiseEnd]

@[simp] theorem execAlignEnd_board (port : Nat) (peer : BitVec 16) (s : State) :
    boardAfter s (execAlignEnd port peer s) = s.board := by
  simp [execAlignEnd]

@[simp] theorem execPortTrainTimeout_board (port : Nat) (s : State) :
    boardAfter s (execPortTrainTimeout port s) = s.board := by
  unfold execPortTrainTimeout
  split <;> simp

@[simp] theorem execPortDownRetry_board (port : Nat) (s : State) :
    boardAfter s (execPortDownRetry port s) = s.board := by
  simp [execPortDownRetry]

@[simp] theorem startRetrain_board (s : State) (port : Nat) : (startRetrain s port).board = s.board := by rfl

@[simp] theorem execRetrain_board (port : Nat) (s : State) : boardAfter s (execRetrain port s) = s.board := by
  simp [execRetrain]

@[simp] theorem execRetrainEnd_board (port : Nat) (active : Bool) (s : State) :
    boardAfter s (execRetrainEnd port active s) = s.board := by
  unfold execRetrainEnd
  dsimp only
  repeat' split
  all_goals simp

@[simp] theorem askReplay_board (s : State) (port : Nat) (fseq : BitVec 16) :
    (askReplay s port fseq).board = s.board := by
  simp [askReplay]

@[simp] theorem execFlitReceive_board (port : Nat) (flit : Flit) (s : State) :
    boardAfter s (execFlitReceive port flit s) = s.board := by
  simp [execFlitReceive]

@[simp] theorem execReplayRequest_board (port : Nat) (fseq : BitVec 16) (s : State) :
    boardAfter s (execReplayRequest port fseq s) = s.board := by
  simp [execReplayRequest]

@[simp] theorem execCreditReturn_board (port : Nat) (control : Bool) (n : Nat) (s : State) :
    boardAfter s (execCreditReturn port control n s) = s.board := by
  simp [execCreditReturn]

@[simp] theorem commitCarried_board (s : State) (src f ctx us : Nat) (bs : List Byte) :
    (commitCarried s src f ctx us bs).board = s.board := by
  simp [commitCarried]

@[simp] theorem execRequest_board (pkt : Packet) (remainingUs : Nat) (s : State) :
    boardAfter s (execRequest pkt remainingUs s) = s.board := by
  refine withPacket_board s pkt _ _ _ (fun u => ?_)
  dsimp only
  split
  · simp
  · split
    · simp
    · split <;> simp

@[simp] theorem execReply_board (pkt : Packet) (fields : ReplyFields) (s : State) :
    boardAfter s (execReply pkt fields s) = s.board := by
  refine withPacket_board s pkt _ _ _ (fun u => ?_)
  dsimp only
  split
  · split <;> simp
  · split
    · rfl
    · split <;> simp

@[simp] theorem takeContribution_board (s : State) (pkt : Packet) (members : List Nat) (member : Nat) :
    (takeContribution s pkt members member).board = s.board := by
  unfold takeContribution
  split <;> simp

@[simp] theorem execContribution_board (pkt : Packet) (members : List Nat) (member : Nat) (s : State) :
    boardAfter s (execContribution pkt members member s) = s.board := by
  simp [execContribution]

@[simp] theorem execDelivery_board (pkt : Packet) (members : List Nat) (s : State) :
    boardAfter s (execDelivery pkt members s) = s.board := by
  refine withPacket_board s pkt _ _ _ (fun u => ?_)
  split
  · rfl
  · split <;> simp

@[simp] theorem takePush_board (s : State) (pkt : Packet) : (takePush s pkt).board = s.board := by
  simp [takePush]

@[simp] theorem execPush_board (pkt : Packet) (s : State) : boardAfter s (execPush pkt s) = s.board := by
  simp [execPush]

@[simp] theorem execStreamAbandon_board (fn stream : Nat) (s : State) :
    boardAfter s (execStreamAbandon fn stream s) = s.board := by
  unfold execStreamAbandon
  split <;> simp

@[simp] theorem execAck_board (src : Nat) (seqs : List (BitVec 32)) (s : State) :
    boardAfter s (execAck src seqs s) = s.board := by
  simp [execAck]

@[simp] theorem execRetransmitTimeout_board (dst : Nat) (seq : BitVec 32) (s : State) :
    boardAfter s (execRetransmitTimeout dst seq s) = s.board := by
  unfold execRetransmitTimeout
  split <;> simp

@[simp] theorem execProbe_board (dst : Nat) (s : State) : boardAfter s (execProbe dst s) = s.board := by
  unfold execProbe
  repeat' split
  all_goals simp

@[simp] theorem forwardCarried_board (s : State) (src f id : Nat) (node : BitVec 16) :
    (forwardCarried s src f id node).board = s.board := by
  simp [forwardCarried]

@[simp] theorem execMoved_board (src : Nat) (seq : BitVec 32) (fn domain : Nat) (epoch : BitVec 32) (node : BitVec 16)
    (s : State) : boardAfter s (execMoved src seq fn domain epoch node s) = s.board := by
  simp [execMoved]

@[simp] theorem composed_board (s : State) (cseq : BitVec 32) (ok : Bool) (act : State → State)
    (h : ∀ u, (act u).board = u.board) : (composed s cseq ok act).board = s.board := by
  unfold composed
  split
  · simp [h]
  · rfl

@[simp] theorem execNode_board (src : Nat) (seq cseq : BitVec 32) (number runtimeNode : BitVec 16)
    (reportMs : BitVec 32)
    (s : State) : boardAfter s (execNode src seq cseq number runtimeNode reportMs s) = s.board := by
  simp [execNode]

@[simp] theorem execRoute_board (src : Nat) (seq cseq : BitVec 32) (first count mask : BitVec 16) (s : State) :
    boardAfter s (execRoute src seq cseq first count mask s) = s.board := by
  simp [execRoute]

@[simp] theorem execTenant_board (src : Nat) (seq cseq : BitVec 32) (fn : Nat) (features : BitVec 32) (s : State) :
    boardAfter s (execTenant src seq cseq fn features s) = s.board := by
  simp [execTenant]

@[simp] theorem execEpoch_board (src : Nat) (seq cseq : BitVec 32) (fn : Nat) (domain newEpoch : BitVec 32)
    (newNode : BitVec 16) (s : State) : boardAfter s (execEpoch src seq cseq fn domain newEpoch newNode s) = s.board := by
  simp [execEpoch]

@[simp] theorem execDrain_board (src : Nat) (seq cseq : BitVec 32) (fn : Option Nat) (s : State) :
    boardAfter s (execDrain src seq cseq fn s) = s.board := by
  simp [execDrain]

@[simp] theorem execUndrain_board (src : Nat) (seq cseq : BitVec 32) (fn : Option Nat) (s : State) :
    boardAfter s (execUndrain src seq cseq fn s) = s.board := by
  simp [execUndrain]

@[simp] theorem execReport_board (s : State) : boardAfter s (execReport s) = s.board := by
  simp [execReport]

@[simp] theorem execEpochReport_board (fn domain : Nat) (s : State) :
    boardAfter s (execEpochReport fn domain s) = s.board := by
  unfold execEpochReport
  split <;> simp

@[simp] theorem execCollectiveDescriptorDeadline_board (fn seq : Nat) (s : State) :
    boardAfter s (execCollectiveDescriptorDeadline fn seq s) = s.board := by
  unfold execCollectiveDescriptorDeadline
  split
  · rfl
  · split <;> simp

/-! ### Reed -/

@[simp] theorem updReed_board (s : State) (r : Nat) (g : Reed → Reed) : (updReed s r g).board = s.board := by rfl

@[simp] theorem reedEnds_board (s : State) (d : ReedDesc) (i : Instance) (status count invalid : Nat) :
    (reedEnds s d i status count invalid).board = s.board := by
  simp [reedEnds]

@[simp] theorem reedRun_board (s : State) (d : ReedDesc) (i : Instance) : (reedRun s d i).board = s.board := by
  simp [reedRun]

@[simp] theorem execReedStart_board (r : Nat) (s : State) : boardAfter s (execReedStart r s) = s.board := by
  unfold execReedStart
  dsimp only
  repeat' split
  all_goals simp

@[simp] theorem storeError_board (s : State) (r : Nat) : (storeError s r).board = s.board := by
  simp [storeError]

@[simp] theorem execReedComplete_board (r : Nat) (ecc : Ecc) (s : State) :
    boardAfter s (execReedComplete r ecc s) = s.board := by
  unfold execReedComplete
  split <;> simp

/-! ### Flash -/

@[simp] theorem markLost_board (s : State) (ls : List Loc) : (markLost s ls).board = s.board := by
  simp [markLost]

@[simp] theorem afterMedia_board (s : State) (r : Flash × List Loc) : (afterMedia s r).board = s.board := by
  simp [afterMedia]

@[simp] theorem retire_board (s : State) (d b : Nat) : (retire s d b).board = s.board := by
  simp [retire]

@[simp] theorem dieFails_board (s : State) (d : Nat) : (dieFails s d).board = s.board := by
  simp [dieFails]

@[simp] theorem rebuildIn_board (s : State) (l : Loc) (bad : List Nat) : (rebuildIn s l bad).board = s.board := by
  simp [rebuildIn]

@[simp] theorem softIn_board (s : State) (l : Loc) : (softIn s l).board = s.board := by rfl

@[simp] theorem ladderRead_board (s : State) (l : Loc) (need : List Nat) (o : FlashOutcome) :
    (ladderRead s l need o).board = s.board := by rfl

@[simp] theorem mediaRead_board (s : State) (l : Loc) (need : List Nat) (o : FlashOutcome) :
    (mediaRead s l need o).board = s.board := by
  unfold mediaRead
  split <;> simp

@[simp] theorem readGone_board (s : State) (client : FlashClient) (oid ver g : Nat) :
    (readGone s client oid ver g).board = s.board := by rfl

@[simp] theorem apAnswer_board (s : State) (w : ApRead) (good : Bool) : (apAnswer s w good).board = s.board := by
  unfold apAnswer
  split <;> simp

@[simp] theorem readEnds_board (s : State) (obj gran : Nat) (fr : Frame) (client : FlashClient) :
    (readEnds s obj gran fr client).board = s.board := by
  unfold readEnds
  dsimp only
  repeat' split
  all_goals simp

@[simp] theorem execFlashReadComplete_board (obj gran : Nat) (client : FlashClient) (outcome : FlashOutcome) (s : State)
    (need : List Nat) : boardAfter s (execFlashReadComplete obj gran client outcome s need) = s.board := by
  unfold execFlashReadComplete
  repeat' split
  all_goals simp

@[simp] theorem execProgramComplete_board (die : Nat) (ok : Bool) (s : State) :
    boardAfter s (execProgramComplete die ok s) = s.board := by
  unfold execProgramComplete
  split <;> simp

@[simp] theorem execEraseComplete_board (die blockSet : Nat) (ok : Bool) (s : State) :
    boardAfter s (execEraseComplete die blockSet ok s) = s.board := by
  simp [execEraseComplete]

@[simp] theorem execJournalWrite_board (s : State) : boardAfter s (execJournalWrite s) = s.board := by rfl

@[simp] theorem execMapWrite_board (s : State) : boardAfter s (execMapWrite s) = s.board := by rfl

@[simp] theorem execZqCalibration_board (s : State) : boardAfter s (execZqCalibration s) = s.board := by rfl

@[simp] theorem execWearLevelCheck_board (s : State) : boardAfter s (execWearLevelCheck s) = s.board := by
  unfold execWearLevelCheck
  simp only
  split <;> rfl

@[simp] theorem execPatrol_board (weak : List (Nat × Nat)) (s : State) :
    boardAfter s (execPatrol weak s) = s.board := by rfl

@[simp] theorem execDieTimeout_board (die : Nat) (s : State) : boardAfter s (execDieTimeout die s) = s.board := by
  simp [execDieTimeout]

@[simp] theorem moveNear_board (s : State) (oid ver g : Nat) (fr : Frame) :
    (moveNear s oid ver g fr).board = s.board := by
  simp [moveNear]

@[simp] theorem movePeat_board (s : State) (oid ver g : Nat) : (movePeat s oid ver g).board = s.board := by
  unfold movePeat
  repeat' split
  all_goals simp

@[simp] theorem execGranuleMoveComplete_board (obj gran : Nat) (s : State) :
    boardAfter s (execGranuleMoveComplete obj gran s) = s.board := by
  unfold execGranuleMoveComplete
  split
  · rfl
  · split
    · dsimp only
      split <;> simp
    · split <;> simp

/-! ### Index -/

@[simp] theorem execIndexCreateList_board (cid : Nat) (s : State) :
    boardAfter s (execIndexCreateList cid s) = s.board := by
  simp [execIndexCreateList]

@[simp] theorem execIndexCreateGraph_board (cid : Nat) (s : State) :
    boardAfter s (execIndexCreateGraph cid s) = s.board := by
  simp [execIndexCreateGraph]

@[simp] theorem execIndexLoad_board (cid : Nat) (host : List Byte) (s : State) :
    boardAfter s (execIndexLoad cid host s) = s.board := by
  simp [execIndexLoad]

@[simp] theorem mutateIndex_board (s : State) (a : Adm) (o : Obj) (ts : Target) (upsert : Bool) :
    (mutateIndex s a o ts upsert).board = s.board := by
  unfold mutateIndex
  dsimp only
  repeat' split
  all_goals simp

@[simp] theorem mutateRun_board (s : State) (a : Adm) (upsert : Bool) : (mutateRun s a upsert).board = s.board := by
  unfold mutateRun
  dsimp only
  repeat' split
  all_goals simp

@[simp] theorem execItemUpsert_board (cid : Nat) (s : State) : boardAfter s (execItemUpsert cid s) = s.board := by
  simp [execItemUpsert]

@[simp] theorem execItemDelete_board (cid : Nat) (s : State) : boardAfter s (execItemDelete cid s) = s.board := by
  simp [execItemDelete]

@[simp] theorem execIndexCompact_board (cid : Nat) (s : State) : boardAfter s (execIndexCompact cid s) = s.board := by
  refine withCmd_board s cid _ _ (fun a => ?_)
  dsimp only
  repeat' split
  all_goals simp

/-! ### Picks -/

theorem bringList_board {s t : State} {oid ver : Nat} {gs : List Nat} (h : bringList s oid ver gs = some t) :
    t.board = s.board := by
  induction gs generalizing s with
  | nil => cases h; rfl
  | cons g gs ih =>
    obtain ⟨u, hone, hrest⟩ := Option.bind_eq_some_iff.1 h
    rw [ih hrest, bringVersion_board hone]

@[simp] theorem scanMember_board (w : Window) (acc : State × List Nat) (c : Nat) :
    (scanMember w acc c).1.board = acc.1.board := by
  unfold scanMember
  simp only
  split
  · rfl
  · split
    · rfl
    · next h => simp [bringList_board h]

@[simp] theorem chargePick_board (s : State) (w : Window) (ms : List Nat) : (chargePick s w ms).board = s.board := by
  unfold chargePick
  dsimp only
  rw [foldl_board _ (fun s f => by simp), streamRange_board]

@[simp] theorem loomPick_board (s : State) (w : Window) (ms : List Nat) (loom : Nat) :
    (loomPick s w ms loom).board = s.board := by
  simp [loomPick]

@[simp] theorem execPickWindowClose_board (index version list cls : Nat) (s : State) :
    boardAfter s (execPickWindowClose index version list cls s) = s.board := by
  unfold execPickWindowClose
  split
  · rfl
  · next w _ =>
    have hscan (t : State) : (w.members.foldl (scanMember w) (t, [])).1.board = t.board :=
      foldl_fst_board _ (scanMember_board w) _ _
    dsimp only
    rw [boardAfter_ite]
    refine ite_eq_of_branches ?_ ?_
    · simp [apply_ite Prod.fst]
    · split <;> simp [apply_ite Prod.fst]

@[simp] theorem execResultMerge_board (cid list : Nat) (epoch : BitVec 32) (s : State) :
    boardAfter s (execResultMerge cid list epoch s) = s.board := by
  unfold execResultMerge
  split <;> simp

/-! ### Programs -/

@[simp] theorem execProgLoad_board (cid : Nat) (host : List Byte) (s : State) :
    boardAfter s (execProgLoad cid host s) = s.board := by
  simp [execProgLoad]

@[simp] theorem takeLoom_board (s : State) (f l base : Nat) (init : List Byte) :
    (takeLoom s f l base init).board = s.board := by rfl

@[simp] theorem grantShuttles_board (s : State) (no l n : Nat) : (grantShuttles s no l n).board = s.board := by
  simp [grantShuttles]

theorem startInstance_board {s t : State} {a : Adm} {m : Mem} {arg no : Nat} {argBs : List Byte}
    (h : startInstance s a m arg argBs = some (t, no)) : t.board = s.board := by
  unfold startInstance at h
  dsimp only at h
  split at h
  · cases h
  · split at h
    · cases h
      simp
    · cases h

@[simp] theorem execProgStart_board (cid : Nat) (s : State) : boardAfter s (execProgStart cid s) = s.board := by
  refine withCmd_board s cid _ _ (fun a => ?_)
  dsimp only
  rw [board_ite]
  refine ite_eq_of_branches (by simp) ?_
  split
  · simp
  · rw [board_ite]
    refine ite_eq_of_branches (by simp) ?_
    split
    · next h => simp [startInstance_board h]
    · simp

@[simp] theorem execProgStop_board (cid : Nat) (s : State) : boardAfter s (execProgStop cid s) = s.board := by
  refine withCmd_board s cid _ _ (fun a => ?_)
  dsimp only
  split
  · simp
  · split <;> simp

@[simp] theorem withKnot_board (s : State) (a : Adm) (g : Nat → Knot → State) (h : ∀ k x, (g k x).board = s.board) :
    (withKnot s a g).board = s.board := by
  unfold withKnot
  simp only
  split
  · exact h _ _
  · simp

@[simp] theorem execKnotAlloc_board (cid : Nat) (s : State) : boardAfter s (execKnotAlloc cid s) = s.board := by
  refine withCmd_board s cid _ _ (fun a => ?_)
  split <;> simp

@[simp] theorem execKnotSet_board (cid : Nat) (s : State) : boardAfter s (execKnotSet cid s) = s.board := by
  simp [execKnotSet]

@[simp] theorem execKnotArrive_board (cid : Nat) (s : State) : boardAfter s (execKnotArrive cid s) = s.board := by
  simp [execKnotArrive]

@[simp] theorem execKnotWait_board (cid : Nat) (s : State) : boardAfter s (execKnotWait cid s) = s.board := by
  simp [execKnotWait]

@[simp] theorem execKnotFree_board (cid : Nat) (s : State) : boardAfter s (execKnotFree cid s) = s.board := by
  simp [execKnotFree]

@[simp] theorem launchShuttle_board (s : State) (no : Nat) (i : Instance) (t : Nat) (x : Task) (sh index : Nat) :
    (launchShuttle s no i t x sh index).board = s.board := by rfl

@[simp] theorem execTaskStart_board (inst task : Nat) (s : State) :
    boardAfter s (execTaskStart inst task s) = s.board := by
  unfold execTaskStart
  split <;> simp

@[simp] theorem execTaskDeadline_board (inst task : Nat) (s : State) :
    boardAfter s (execTaskDeadline inst task s) = s.board := by
  unfold execTaskDeadline
  repeat' split
  all_goals simp

@[simp] theorem execProgStopTimeout_board (inst : Nat) (s : State) :
    boardAfter s (execProgStopTimeout inst s) = s.board := by
  unfold execProgStopTimeout
  split <;> simp

/-! ### Security -/

@[simp] theorem execFwStage_board (cid : Nat) (host : List Byte) (s : State) :
    boardAfter s (execFwStage cid host s) = s.board := by
  simp [execFwStage]

@[simp] theorem execFwCommit_board (cid : Nat) (s : State) : boardAfter s (execFwCommit cid s) = s.board := by
  simp [execFwCommit]

@[simp] theorem execFabricKeySet_board (cid : Nat) (s : State) : boardAfter s (execFabricKeySet cid s) = s.board := by
  refine withCmd_board s cid _ _ (fun a => ?_)
  dsimp only
  repeat' split
  all_goals simp

theorem sealFn_board {s t : State} {f : Nat} (h : sealFn s f = some t) : t.board = s.board := by
  unfold sealFn at h
  simp only at h
  split at h
  · cases h
  · split_ifs at h <;> cases h <;> simp

@[simp] theorem isolate_board (s t : State) (cid : Nat) (h : t.board = s.board) :
    (isolate s t cid).board = s.board := by
  unfold isolate
  split
  · rfl
  · simp [h]

@[simp] theorem execIsolationSet_board (cid : Nat) (s : State) : boardAfter s (execIsolationSet cid s) = s.board := by
  refine withCmd_board s cid _ _ (fun a => ?_)
  dsimp only
  split
  · simp
  · split
    · split
      · next h => exact isolate_board _ _ _ (sealFn_board h)
      · simp
    · rw [board_ite, board_ite]
      exact ite_eq_of_branches (by simp) (ite_eq_of_branches (isolate_board _ _ _ (by simp)) (by simp))

@[simp] theorem execViolationRead_board (cid : Nat) (s : State) : boardAfter s (execViolationRead cid s) = s.board := by
  simp [execViolationRead]

/-! ### Start -/

@[simp] theorem stageBootRom_board (s : State) : (stageBootRom s).board = s.board := by
  simp [stageBootRom]

@[simp] theorem stageVerify_board (s : State) : (stageVerify s).board = s.board := by rfl

@[simp] theorem stageDie_board (s : State) : (stageDie s).board = s.board := by rfl

@[simp] theorem stageFlash_board (s : State) (badDies : List Nat) : (stageFlash s badDies).board = s.board := by
  simp [stageFlash]

@[simp] theorem stageRestore_board (s : State) : (stageRestore s).board = s.board := by rfl

@[simp] theorem serviceReady_board (s : State) : (serviceReady s).board = s.board := by
  simp [serviceReady]

@[simp] theorem stageEffect_board (s : State) (badDies : List Nat) (n : Nat) :
    (stageEffect s badDies n).board = s.board := by
  unfold stageEffect
  split <;> simp

@[simp] theorem kindlingReady_board (s : State) : (kindlingReady s).board = s.board := by rfl

@[simp] theorem boltTested_board (s : State) (failed : Bool) : (boltTested s failed).board = s.board := by
  simp [boltTested]

/-! ### Service -/

@[simp] theorem execHealthEvaluate_board (s : State) : boardAfter s (execHealthEvaluate s) = s.board := by
  unfold execHealthEvaluate
  dsimp only
  rw [boardAfter_ite, boardAfter_next, boardAfter_next, board_ite, causeSnap_board, postEvent_board]
  exact ite_eq_of_branches rfl (ite_self _)

@[simp] theorem pressed_board (s : State) : (pressed s).board = s.board := by
  simp [pressed]

@[simp] theorem execSnapshotTrigger_board (src : Nat) (s : State) :
    boardAfter s (execSnapshotTrigger src s) = s.board := by
  simp [execSnapshotTrigger]

@[simp] theorem execSnapshotCopyDone_board (s : State) : boardAfter s (execSnapshotCopyDone s) = s.board := by
  simp [execSnapshotCopyDone]

/-! ### ShuttleOps -/

@[simp] theorem ShCtx.goto_board (c : ShCtx) (s : State) (x : Shuttle) (pc : Nat) :
    (ShCtx.goto c s x pc).board = s.board := by rfl

@[simp] theorem ShCtx.step_board (c : ShCtx) (s : State) (x : Shuttle) : (ShCtx.step c s x).board = s.board := by rfl

@[simp] theorem ShCtx.put_board (c : ShCtx) (s : State) (v : BitVec 64) : (ShCtx.put c s v).board = s.board := by rfl

@[simp] theorem ShCtx.putV_board (c : ShCtx) (s : State) (v : BitVec 512) : (ShCtx.putV c s v).board = s.board := by rfl

@[simp] theorem ShCtx.fault_board (c : ShCtx) (s : State) (k : Nat) : (ShCtx.fault c s k).board = s.board := by
  simp [ShCtx.fault]

@[simp] theorem ShCtx.wait_board (c : ShCtx) (s : State) : (ShCtx.wait c s).board = s.board := by rfl

@[simp] theorem ShCtx.jump_board (c : ShCtx) (s : State) (x : Shuttle) (target : Int) :
    (ShCtx.jump c s x target).board = s.board := by
  simp [ShCtx.jump]

/-- A row of an instruction keeps the board where the instruction's work does. -/
@[simp] theorem withIns_board (o : ShOp) (sh : Nat) (s : State) (k : ShCtx → State → State)
    (h : ∀ c u, (k c u).board = u.board) : boardAfter s (withIns o sh s k) = s.board := by
  unfold withIns
  dsimp only
  split
  · rfl
  · split
    · rfl
    · split
      · simp
      · split
        · simp
        · split
          · simp
          · split
            · rfl
            · split <;> simp [h, issued]

@[simp] theorem chargeAccess_board (s : State) (c : ShCtx) (a n : Nat) : (chargeAccess s c a n).board = s.board := by
  unfold chargeAccess
  split <;> rfl

@[simp] theorem ShCtx.lost_board (c : ShCtx) (s : State) : (ShCtx.lost c s).board = s.board := by
  simp [ShCtx.lost]

@[simp] theorem ShCtx.broken_board (c : ShCtx) (s : State) : (ShCtx.broken c s).board = s.board := by
  simp [ShCtx.broken]

@[simp] theorem ShCtx.load_board (c : ShCtx) (s : State) (n reg : Nat) (vector extend : Bool) :
    (c.load s n reg vector extend).board = s.board := by
  unfold ShCtx.load
  dsimp only
  split
  · simp
  · split
    · simp
    · split
      · simp
      · split
        · simp
        · split
          · simp
          · split
            · split <;> split <;> simp
            · simp
            · simp

@[simp] theorem ShCtx.loadG_board (c : ShCtx) (s : State) (n : Nat) (sx : Bool) :
    (ShCtx.loadG c s n sx).board = s.board := by
  simp [ShCtx.loadG]

@[simp] theorem ShCtx.store_board (c : ShCtx) (s : State) (n : Nat) (v : Nat) :
    (ShCtx.store c s n v).board = s.board := by
  unfold ShCtx.store
  dsimp only
  repeat' split
  all_goals simp

/-- An atomic that is performed or discarded leaves the board. -/
theorem atomicAt_board {s t : State} {c : ShCtx} {a : Nat}
    (h : atomicAt s c a = .write t ∨ atomicAt s c a = .discard t) :
    t.board = s.board := by
  unfold atomicAt at h
  split at h
  · split at h <;> simp at h <;> simp [← h]
  · simp at h; simp [← h]
  · split at h
    · simp at h; simp [← h]
    · simp at h; simp [← h]
    · split at h
      · simp at h; simp [← h]
      · split at h
        · simp at h; simp [← h]
        · split at h
          · simp at h
          · split at h
            · simp at h
            · split at h
              · simp at h
              · split at h
                · next hb => simp at h; rw [← h, bringNear_board hb]
                · simp at h

@[simp] theorem ShCtx.atomic_board (c : ShCtx) (s : State) : (c.atomic s).board = s.board := by
  unfold ShCtx.atomic
  dsimp only
  split
  · simp
  · split
    · simp
    · split
      · simp
      · simp
      · simp
      · simp
      · next h => simp [atomicAt_board (.inr h)]
      · next h => split <;> simp [atomicAt_board (.inl h)]

theorem issueSegment_board {s t : State} {c : ShCtx} (h : issueSegment s c = some t) : t.board = s.board := by
  unfold issueSegment at h
  dsimp only at h
  split at h
  · cases h
  · split at h
    · cases h
    · obtain ⟨u, hu, ht⟩ := Option.map_eq_some_iff.1 h
      rw [← ht, ← bringAll_board hu]
      split
      · split <;> simp
      · simp

@[simp] theorem ShCtx.issue_board (c : ShCtx) (s : State) : (c.issue s).board = s.board := by
  unfold ShCtx.issue
  dsimp only
  split
  · split <;> simp
  · split
    · simp
    · split <;> simp
  · split
    · next h => simp [issueSegment_board h]
    · simp
  · split <;> simp

/-! ### Shuttle -/

@[simp] theorem execFetchComplete_board (sh : Nat) (s : State) : boardAfter s (execFetchComplete sh s) = s.board := by
  unfold execFetchComplete
  dsimp only
  repeat' split
  all_goals simp

@[simp] theorem loadError_board (s : State) (sh : Nat) (p : Operand) (e : Ecc) :
    (loadError s sh p e).1.board = s.board := by
  unfold loadError
  dsimp only
  split
  · simp
  · split
    · split
      · rfl
      · split
        · split <;> simp
        · split
          · simp
          · split <;> simp
    · rfl
  · rfl

@[simp] theorem execOperandArrive_board (sh : Nat) (ecc : Ecc) (s : State) :
    boardAfter s (execOperandArrive sh ecc s) = s.board := by
  unfold execOperandArrive
  dsimp only
  repeat' split
  all_goals simp

@[simp] theorem execAlu_board (sh : Nat) (s : State) : boardAfter s (execAlu sh s) = s.board := by
  simp [execAlu]

@[simp] theorem execFpu_board (sh : Nat) (s : State) : boardAfter s (execFpu sh s) = s.board := by
  simp [execFpu]

@[simp] theorem execAddi_board (sh : Nat) (s : State) : boardAfter s (execAddi sh s) = s.board := by
  simp [execAddi]

@[simp] theorem execAndi_board (sh : Nat) (s : State) : boardAfter s (execAndi sh s) = s.board := by
  simp [execAndi]

@[simp] theorem execOri_board (sh : Nat) (s : State) : boardAfter s (execOri sh s) = s.board := by
  simp [execOri]

@[simp] theorem execXori_board (sh : Nat) (s : State) : boardAfter s (execXori sh s) = s.board := by
  simp [execXori]

@[simp] theorem execShi_board (sh : Nat) (s : State) : boardAfter s (execShi sh s) = s.board := by
  simp [execShi]

@[simp] theorem execSlti_board (sh : Nat) (s : State) : boardAfter s (execSlti sh s) = s.board := by
  simp [execSlti]

@[simp] theorem execLui_board (sh : Nat) (s : State) : boardAfter s (execLui sh s) = s.board := by
  simp [execLui]

@[simp] theorem execGets_board (sh : Nat) (s : State) : boardAfter s (execGets sh s) = s.board := by
  simp [execGets]

@[simp] theorem execLd1_board (sh : Nat) (s : State) : boardAfter s (execLd1 sh s) = s.board := by
  simp [execLd1]

@[simp] theorem execLd2_board (sh : Nat) (s : State) : boardAfter s (execLd2 sh s) = s.board := by
  simp [execLd2]

@[simp] theorem execLd4_board (sh : Nat) (s : State) : boardAfter s (execLd4 sh s) = s.board := by
  simp [execLd4]

@[simp] theorem execLd8_board (sh : Nat) (s : State) : boardAfter s (execLd8 sh s) = s.board := by
  simp [execLd8]

@[simp] theorem execLds1_board (sh : Nat) (s : State) : boardAfter s (execLds1 sh s) = s.board := by
  simp [execLds1]

@[simp] theorem execLds2_board (sh : Nat) (s : State) : boardAfter s (execLds2 sh s) = s.board := by
  simp [execLds2]

@[simp] theorem execLds4_board (sh : Nat) (s : State) : boardAfter s (execLds4 sh s) = s.board := by
  simp [execLds4]

@[simp] theorem execSt1_board (sh : Nat) (s : State) : boardAfter s (execSt1 sh s) = s.board := by
  simp [execSt1]

@[simp] theorem execSt2_board (sh : Nat) (s : State) : boardAfter s (execSt2 sh s) = s.board := by
  simp [execSt2]

@[simp] theorem execSt4_board (sh : Nat) (s : State) : boardAfter s (execSt4 sh s) = s.board := by
  simp [execSt4]

@[simp] theorem execSt8_board (sh : Nat) (s : State) : boardAfter s (execSt8 sh s) = s.board := by
  simp [execSt8]

@[simp] theorem execVld_board (sh : Nat) (s : State) : boardAfter s (execVld sh s) = s.board := by
  simp [execVld]

@[simp] theorem execVst_board (sh : Nat) (s : State) : boardAfter s (execVst sh s) = s.board := by
  simp [execVst]

@[simp] theorem execAmo_board (sh : Nat) (s : State) : boardAfter s (execAmo sh s) = s.board := by
  simp [execAmo]

@[simp] theorem execFence_board (sh : Nat) (s : State) : boardAfter s (execFence sh s) = s.board := by
  simp [execFence]

@[simp] theorem ShCtx.branch_board (c : ShCtx) (s : State) (o : ShOp) : (ShCtx.branch c s o).board = s.board := by
  simp [ShCtx.branch]

@[simp] theorem execBeq_board (sh : Nat) (s : State) : boardAfter s (execBeq sh s) = s.board := by
  simp [execBeq]

@[simp] theorem execBne_board (sh : Nat) (s : State) : boardAfter s (execBne sh s) = s.board := by
  simp [execBne]

@[simp] theorem execBlt_board (sh : Nat) (s : State) : boardAfter s (execBlt sh s) = s.board := by
  simp [execBlt]

@[simp] theorem execBge_board (sh : Nat) (s : State) : boardAfter s (execBge sh s) = s.board := by
  simp [execBge]

@[simp] theorem execBltu_board (sh : Nat) (s : State) : boardAfter s (execBltu sh s) = s.board := by
  simp [execBltu]

@[simp] theorem execBgeu_board (sh : Nat) (s : State) : boardAfter s (execBgeu sh s) = s.board := by
  simp [execBgeu]

@[simp] theorem execJal_board (sh : Nat) (s : State) : boardAfter s (execJal sh s) = s.board := by
  simp [execJal]

@[simp] theorem execJalr_board (sh : Nat) (s : State) : boardAfter s (execJalr sh s) = s.board := by
  simp [execJalr]

@[simp] theorem execVop_board (sh : Nat) (s : State) : boardAfter s (execVop sh s) = s.board := by
  simp [execVop]

@[simp] theorem execKarr_board (sh : Nat) (s : State) : boardAfter s (execKarr sh s) = s.board := by
  simp [execKarr]

@[simp] theorem execKwait_board (sh : Nat) (s : State) : boardAfter s (execKwait sh s) = s.board := by
  refine withIns_board _ sh s _ (fun c u => ?_)
  dsimp only
  split
  · simp
  · split <;> simp

@[simp] theorem execKset_board (sh : Nat) (s : State) : boardAfter s (execKset sh s) = s.board := by
  simp [execKset]

@[simp] theorem execKtest_board (sh : Nat) (s : State) : boardAfter s (execKtest sh s) = s.board := by
  simp [execKtest]

@[simp] theorem execIssue_board (sh : Nat) (s : State) : boardAfter s (execIssue sh s) = s.board := by
  simp [execIssue]

@[simp] theorem execIrq_board (sh : Nat) (s : State) : boardAfter s (execIrq sh s) = s.board := by
  simp [execIrq]

@[simp] theorem execHalt_board (sh : Nat) (s : State) : boardAfter s (execHalt sh s) = s.board := by
  simp [execHalt]

@[simp] theorem execExit_board (sh : Nat) (s : State) : boardAfter s (execExit sh s) = s.board := by
  simp [execExit]

end Sys2Proof.Laws
end

section
/-! PROOFS. O60, second part: how the other rows change STATUS and ALERT_N, and what every step keeps between the two. -/

namespace Sys2Proof.Laws
open Sys2Proof Sys2Proof.Machine Sys2Proof.Safety

/-! ### How STATUS and ALERT_N may change -/

/-- STATUS has only gained bits, the pins' set-up has stayed, and ALERT_N is asserted by a new bit once the pins are set up and
otherwise left (R51, R74); or a reset has released ALERT_N and put the pins back (R51). -/
def alertFollows (b b' : Board) : Prop :=
  ((∀ i, b.status.getLsbD i = true → b'.status.getLsbD i = true) ∧ pinsSetUp b' = pinsSetUp b ∧
    b'.alertN = (b.alertN && (b'.status == b.status || !pinsSetUp b))) ∨
  (b'.alertN = true ∧ pinsSetUp b' = false)

theorem alertFollows_refl (b : Board) : alertFollows b b :=
  .inl ⟨fun _ h => h, rfl, by simp⟩

/-- Where no bit is lost on the way, STATUS is the same at the end only if it has been the same throughout. -/
theorem status_eq_iff_of_gained {x y z : BitVec 16} (hxy : ∀ i, x.getLsbD i = true → y.getLsbD i = true)
    (hyz : ∀ i, y.getLsbD i = true → z.getLsbD i = true) : z = x ↔ y = x ∧ z = y := by
  refine ⟨fun h => ?_, fun h => h.2.trans h.1⟩
  subst h
  have hy : y = z := BitVec.eq_of_getLsbD_eq fun i _ => Bool.eq_iff_iff.2 ⟨hyz i, hxy i⟩
  exact ⟨hy, hy.symm⟩

theorem alertFollows_trans {b c d : Board} (h : alertFollows b c) (h' : alertFollows c d) : alertFollows b d := by
  obtain ⟨hs', hp', ha'⟩ | hreset := h'
  · obtain ⟨hs, hp, ha⟩ | ⟨ha, hp⟩ := h
    · refine .inl ⟨fun i hi => hs' i (hs i hi), hp'.trans hp, ?_⟩
      have heq : (d.status == b.status) = (c.status == b.status && d.status == c.status) := by
        rw [Bool.eq_iff_iff, Bool.and_eq_true, beq_iff_eq, beq_iff_eq, beq_iff_eq]
        exact status_eq_iff_of_gained hs hs'
      rw [ha', ha, hp, heq]
      cases b.alertN <;> cases c.status == b.status <;> cases d.status == c.status <;> simp
    · exact .inr ⟨by simp [ha', ha, hp], hp'.trans hp⟩
  · exact .inr hreset

theorem alertFollows_setStatus (s : State) (b : Nat) : alertFollows s.board (setStatus s b).board := by
  refine .inl ⟨fun i h => ?_, rfl, setStatus_alertN s b⟩
  rw [setStatus_status, BitVec.getLsbD_or, h, Bool.true_or]

/-- A device reset releases ALERT_N and leaves the pins to be set up (R51, R478). -/
theorem alertFollows_deviceReset (b : Board) (s : State) (cause : Nat) : alertFollows b (deviceReset s cause).board :=
  .inr ⟨rfl, by simp [pinsSetUp, deviceReset]⟩

/-- So does the loss of both inputs (R53, R61). -/
theorem alertFollows_powerLost (b : Board) (s : State) : alertFollows b (powerLost s).board :=
  .inr ⟨rfl, rfl⟩

theorem alertFollows_ite {c : Prop} {_ : Decidable c} {b : Board} {s t : State} (hs : alertFollows b s.board)
    (ht : alertFollows b t.board) : alertFollows b (if c then s else t).board := by
  split <;> assumption

/-! ### The operations of the rails -/

theorem alertFollows_beginHoldUp (s : State) : alertFollows s.board (beginHoldUp s).board :=
  alertFollows_setStatus { s with flash := holdUp s.flash } sbVinLoss

theorem alertFollows_railsOff (s : State) : alertFollows s.board (railsOff s).board :=
  alertFollows_refl s.board

theorem alertFollows_startRails (s : State) : alertFollows s.board (startRails s).board := by
  by_cases h : s.board.restart = 0
  · rw [startRails_of_none_owed h]
    exact alertFollows_refl s.board
  · rw [startRails_of_owed h]
    exact alertFollows_deviceReset s.board s s.board.restart

theorem alertFollows_startIfReady (s : State) : alertFollows s.board (startIfReady s).board :=
  alertFollows_ite (alertFollows_startRails s) (alertFollows_refl _)

theorem alertFollows_restartIfReady (s : State) (conv : List Nat) : alertFollows s.board (restartIfReady s conv).board :=
  alertFollows_ite (alertFollows_startRails s) (alertFollows_refl _)

theorem alertFollows_inputLost (s : State) : alertFollows s.board (inputLost s).board := by
  refine alertFollows_ite (alertFollows_beginHoldUp s) (alertFollows_ite (alertFollows_refl _) ?_)
  refine alertFollows_ite (alertFollows_ite (alertFollows_refl _) ?_) (alertFollows_powerLost _ _)
  exact alertFollows_setStatus s sbVinLoss

theorem alertFollows_openSwitch (s : State) (onCurrent : Bool) : alertFollows s.board (openSwitch s onCurrent).board := by
  refine alertFollows_trans ?_ (alertFollows_inputLost _)
  exact alertFollows_refl s.board

theorem alertFollows_takeBand (s : State) (mv : Nat) : alertFollows s.board (takeBand s mv).board := by
  unfold takeBand
  cases bandOf mv
  · exact alertFollows_refl s.board
  · exact alertFollows_setStatus s sbVinLow
  · exact alertFollows_refl s.board
  · exact alertFollows_setStatus s sbVinHigh

theorem alertFollows_powerCycle (s : State) : alertFollows s.board (powerCycle s).board :=
  alertFollows_ite (alertFollows_refl _) (alertFollows_ite (alertFollows_refl _) (alertFollows_refl _))

theorem alertFollows_warnInlet (s : State) : alertFollows s.board (warnInlet s).board :=
  alertFollows_ite (alertFollows_setStatus s sbThermWarn) (alertFollows_refl _)

/-! ### The rows that change the board -/

theorem alertFollows_whenPowered {s t : State} (h : alertFollows s.board t.board) :
    alertFollows s.board (boardAfter s (whenPowered s t)) := by
  rw [boardAfter_whenPowered]
  split
  · exact h
  · exact alertFollows_refl _

theorem alertFollows_powerOnReset (conv : List Nat) (s : State) (vstby : Bool) :
    alertFollows s.board (boardAfter s (execPowerOnReset conv s vstby)) := by
  unfold execPowerOnReset
  split
  · exact alertFollows_refl _
  · exact .inr ⟨rfl, rfl⟩

theorem alertFollows_pinReset (conv : List Nat) (s : State) : alertFollows s.board (boardAfter s (execPinReset conv s)) := by
  have hreset (u : State) : alertFollows s.board (pinReset u conv).board := alertFollows_deviceReset _ u 2
  refine alertFollows_whenPowered (alertFollows_ite (alertFollows_refl _) (alertFollows_ite ?_
    (alertFollows_ite (hreset _) (alertFollows_refl _))))
  exact alertFollows_trans (hreset s) (alertFollows_startIfReady _)

theorem alertFollows_vinTurnOn (mv : Nat) (s : State) : alertFollows s.board (boardAfter s (execVinTurnOn mv s)) := by
  refine alertFollows_whenPowered (alertFollows_ite (alertFollows_refl _) (alertFollows_ite (alertFollows_refl _) ?_))
  refine alertFollows_trans ?_ (alertFollows_startIfReady _)
  refine alertFollows_trans ?_ (alertFollows_takeBand _ mv)
  exact alertFollows_ite (alertFollows_refl _) (alertFollows_refl _)

theorem alertFollows_railEnable (s : State) : alertFollows s.board (boardAfter s (execRailEnable s)) := by
  unfold execRailEnable
  split <;> exact alertFollows_refl s.board

theorem alertFollows_railFault (code : Nat) (s : State) : alertFollows s.board (boardAfter s (execRailFault code s)) := by
  unfold execRailFault
  split
  · exact alertFollows_refl _
  · refine alertFollows_trans ?_ (alertFollows_setStatus _ sbRailFault)
    exact alertFollows_ite (alertFollows_refl _) (alertFollows_railsOff s)

theorem alertFollows_inputLoss (s : State) : alertFollows s.board (boardAfter s (execInputLoss s)) := by
  refine alertFollows_whenPowered (alertFollows_trans ?_ (alertFollows_inputLost _))
  exact alertFollows_refl s.board

theorem alertFollows_holdUpEnd (vaon vin : Bool) (conv : List Nat) (s : State) :
    alertFollows s.board (boardAfter s (execHoldUpEnd vaon vin conv s)) := by
  refine alertFollows_whenPowered (alertFollows_ite (alertFollows_refl _) (alertFollows_ite (alertFollows_powerLost _ _)
    (alertFollows_ite ?_ ?_)))
  · exact alertFollows_refl s.board
  · refine alertFollows_trans ?_ (alertFollows_restartIfReady _ conv)
    exact alertFollows_refl s.board

theorem alertFollows_overvoltage (s : State) : alertFollows s.board (boardAfter s (execOvervoltageSwitchOff s)) := by
  refine alertFollows_whenPowered (alertFollows_ite ?_ (alertFollows_refl _))
  refine alertFollows_trans ?_ (alertFollows_openSwitch _ false)
  exact alertFollows_setStatus { s with board := { s.board with band := .high } } sbVinHigh

theorem alertFollows_ocTrip (s : State) : alertFollows s.board (boardAfter s (execOcTrip s)) := by
  refine alertFollows_whenPowered (alertFollows_ite ?_ (alertFollows_refl _))
  refine alertFollows_trans ?_ (alertFollows_openSwitch _ true)
  refine alertFollows_trans ?_ (alertFollows_setStatus _ sbOcTrip)
  exact alertFollows_refl s.board

theorem alertFollows_switchReclose (s : State) (mv : Nat) :
    alertFollows s.board (boardAfter s (execSwitchReclose s mv)) := by
  refine alertFollows_whenPowered (alertFollows_ite (alertFollows_refl _) ?_)
  refine alertFollows_trans ?_ (alertFollows_startIfReady _)
  refine alertFollows_trans ?_ (alertFollows_takeBand _ mv)
  exact alertFollows_ite (s := advanceTo s _) (alertFollows_refl _) (alertFollows_refl _)

theorem alertFollows_inputBandChange (mv : Nat) (s : State) :
    alertFollows s.board (boardAfter s (execInputBandChange mv s)) :=
  alertFollows_whenPowered (alertFollows_ite (alertFollows_refl _) (alertFollows_takeBand s mv))

theorem alertFollows_iinLimit (s : State) : alertFollows s.board (boardAfter s (execIinLimit s)) :=
  alertFollows_whenPowered (alertFollows_ite
    (alertFollows_setStatus { s with board := { s.board with iin10Ma := 4800 } } sbIinLimit) (alertFollows_refl _))

theorem alertFollows_stbyLost (s : State) : alertFollows s.board (boardAfter s (execStbyLost s)) := by
  refine alertFollows_whenPowered (alertFollows_ite ?_ (alertFollows_ite (alertFollows_refl s.board)
    (alertFollows_powerLost _ _)))
  exact alertFollows_setStatus { s with board := { s.board with stby := false } } sbStbyLost

theorem alertFollows_thermTrip (temp : Int) (s : State) : alertFollows s.board (boardAfter s (execThermTrip temp s)) := by
  refine alertFollows_whenPowered (alertFollows_ite (alertFollows_refl _) ?_)
  refine alertFollows_trans ?_ (alertFollows_setStatus _ sbThermTrip)
  exact alertFollows_ite (alertFollows_refl _) (alertFollows_railsOff s)

theorem alertFollows_tripLatchRelease (s : State) (hot : Int) :
    alertFollows s.board (boardAfter s (execTripLatchRelease s hot)) := by
  refine alertFollows_whenPowered (alertFollows_ite ?_ (alertFollows_refl _))
  refine alertFollows_trans ?_ (alertFollows_startIfReady _)
  exact alertFollows_refl s.board

theorem alertFollows_junctionSensorsCool (s : State) (hot : Int) :
    alertFollows s.board (boardAfter s (execJunctionSensorsCool s hot)) := by
  refine alertFollows_whenPowered (alertFollows_ite ?_ (alertFollows_refl _))
  refine alertFollows_trans ?_ (alertFollows_startIfReady _)
  exact alertFollows_refl s.board

theorem alertFollows_powerCycleRestart (conv : List Nat) (s : State) :
    alertFollows s.board (boardAfter s (execPowerCycleRestart conv s)) := by
  refine alertFollows_whenPowered (alertFollows_ite ?_ (alertFollows_refl _))
  refine alertFollows_trans ?_ (alertFollows_restartIfReady _ conv)
  exact alertFollows_refl s.board

theorem alertFollows_inletTempTimeout (s : State) : alertFollows s.board (boardAfter s (execInletTempTimeout s)) :=
  alertFollows_whenPowered (alertFollows_ite (alertFollows_refl _) (alertFollows_refl s.board))

theorem alertFollows_tapReset (s : State) : alertFollows s.board (boardAfter s (execTapReset s)) :=
  alertFollows_whenPowered (alertFollows_refl s.board)

theorem alertFollows_bypass (s : State) : alertFollows s.board (boardAfter s (execBypass s)) :=
  alertFollows_whenPowered (alertFollows_refl s.board)

theorem alertFollows_idcode (s : State) : alertFollows s.board (boardAfter s (execIdcode s)) :=
  alertFollows_whenPowered (alertFollows_refl s.board)

theorem alertFollows_samplePreload (bits : BitVec 15) (s : State) :
    alertFollows s.board (boardAfter s (execSamplePreload bits s)) :=
  alertFollows_whenPowered (alertFollows_refl s.board)

theorem alertFollows_extest (s : State) (bits : BitVec 15) : alertFollows s.board (boardAfter s (execExtest s bits)) :=
  alertFollows_whenPowered (alertFollows_ite (alertFollows_refl s.board) (alertFollows_refl s.board))

/-! ### The rows beside the board's that restart the node or turn its rails off -/

theorem alertFollows_exitKindling {s u : State} (h : u.board = s.board) (slot : Option Nat) :
    alertFollows s.board (exitKindling u slot).board :=
  alertFollows_ite (alertFollows_deviceReset _ u 6) (h ▸ alertFollows_refl _)

theorem alertFollows_nodeEnds {s u : State} (h : u.board = s.board) (c : Cmd) (r : Result) :
    alertFollows s.board (nodeEnds u c r).board :=
  have hsame : alertFollows s.board u.board := h ▸ alertFollows_refl _
  alertFollows_ite hsame (alertFollows_ite hsame (alertFollows_ite (alertFollows_deviceReset _ u 6) hsame))

theorem alertFollows_replyRecordWrite (f : Fn) (s : State) :
    alertFollows s.board (boardAfter s (execReplyRecordWrite f s)) := by
  unfold execReplyRecordWrite
  dsimp only
  split
  · exact alertFollows_ite (alertFollows_exitKindling rfl none) (alertFollows_refl _)
  · split
    · exact alertFollows_refl _
    · exact alertFollows_exitKindling (by simp) _

theorem alertFollows_commandComplete (cid : Nat) (s : State) :
    alertFollows s.board (boardAfter s (execCommandComplete cid s)) := by
  unfold execCommandComplete
  split
  · exact alertFollows_refl _
  · split
    · split
      · exact alertFollows_refl _
      · exact alertFollows_nodeEnds (by simp) _ _
    · exact alertFollows_refl _

theorem alertFollows_draughtAllocation (inp : DraughtInput) (s : State) :
    alertFollows s.board (boardAfter s (execDraughtAllocation inp s)) := by
  unfold execDraughtAllocation
  split
  · exact alertFollows_refl _
  · refine alertFollows_trans ?_ (alertFollows_warnInlet _)
    exact alertFollows_refl s.board

theorem alertFollows_noteTemp (s : State) (l : ThermLevel) (t : Int) : alertFollows s.board (noteTemp s l t).board := by
  cases l <;> exact alertFollows_refl s.board

theorem alertFollows_thermalLevelEntry (l : ThermLevel) (t : Int) (s : State) :
    alertFollows s.board (boardAfter s (execThermalLevelEntry l t s)) := by
  unfold execThermalLevelEntry
  split
  · exact alertFollows_refl _
  · dsimp only
    split
    · rw [boardAfter_next, causeSnap_board]
      exact alertFollows_noteTemp s l t
    · exact alertFollows_noteTemp s l t

theorem alertFollows_thermalLevelExit (l : ThermLevel) (t : Int) (s : State) :
    alertFollows s.board (boardAfter s (execThermalLevelExit l t s)) := by
  unfold execThermalLevelExit
  split
  · exact alertFollows_refl _
  · exact alertFollows_noteTemp s l t

theorem alertFollows_dormantRailsOff (s : State) : alertFollows s.board (boardAfter s (execDormantRailsOff s)) := by
  unfold execDormantRailsOff
  split
  · exact alertFollows_refl _
  · exact alertFollows_railsOff s

theorem alertFollows_failStart (s : State) (stage : Nat) : alertFollows s.board (failStart s stage).board :=
  alertFollows_deviceReset _ _ 5

theorem alertFollows_startStageEnd (stage : Nat) (failed : Bool) (s : State) (badDies : List Nat) :
    alertFollows s.board (boardAfter s (execStartStageEnd stage failed s badDies)) := by
  have hsame {t : State} (h : t.board = s.board) : alertFollows s.board t.board := h ▸ alertFollows_refl _
  unfold execStartStageEnd
  dsimp only
  split
  · exact alertFollows_refl _
  · split
    · split
      · exact hsame (boltTested_board s failed)
      · split <;> exact alertFollows_refl s.board
    · split
      · exact alertFollows_refl _
      · split
        · exact alertFollows_failStart s stage
        · exact hsame (stageEffect_board s badDies stage)

theorem alertFollows_startTimeout (s : State) : alertFollows s.board (boardAfter s (execStartTimeout s)) := by
  unfold execStartTimeout
  split
  · exact alertFollows_failStart s _
  · exact alertFollows_refl _

theorem alertFollows_panelPress (s : State) : alertFollows s.board (boardAfter s (execPanelPress s)) := by
  have hsame {t : State} (h : t.board = s.board) : alertFollows s.board t.board := h ▸ alertFollows_refl _
  unfold execPanelPress
  split
  · exact hsame (by simp)
  · exact hsame (by simp)
  · exact hsame (by simp)
  · exact hsame (by simp)
  · split <;> exact hsame (by simp)
  · exact alertFollows_powerCycle s
  · exact alertFollows_refl _
  · exact alertFollows_refl _

theorem alertFollows_panelHold (s : State) : alertFollows s.board (boardAfter s (execPanelHold s)) := by
  unfold execPanelHold
  split
  · exact alertFollows_refl _
  · generalize hu : (if s.boot.kindling = true then s else sendReport s 5 (healthRecord s)) = u
    have hsame : u.board = s.board := by simp [← hu]
    dsimp only
    rw [← hsame]
    split
    · exact alertFollows_beginHoldUp u
    · split
      · exact alertFollows_refl u.board
      · exact alertFollows_railsOff u

theorem alertFollows_removalProceed (s : State) : alertFollows s.board (boardAfter s (execRemovalProceed s)) := by
  unfold execRemovalProceed
  split
  · exact alertFollows_refl _
  · generalize hu : (if drainedForRemoval s = true then s else advanceTo s (s.service.removalSince + 3000000000)) = u
    have hsame : u.board = s.board := by simp [← hu]
    refine alertFollows_trans ?_ (alertFollows_railsOff _)
    rw [sendReport_board]
    exact hsame ▸ alertFollows_refl _

/-! ### ALERT_N from one step to the next -/

/-- ALERT_N follows STATUS from one board to the next (R51, R74): a new bit leaves it asserted once the pins are set up, it is
asserted anew only by a new bit, and released only in a reset. -/
def alertTracks (b b' : Board) : Prop :=
  (pinsSetUp b = true → pinsSetUp b' = true →
    ∀ i, b.status.getLsbD i = false → b'.status.getLsbD i = true → b'.alertN = false) ∧
  (b.alertN = true → b'.alertN = false → ∃ i, b.status.getLsbD i = false ∧ b'.status.getLsbD i = true) ∧
  (b.alertN = false → b'.alertN = true → pinsSetUp b' = false)

/-- Where STATUS has gained bits only, and is not as it was, there is a bit that is new. -/
theorem exists_new_bit {x y : BitVec 16} (hgain : ∀ i, x.getLsbD i = true → y.getLsbD i = true) (hne : y ≠ x) :
    ∃ i, x.getLsbD i = false ∧ y.getLsbD i = true := by
  by_contra hno
  refine hne (BitVec.eq_of_getLsbD_eq fun i _ => Bool.eq_iff_iff.2 ⟨fun hy => ?_, hgain i⟩)
  by_contra hx
  exact hno ⟨i, by simpa using hx, hy⟩

theorem alertTracks_of_follows {b b' : Board} (h : alertFollows b b') : alertTracks b b' := by
  obtain ⟨hgain, hpins, halert⟩ | ⟨halert, hpins⟩ := h
  · refine ⟨fun hup _ i hold hnew => ?_, fun hoff hon => ?_, fun hon hoff => ?_⟩
    · have hne : b'.status ≠ b.status := fun h => by simp [h, hold] at hnew
      simp [halert, hup, hne]
    · refine exists_new_bit hgain fun hsame => ?_
      simp [halert, hoff, hsame] at hon
    · simp [halert, hon] at hoff
  · exact ⟨fun _ hup => by simp [hpins] at hup, fun _ hon => by simp [halert] at hon, fun _ _ => hpins⟩

/-- A step that sets no bit of STATUS and leaves ALERT_N has nothing to answer for. -/
theorem alertTracks_of_no_new_bit {b b' : Board} (hs : ∀ i, b'.status.getLsbD i = true → b.status.getLsbD i = true)
    (ha : b'.alertN = b.alertN) : alertTracks b b' := by
  refine ⟨fun _ _ i hold hnew => ?_, fun hoff hon => ?_, fun hon hoff => ?_⟩
  · simp [hs i hnew] at hold
  · simp [ha, hoff] at hon
  · simp [ha, hon] at hoff

theorem alertTracks_refl (b : Board) : alertTracks b b := alertTracks_of_follows (alertFollows_refl b)

theorem alertTracks_whenPowered {s t : State} (h : alertTracks s.board t.board) :
    alertTracks s.board (boardAfter s (whenPowered s t)) := by
  rw [boardAfter_whenPowered]
  split
  · exact h
  · exact alertTracks_refl _

theorem alertTracks_resetRelease (s : State) (conv : List Nat) :
    alertTracks s.board (boardAfter s (execResetRelease s conv)) := by
  refine alertTracks_whenPowered ?_
  split
  · exact alertTracks_of_no_new_bit (fun _ h => h) rfl
  · exact alertTracks_refl _

theorem alertTracks_pinConfiguration (s : State) : alertTracks s.board (boardAfter s (execPinConfiguration s)) :=
  alertTracks_whenPowered (alertTracks_of_no_new_bit (fun _ h => h) rfl)

/-- A write to the endpoint clears bits of STATUS, sets THERM_WARN, or turns the rails off (R68, R72, R73). -/
theorem alertTracks_mgmtPut (s : State) (code : Byte) (data : List Byte) (pec : Option Byte) :
    alertTracks s.board (mgmtPut s code data pec).board := by
  unfold mgmtPut
  dsimp only
  split
  · exact alertTracks_refl s.board
  · split
    · split
      · split
        · exact alertTracks_of_follows (alertFollows_powerCycle s)
        · exact alertTracks_refl _
      · exact alertTracks_refl s.board
    · split
      · exact alertTracks_of_no_new_bit (fun i h => by simp at h; exact h.1) rfl
      · split
        · refine alertTracks_of_follows (alertFollows_trans ?_ (alertFollows_warnInlet _))
          exact alertFollows_refl s.board
        · exact alertTracks_refl s.board
    · exact alertTracks_refl s.board

theorem alertTracks_alertResponse {s : State} {q : SmbusQuery} (h : q ≠ .alert) :
    alertTracks s.board (boardAfter s (execAlertResponse s q)) := by
  refine alertTracks_whenPowered ?_
  cases q with
  | alert => exact absurd rfl h
  | write code data pec => exact alertTracks_mgmtPut s code data pec
  | _ => exact alertTracks_refl s.board

/-- Every row but the alert response keeps ALERT_N to STATUS: the rows of the board by their own lemmas, every other row because
it leaves the board. -/
theorem exec_alertTracks {c : Instr} (h : c ≠ .alertResponse .alert) (s : State) :
    alertTracks s.board (boardAfter s (exec c s)) := by
  cases c with
  | powerOnReset conv vstby => exact alertTracks_of_follows (alertFollows_powerOnReset conv s vstby)
  | pinReset conv => exact alertTracks_of_follows (alertFollows_pinReset conv s)
  | resetRelease conv => exact alertTracks_resetRelease s conv
  | vinTurnOn mv => exact alertTracks_of_follows (alertFollows_vinTurnOn mv s)
  | railEnable => exact alertTracks_of_follows (alertFollows_railEnable s)
  | railFault code => exact alertTracks_of_follows (alertFollows_railFault code s)
  | inputLoss => exact alertTracks_of_follows (alertFollows_inputLoss s)
  | holdUpEnd vaon vin conv => exact alertTracks_of_follows (alertFollows_holdUpEnd vaon vin conv s)
  | overvoltageSwitchOff => exact alertTracks_of_follows (alertFollows_overvoltage s)
  | ocTrip => exact alertTracks_of_follows (alertFollows_ocTrip s)
  | switchReclose mv => exact alertTracks_of_follows (alertFollows_switchReclose s mv)
  | inputBandChange mv => exact alertTracks_of_follows (alertFollows_inputBandChange mv s)
  | iinLimit => exact alertTracks_of_follows (alertFollows_iinLimit s)
  | stbyLost => exact alertTracks_of_follows (alertFollows_stbyLost s)
  | thermTrip temp => exact alertTracks_of_follows (alertFollows_thermTrip temp s)
  | tripLatchRelease hot => exact alertTracks_of_follows (alertFollows_tripLatchRelease s hot)
  | junctionSensorsCool hot => exact alertTracks_of_follows (alertFollows_junctionSensorsCool s hot)
  | powerCycleRestart conv => exact alertTracks_of_follows (alertFollows_powerCycleRestart conv s)
  | powerCycle v pec => exact alertTracks_whenPowered (alertTracks_mgmtPut s 8 [v] pec)
  | statusWrite v pec => exact alertTracks_whenPowered (alertTracks_mgmtPut s 1 (toLE 2 v.toNat) pec)
  | inletTemp v pec => exact alertTracks_whenPowered (alertTracks_mgmtPut s 9 (toLE 2 v.toNat) pec)
  | inletTempTimeout => exact alertTracks_of_follows (alertFollows_inletTempTimeout s)
  | alertResponse q => exact alertTracks_alertResponse (fun hq => h (congrArg _ hq))
  | pinConfiguration => exact alertTracks_pinConfiguration s
  | tapReset => exact alertTracks_of_follows (alertFollows_tapReset s)
  | bypass => exact alertTracks_of_follows (alertFollows_bypass s)
  | idcode => exact alertTracks_of_follows (alertFollows_idcode s)
  | samplePreload bits => exact alertTracks_of_follows (alertFollows_samplePreload bits s)
  | extest bits => exact alertTracks_of_follows (alertFollows_extest s bits)
  | replyRecordWrite f => exact alertTracks_of_follows (alertFollows_replyRecordWrite f s)
  | commandComplete cid => exact alertTracks_of_follows (alertFollows_commandComplete cid s)
  | draughtAllocation inp => exact alertTracks_of_follows (alertFollows_draughtAllocation inp s)
  | thermalLevelEntry l t => exact alertTracks_of_follows (alertFollows_thermalLevelEntry l t s)
  | thermalLevelExit l t => exact alertTracks_of_follows (alertFollows_thermalLevelExit l t s)
  | dormantRailsOff => exact alertTracks_of_follows (alertFollows_dormantRailsOff s)
  | startStageEnd n failed bad => exact alertTracks_of_follows (alertFollows_startStageEnd n failed s bad)
  | startTimeout => exact alertTracks_of_follows (alertFollows_startTimeout s)
  | panelPress => exact alertTracks_of_follows (alertFollows_panelPress s)
  | panelHold => exact alertTracks_of_follows (alertFollows_panelHold s)
  | removalProceed => exact alertTracks_of_follows (alertFollows_removalProceed s)
  | _ => simp [exec, alertTracks_refl]

/-- A step that goes on has the board that its row leaves. -/
theorem boardAfter_of_step {s t : State} {c : Instr} {rest : List Instr} (hp : s.pending = c :: rest) (h : step s = .next t) :
    boardAfter { s with pending := rest } (exec c { s with pending := rest }) = t.board := by
  rw [← step_cons hp, h, boardAfter_next]

/-- Every step but that of an alert response keeps ALERT_N to STATUS. -/
theorem step_alertTracks {s t : State} (h : step s = .next t) (hq : ∀ rest, s.pending ≠ .alertResponse .alert :: rest) :
    alertTracks s.board t.board := by
  cases hp : s.pending with
  | nil =>
    rw [step_nil hp] at h
    cases h
    rw [tick_board]
    exact alertTracks_refl _
  | cons c rest =>
    rw [← boardAfter_of_step hp h]
    exact exec_alertTracks (fun hc => hq rest (hc ▸ hp)) { s with pending := rest }

/-- An alert response changes nothing but ALERT_N, which it releases (R74). -/
theorem step_alertResponse {s t : State} {rest : List Instr} (hp : s.pending = .alertResponse .alert :: rest)
    (h : step s = .next t) : t.board.status = s.board.status ∧ (t.board.alertN = false → s.board.alertN = false) := by
  rw [← boardAfter_of_step hp h]
  have hrow : boardAfter { s with pending := rest } (exec (.alertResponse .alert) { s with pending := rest }) =
      if s.board.powered then (if s.board.alertN then s.board else { s.board with alertN := true }) else s.board := by
    refine (boardAfter_whenPowered _ _).trans (ite_congr rfl (fun _ => ?_) (fun _ => rfl))
    rw [board_ite, emit_board]
  rw [hrow]
  split
  · split
    · exact ⟨rfl, id⟩
    · exact ⟨rfl, Bool.noConfusion⟩
  · exact ⟨rfl, id⟩

theorem alertResponse_answers (s : State) (hp : s.board.powered = true) (ha : s.board.alertN = false) :
    ∃ t, exec (.alertResponse .alert) s = .next t ∧ t.board = { s.board with alertN := true } ∧
      t.sent = s.sent ++ [.smbus (some [0x2A])] ∧ t.space = s.space ∧ t.sched = s.sched ∧ t.fns = s.fns :=
  ⟨_, alertResponse_releases s hp ha, rfl, rfl, rfl, rfl, rfl⟩

theorem alertN_follows_status (s t : State) (h : step s = .next t) :
    (pinsSetUp s.board = true → pinsSetUp t.board = true →
      ∀ b, s.board.status.getLsbD b = false → t.board.status.getLsbD b = true → t.board.alertN = false) ∧
    (s.board.alertN = true → t.board.alertN = false →
      ∃ b, s.board.status.getLsbD b = false ∧ t.board.status.getLsbD b = true) ∧
    (s.board.alertN = false → t.board.alertN = true →
      (∃ rest, s.pending = .alertResponse .alert :: rest) ∨ pinsSetUp t.board = false) := by
  by_cases hq : ∃ rest, s.pending = .alertResponse .alert :: rest
  · obtain ⟨rest, hp⟩ := hq
    obtain ⟨hstatus, halert⟩ := step_alertResponse hp h
    refine ⟨fun _ _ b hold hnew => ?_, fun hoff hon => ?_, fun _ _ => .inl ⟨rest, hp⟩⟩
    · simp [hstatus, hold] at hnew
    · simp [halert hon] at hoff
  · obtain ⟨hrise, hassert, hrelease⟩ := step_alertTracks h (fun rest hp => hq ⟨rest, hp⟩)
    exact ⟨hrise, hassert, fun hon hoff => .inr (hrelease hon hoff)⟩

/-- Settles O60: the rows by `exec_alertTracks`, the alert response by its own row. -/
theorem alertFollowsStatus : Obligations.AlertFollowsStatus :=
  ⟨alertN_follows_status, alertResponse_answers⟩

end Sys2Proof.Laws
end

section
/-! PROOFS. O11 and O12: hot reset, link down and function-level reset. What they take from a function's record has an equation;
the operations that they are made of have a lemma each on which parts of the state they touch. -/

namespace Sys2Proof.Laws
open Sys2Proof Sys2Proof.Machine Sys2Proof.Safety

/-! ### Every function's record -/

theorem fnOf_of_fns {s t : State} (h : t.fns = s.fns) (f : Nat) : fnOf t f = fnOf s f := by rw [fnOf, h, fnOf]

theorem fnOf_mapFns {f : Nat} (h : f < 256) (s : State) (g : Nat → FnState → FnState) :
    fnOf (mapFns s g) f = g f (fnOf s f) := by
  rw [fnOf, mapFns, AMap.getD, get?_map_key (fun f => g f (fnOf s f)) (List.mem_range.2 h), Option.getD_some]

/-- A reset of the host side clears what R93 names, whatever else of the record changes. -/
theorem hostSideCleared_hostSideReset (x : FnState) (ev : LastReset) : hostSideCleared (hostSideReset x ev) := by
  simp [hostSideCleared, hostSideReset]

theorem keptThroughHostReset_hostSideReset (x : FnState) (ev : LastReset) :
    keptThroughHostReset x (hostSideReset x ev) := by
  simp [keptThroughHostReset, hostSideReset]

/-! ### Host-side resets -/

/-- What ends with the host's commands lies in the admission stage, the object space, the arrays and the collectives (R93). -/
theorem abandonHost_changes (s : State) (fs : Nat → Bool) : ∃ sched space flash stk looms fabric,
    abandonHost s fs = { s with
      sched := sched, space := space, flash := flash, stk := stk, looms := looms, fabric := fabric } := by
  unfold abandonHost
  obtain ⟨space, flash, hfree⟩ := freeAll_changes _
  exact ⟨_, space, flash, _, _, _, hfree⟩

theorem hostReset_changes (s : State) (fs : Nat → Bool) (ev : LastReset) : ∃ sched space flash stk looms fabric,
    hostReset s fs ev = { mapFns s (fun f x => if fs f then hostSideReset x ev else x) with
      sched := sched, space := space, flash := flash, stk := stk, looms := looms, fabric := fabric } :=
  abandonHost_changes _ fs

theorem hostReset_time (s : State) (fs : Nat → Bool) (ev : LastReset) : (hostReset s fs ev).time = s.time := by
  obtain ⟨_, _, _, _, _, _, h⟩ := hostReset_changes s fs ev
  rw [h, mapFns_time]

theorem hostReset_link (s : State) (fs : Nat → Bool) (ev : LastReset) : (hostReset s fs ev).link = s.link := by
  obtain ⟨_, _, _, _, _, _, h⟩ := hostReset_changes s fs ev
  rw [h, mapFns_link]

theorem fnOf_hostReset {f : Nat} (hf : f < 256) (s : State) (fs : Nat → Bool) (ev : LastReset) :
    fnOf (hostReset s fs ev) f = if fs f then hostSideReset (fnOf s f) ev else fnOf s f := by
  obtain ⟨_, _, _, _, _, _, h⟩ := hostReset_changes s fs ev
  have hfns : (hostReset s fs ev).fns = (mapFns s (fun f x => if fs f then hostSideReset x ev else x)).fns := by rw [h]
  exact (fnOf_of_fns hfns f).trans (fnOf_mapFns hf s _)

theorem hotResetAll_time (s : State) (ev : LastReset) : (hotResetAll s ev).time = s.time := hostReset_time s _ ev

theorem hotResetAll_link (s : State) (ev : LastReset) : (hotResetAll s ev).link = clearLinkCfg s.link :=
  congrArg clearLinkCfg (hostReset_link s _ ev)

theorem fnOf_hotResetAll {f : Nat} (hf : f < 256) (s : State) (ev : LastReset) :
    fnOf (hotResetAll s ev) f = { hostSideReset (fnOf s f) ev with present := false } := by
  have hmap : fnOf (hotResetAll s ev) f = { fnOf (hostReset s (fun _ => true) ev) f with present := false } :=
    fnOf_mapFns hf (hostReset s (fun _ => true) ev) (fun _ x => { x with present := false })
  rw [hmap, fnOf_hostReset hf, if_pos rfl]

/-! ### The end of a function-level reset -/

/-- Array work of a function may have gone and that of others begun: only the arrays, the flash queues and violation counters
differ, and no record of a function in its function-level reset does (R94). -/
def arraysMoved (s t : State) : Prop :=
  t = { s with fns := t.fns, flash := t.flash, looms := t.looms } ∧ ∀ f, (fnOf s f).flr = true → fnOf t f = fnOf s f

theorem arraysMoved_refl (s : State) : arraysMoved s s := ⟨rfl, fun _ _ => rfl⟩

theorem arraysMoved_trans {s t u : State} (h : arraysMoved s t) (h' : arraysMoved t u) : arraysMoved s u := by
  obtain ⟨ht, hfns⟩ := h
  obtain ⟨hu, hfns'⟩ := h'
  refine ⟨?_, fun f hf => ?_⟩
  · rw [hu, ht]
  · rw [hfns' f (by rw [hfns f hf]; exact hf), hfns f hf]

/-- Looms and flash queues are no function's record. -/
theorem arraysMoved_of_loomsFlash (s : State) (looms : Looms) (flash : Flash) :
    arraysMoved s { s with looms := looms, flash := flash } := ⟨rfl, fun _ _ => rfl⟩

theorem arraysMoved_violate (s : State) (g n : Nat) : arraysMoved s (violate s g n) := by
  refine ⟨rfl, fun f hf => ?_⟩
  by_cases hg : g = f
  · subst hg
    rw [violate, fnOf_updFn_same, if_pos hf]
  · exact fnOf_updFn_other s g f _ hg

theorem queueRange_changes (s : State) (client : FlashClient) (oid ver off len : Nat) (deadline : Option Nat) :
    ∃ flash, queueRange s client oid ver off len deadline = { s with flash := flash } := by
  have hfold : ∀ (frs : List Frame) (s : State), ∃ flash,
      frs.foldl (fun s fr => queueRead s client oid fr deadline) s = { s with flash := flash } := by
    intro frs
    induction frs with
    | nil => exact fun s => ⟨_, rfl⟩
    | cons fr frs ih =>
      intro s
      obtain ⟨flash, h⟩ := ih (queueRead s client oid fr deadline)
      exact ⟨flash, h⟩
  unfold queueRange
  split
  · exact ⟨_, rfl⟩
  · exact hfold _ s

theorem arraysMoved_startHead (s : State) (loom : Nat) : arraysMoved s (startHead s loom) := by
  unfold startHead
  dsimp only
  split
  · exact arraysMoved_refl s
  · split
    · exact arraysMoved_refl s
    · refine arraysMoved_trans ?_ (arraysMoved_of_loomsFlash _ _ _)
      split
      · exact arraysMoved_violate s _ 1
      · obtain ⟨flash, h⟩ := queueRange_changes s _ _ _ _ _ _
        rw [h]
        exact arraysMoved_of_loomsFlash s s.looms flash

theorem arraysMoved_beginHead (s : State) (loom : Nat) : arraysMoved s (beginHead s loom) := by
  unfold beginHead
  dsimp only
  split
  · exact arraysMoved_refl s
  · split
    · exact arraysMoved_refl s
    · exact arraysMoved_trans (arraysMoved_of_loomsFlash s _ s.flash) (arraysMoved_startHead _ loom)

theorem arraysMoved_dropDescs (s : State) (loom : Nat) (keep : ArrayDesc → Bool) :
    arraysMoved s (dropDescs s loom keep) := by
  unfold dropDescs
  split
  · exact arraysMoved_refl s
  · exact arraysMoved_trans (arraysMoved_of_loomsFlash s _ s.flash) (arraysMoved_beginHead _ loom)

theorem arraysMoved_foldl_dropDescs (keep : ArrayDesc → Bool) (ls : List Nat) (s : State) :
    arraysMoved s (ls.foldl (fun s l => dropDescs s l keep) s) := by
  induction ls generalizing s with
  | nil => exact arraysMoved_refl s
  | cons l ls ih => exact arraysMoved_trans (arraysMoved_dropDescs s l keep) (ih _)

/-- The arrays of a function's programs let go (R94, R304). -/
theorem dropPrograms_changes (s : State) (f : Nat) : ∃ u prog, arraysMoved s u ∧
    dropPrograms s f = { u with prog := prog } ∧
    (∀ e ∈ prog.instances, e.2.fn ≠ f) ∧ (∀ e ∈ prog.knots, e.2.fn ≠ f) :=
  ⟨_, _, arraysMoved_foldl_dropDescs (fun d => d.fn != f || d.pick.isSome) _ s, rfl,
    fun _ he => by simpa using (List.mem_filter.1 he).2, fun _ he => by simpa using (List.mem_filter.1 he).2⟩

/-- The state in which nothing of a function's programs and objects is left (R94). -/
def withoutWork (s : State) (f : Nat) : State := freeAll (eraseObjects (dropPrograms s f) f)

theorem withoutWork_changes (s : State) (f : Nat) : ∃ u prog space flash, arraysMoved s u ∧
    withoutWork s f = { u with prog := prog, space := space, flash := flash } ∧
    (∀ e ∈ prog.instances, e.2.fn ≠ f) ∧ (∀ e ∈ prog.knots, e.2.fn ≠ f) := by
  obtain ⟨u, prog, hmoved, hdrop, hinst, hknot⟩ := dropPrograms_changes s f
  obtain ⟨space, flash, hfree⟩ := freeAll_changes (eraseObjects (dropPrograms s f) f)
  refine ⟨u, prog, space, flash, hmoved, ?_, hinst, hknot⟩
  rw [withoutWork, hfree, hdrop]
  rfl

/-- The record at the end of a function-level reset (step 5 of R94). -/
def flrRecord (ready : Bool) (x : FnState) : FnState :=
  { hostSideReset x lrFlr with
    flr := false, kek := none, txKey := none, rxKeys := [], energyNj := 0, objSerial := 0, instSerial := 0, ready := ready }

/-- The configuration of function 0 that belongs to the link goes with it (R94). -/
def resetLinkCfg (s : State) (f : Nat) : State := if f = 0 then { s with link := clearLinkCfg s.link } else s

theorem resetLinkCfg_eq (s : State) (f : Nat) :
    resetLinkCfg s f = { s with link := if f = 0 then clearLinkCfg s.link else s.link } := by
  unfold resetLinkCfg
  split <;> rfl

/-- The end of a function-level reset: nothing left of the function's work, and its record at its reset values. -/
theorem flrFinish_eq (s : State) (f : Nat) :
    flrFinish s f = updFn (resetLinkCfg (withoutWork s f) f) f
      (flrRecord ((resetLinkCfg (withoutWork s f) f).boot.serviceReady ||
        (resetLinkCfg (withoutWork s f) f).boot.kindlingBolt.isSome)) := rfl

theorem flrFinish_time (s : State) (f : Nat) : (flrFinish s f).time = s.time := by
  obtain ⟨u, prog, space, flash, ⟨hu, -⟩, h, -, -⟩ := withoutWork_changes s f
  rw [flrFinish_eq, resetLinkCfg_eq, h, hu]
  rfl

theorem flrFinish_link (s : State) (f : Nat) :
    (flrFinish s f).link = if f = 0 then clearLinkCfg s.link else s.link := by
  obtain ⟨u, prog, space, flash, ⟨hu, -⟩, h, -, -⟩ := withoutWork_changes s f
  rw [flrFinish_eq, resetLinkCfg_eq, h, hu]
  rfl

theorem flrFinish_prog (s : State) (f : Nat) :
    (∀ e ∈ (flrFinish s f).prog.instances, e.2.fn ≠ f) ∧ (∀ e ∈ (flrFinish s f).prog.knots, e.2.fn ≠ f) := by
  obtain ⟨u, prog, space, flash, -, h, hinst, hknot⟩ := withoutWork_changes s f
  rw [flrFinish_eq, resetLinkCfg_eq, h]
  exact ⟨hinst, hknot⟩

theorem fnOf_flrFinish {s : State} {f : Nat} (hf : (fnOf s f).flr = true) :
    fnOf (flrFinish s f) f = flrRecord (s.boot.serviceReady || s.boot.kindlingBolt.isSome) (fnOf s f) := by
  obtain ⟨u, prog, space, flash, ⟨hu, hfns⟩, h, -, -⟩ := withoutWork_changes s f
  have hboot : (withoutWork s f).boot = s.boot := by rw [h, hu]
  have hfn : fnOf (withoutWork s f) f = fnOf s f := (fnOf_of_fns (by rw [h]) f).trans (hfns f hf)
  rw [flrFinish_eq, resetLinkCfg_eq, fnOf_updFn_same, hboot]
  exact congrArg _ hfn

/-! ### Hot reset and link down -/

/-- The function-level resets in progress that a reset of the link completes first leave node time and the link's training
history (R96). -/
theorem foldl_flrFinish_keeps (es : AMap FnState) (s : State) :
    (es.foldl (fun s e => flrFinish s e.1) s).time = s.time ∧
      (es.foldl (fun s e => flrFinish s e.1) s).link.downs24 = s.link.downs24 := by
  induction es generalizing s with
  | nil => exact ⟨rfl, rfl⟩
  | cons e es ih =>
    obtain ⟨htime, hdowns⟩ := ih (flrFinish s e.1)
    refine ⟨htime.trans (flrFinish_time s e.1), hdowns.trans ?_⟩
    rw [flrFinish_link]
    split <;> rfl

theorem flrFinishAll_keeps (s : State) :
    (flrFinishAll s).time = s.time ∧ (flrFinishAll s).link.downs24 = s.link.downs24 :=
  foldl_flrFinish_keeps _ s

theorem flrFinishAll_of_none {s : State} (h : ∀ e ∈ s.fns, e.2.flr = false) : flrFinishAll s = s := by
  have hnone : s.fns.filter (fun e => e.2.flr) = [] := List.filter_eq_nil_iff.2 fun e he => by simp [h e he]
  rw [flrFinishAll, hnone]
  rfl

theorem exec_hotReset {s : State} (h : s.link.up = true) :
    exec .hotReset s = .next { hotResetAll (flrFinishAll s) lrHot with
      link := { (hotResetAll (flrFinishAll s) lrHot).link with up := false, training := true, l1 := false } } :=
  if_pos h

theorem exec_linkDown {s : State} (h : s.link.up = true) :
    exec .linkDown s = .next { hotResetAll (flrFinishAll s) lrLinkDown with
      link := { (hotResetAll (flrFinishAll s) lrLinkDown).link with
        up := false, training := true, l1 := false
        downs24 := Hours.add (hotResetAll (flrFinishAll s) lrLinkDown).link.downs24 } } :=
  if_pos h

/-- What every function is after a reset of the link (R93). -/
theorem hotResetAll_clears (s : State) (ev : LastReset) :
    (hotResetAll s ev).link.vfEnable = false ∧ (hotResetAll s ev).link.numVfs = 0 ∧
      (hotResetAll s ev).link.downs24 = s.link.downs24 ∧
      ∀ f, f < 256 → hostSideCleared (fnOf (hotResetAll s ev) f) ∧ (fnOf (hotResetAll s ev) f).lastReset = ev ∧
        (fnOf (hotResetAll s ev) f).present = false := by
  rw [hotResetAll_link]
  refine ⟨rfl, rfl, rfl, fun f hf => ?_⟩
  rw [fnOf_hotResetAll hf]
  exact ⟨hostSideCleared_hostSideReset (fnOf s f) ev, rfl, rfl⟩

theorem hotResetAll_keeps {f : Nat} (hf : f < 256) (s : State) (ev : LastReset) :
    keptThroughHostReset (fnOf s f) (fnOf (hotResetAll s ev) f) := by
  rw [fnOf_hotResetAll hf]
  exact keptThroughHostReset_hostSideReset (fnOf s f) ev

/-- Settles O11, by what a reset of the link leaves of every function. -/
theorem linkResetsFunctions : Obligations.LinkResetsFunctions := by
  refine ⟨fun s hup => ?_, fun s hup hnone => ?_⟩
  · obtain ⟨htime, hdowns⟩ := flrFinishAll_keeps s
    obtain ⟨hvf, hnum, hkept, hfns⟩ := hotResetAll_clears (flrFinishAll s) lrHot
    obtain ⟨hvf', hnum', hkept', hfns'⟩ := hotResetAll_clears (flrFinishAll s) lrLinkDown
    exact ⟨⟨_, exec_hotReset hup, rfl, rfl, hvf, hnum, (hotResetAll_time _ lrHot).trans htime, hkept.trans hdowns, hfns⟩,
      ⟨_, exec_linkDown hup, rfl, rfl, hvf', hnum', (hotResetAll_time _ lrLinkDown).trans htime,
        congrArg Hours.add (hkept'.trans hdowns), hfns'⟩⟩
  · rw [exec_hotReset hup, exec_linkDown hup, flrFinishAll_of_none hnone]
    exact ⟨⟨_, rfl, fun f hf => hotResetAll_keeps hf s lrHot⟩, ⟨_, rfl, fun f hf => hotResetAll_keeps hf s lrLinkDown⟩⟩


/-! ### What leaves on the fabric -/

/-- Only packets have gone out or come to wait: the fabric, the energy counted and what has left the node differ, and whether the
host link is in L1 (R98). -/
def sendsOnly (s t : State) : Prop :=
  t = { s with fabric := t.fabric, draught := t.draught, sent := t.sent, link := { s.link with l1 := t.link.l1 } }

theorem sendsOnly_refl (s : State) : sendsOnly s s := rfl

theorem sendsOnly_trans {s t u : State} (h : sendsOnly s t) (h' : sendsOnly t u) : sendsOnly s u := by
  unfold sendsOnly at *
  rw [h', h]

/-- What each step of a fold only sends, the fold only sends. -/
theorem sendsOnly_foldl {α : Type} {g : State → α → State} (h : ∀ s x, sendsOnly s (g s x)) (xs : List α) (s : State) :
    sendsOnly s (xs.foldl g s) := by
  induction xs generalizing s with
  | nil => exact sendsOnly_refl s
  | cons x xs ih => exact sendsOnly_trans (h s x) (ih _)

theorem sendsOnly_of_fabric (s : State) (fabric : Fabric) : sendsOnly s { s with fabric := fabric } := rfl

theorem sendsOnly_chargeEgress (s : State) (p : Nat) (r : Retained) : sendsOnly s (chargeEgress s p r) := by
  unfold chargeEgress
  split <;> rfl

theorem sendsOnly_wakeEgress (s : State) (p : Nat) (r : Retained) : sendsOnly s (wakeEgress s p r) := by
  unfold wakeEgress
  split <;> rfl

/-- A packet goes out: its port is charged, it leaves, and its record is kept or dropped (R391, R392, R395). -/
theorem sendsOnly_launch (s : State) (r : Retained) (p : Nat) : sendsOnly s (launch s r p) := by
  unfold launch
  dsimp only
  refine sendsOnly_trans (sendsOnly_chargeEgress s p r) ?_
  split <;> rfl

theorem sendsOnly_pump (n : Nat) (s : State) (p : Nat) : sendsOnly s (pump n s p) := by
  induction n generalizing s with
  | zero => exact sendsOnly_refl s
  | succ n ih =>
    unfold pump
    split
    · exact sendsOnly_refl s
    · split
      · exact sendsOnly_trans (sendsOnly_launch s _ p) (ih _)
      · exact sendsOnly_refl s

theorem sendsOnly_enqueuePacket (s : State) (r : Retained) : sendsOnly s (enqueuePacket s r) :=
  sendsOnly_trans (sendsOnly_wakeEgress s r.port r) (sendsOnly_trans (sendsOnly_of_fabric _ _) (sendsOnly_pump _ _ r.port))

theorem sendsOnly_sendPacket (s : State) (kind dst f : Nat) (epoch : Word) (ctx offset : Nat) (last comp : Bool)
    (extra : List Nat) (data : List Byte) :
    sendsOnly s (sendPacket s kind dst f epoch ctx offset last comp extra data) := by
  unfold sendPacket
  split
  · exact sendsOnly_refl s
  · split
    · exact sendsOnly_refl s
    · exact sendsOnly_trans (sendsOnly_of_fabric s _) (sendsOnly_enqueuePacket _ _)

theorem sendsOnly_sendReply (s : State) (dst f ctx : Nat) (r : Result) : sendsOnly s (sendReply s dst f ctx r) :=
  sendsOnly_trans
    (sendsOnly_trans (sendsOnly_of_fabric s _) (sendsOnly_foldl (fun _ _ => sendsOnly_sendPacket _ _ _ _ _ _ _ _ _ _ _) _ _))
    (sendsOnly_sendPacket _ _ _ _ _ _ _ _ _ _ _)

theorem sendsOnly_tellMembers (s : State) (c : Coll) (st : Byte) : sendsOnly s (tellMembers s c st) :=
  sendsOnly_foldl (fun _ _ => sendsOnly_foldl (fun _ _ => sendsOnly_sendPacket _ _ _ _ _ _ _ _ _ _ _) _ _) _ s

/-! ### A function-level reset begins -/

/-- The fabric requesters of a function's commands, and the other members of its collectives, are told that it is reset
(R94, R414). -/
def tellRequesters (s : State) (f : Nat) : State :=
  let told := (s.sched.admitted.filter (fun a => a.cmd.fn == f)).map (·.cmd) ++ (fnOf s f).fabQ
  let s := told.foldl (fun s c => match c.origin with
    | .fabric src ctx => sendReply s src f ctx (.bare stNoObject)
    | _ => s) s
  (s.fabric.colls.filter (fun c => c.fn == f && c.begun && decide (c.kind ≤ 4))).foldl (fun s c => tellMembers s c stNoObject) s

theorem sendsOnly_tellRequesters (s : State) (f : Nat) : sendsOnly s (tellRequesters s f) := by
  refine sendsOnly_trans (sendsOnly_foldl (fun s c => ?_) _ s) (sendsOnly_foldl (fun s c => sendsOnly_tellMembers s c _) _ _)
  split
  · exact sendsOnly_sendReply _ _ _ _ _
  · exact sendsOnly_refl _

/-- A function's record without a request (R94). -/
def withoutRequests (x : FnState) : FnState := { x with hostQ := [], fabQ := [], waiting := [], inflight := 0 }

/-- Every request of a function ends (step 2 of R94): before the versions that they alone had pinned are freed, the record, the
admission stage and the collectives are without them. -/
theorem endRequests_eq (s : State) (f : Nat) : ∃ v, endRequests s f = freeAll v ∧
    v = { updFn (tellRequesters s f) f withoutRequests with
      sched := v.sched, fabric := v.fabric, reeds := v.reeds, stk := v.stk, looms := v.looms } ∧
    (∀ a ∈ v.sched.admitted, a.cmd.fn ≠ f) ∧ (∀ c ∈ v.fabric.colls, c.fn ≠ f) :=
  ⟨_, rfl, rfl, fun _ ha => by simpa using (List.mem_filter.1 ha).2, fun _ hc => by simpa using (List.mem_filter.1 hc).2⟩

/-- The end of a function's requests touches its own record alone among the functions', and neither programs nor the board nor the
boot store (step 2 of R94). -/
theorem endRequests_changes (s : State) (f : Nat) : ∃ t sched fabric reeds space flash stk looms, sendsOnly s t ∧
    endRequests s f = { updFn t f withoutRequests with
      sched := sched, fabric := fabric, reeds := reeds, space := space, flash := flash, stk := stk, looms := looms } ∧
    (∀ a ∈ sched.admitted, a.cmd.fn ≠ f) ∧ (∀ c ∈ fabric.colls, c.fn ≠ f) := by
  obtain ⟨v, hend, hv, hadm, hcolls⟩ := endRequests_eq s f
  obtain ⟨space, flash, hfree⟩ := freeAll_changes v
  refine ⟨tellRequesters s f, v.sched, v.fabric, v.reeds, space, flash, v.stk, v.looms, sendsOnly_tellRequesters s f, ?_, hadm,
    hcolls⟩
  rw [hend, hfree, hv]

theorem destroyObj_changes (s : State) (oid : Nat) :
    ∃ space flash, destroyObj s oid = { s with space := space, flash := flash } := by
  obtain ⟨space, hobj⟩ := updObj_changes s oid (fun o => { o with destroyed := true, grants := [], former := [] })
  obtain ⟨space', flash, hfree⟩ := freeVersions_changes { s with space := space } oid
  exact ⟨space', flash, by rw [destroyObj, hobj, hfree]⟩

theorem foldl_destroyObj_changes (es : AMap Obj) (s : State) :
    ∃ space flash, es.foldl (fun s e => destroyObj s e.1) s = { s with space := space, flash := flash } := by
  induction es generalizing s with
  | nil => exact ⟨_, _, rfl⟩
  | cons e es ih =>
    obtain ⟨space, flash, hone⟩ := destroyObj_changes s e.1
    obtain ⟨space', flash', hrest⟩ := ih (destroyObj s e.1)
    exact ⟨space', flash', by rw [List.foldl_cons, hrest, hone]⟩

/-- Every object of a function is destroyed, and the boot store keeps none of them (step 4 of R94). -/
theorem destroyAll_changes (s : State) (f : Nat) : ∃ space flash boot,
    destroyAll s f = { s with space := space, flash := flash, boot := boot } ∧ (∀ e ∈ boot.directory, e.2.fn ≠ f) := by
  obtain ⟨space, flash, hfold⟩ := foldl_destroyObj_changes (s.space.objs.filter (fun e => e.2.fn == f && !e.2.destroyed)) s
  unfold destroyAll
  rw [hfold]
  exact ⟨space, flash, _, rfl, fun _ he => by simpa using (List.mem_filter.1 he).2⟩

/-- Every program that runs for the function is told to stop (step 3 of R94). -/
theorem stopPrograms_tells (s : State) (f : Nat) :
    ∀ e ∈ (stopPrograms s f).prog.instances, e.2.fn = f → e.2.stopping = true := by
  intro e he hfn
  obtain ⟨x, -, rfl⟩ := List.mem_map.1 he
  dsimp only at hfn ⊢
  split at hfn
  · rename_i h
    rw [if_pos h]
  · exact absurd hfn ‹_›

/-- The state in which a function is marked as in its function-level reset, VF Enable cleared first by that of function 0
(R94, R95). -/
def flrMarked (f : Nat) (s : State) : State := updFn (if f = 0 then vfOff s else s) f (fun x => { x with flr := true })

theorem exec_functionLevelReset {f : Fn} {s : State} (hf : exists' s f = true) (hflr : (fnOf s f).flr = false) :
    exec (.functionLevelReset f) s = .next (destroyAll (stopPrograms (endRequests (flrMarked f s) f) f) f) :=
  if_pos (by simp [hf, hflr])

theorem exec_functionLevelReset_again {f : Fn} {s : State} (hflr : (fnOf s f).flr = true) :
    exec (.functionLevelReset f) s = .next s := if_neg (by simp [hflr])

theorem exec_flrComplete {f : Fn} {s : State} (hflr : (fnOf s f).flr = true) :
    exec (.flrComplete f) s = .next (flrFinish s f) := if_pos hflr

theorem vfOff_time (s : State) : (vfOff s).time = s.time := by
  unfold vfOff
  split
  · exact hostReset_time s _ _
  · rfl

theorem vfOff_vfEnable (s : State) : (vfOff s).link.vfEnable = false := by
  unfold vfOff
  split
  · rfl
  · exact Bool.not_eq_true _ ▸ ‹_›

theorem flrMarked_keeps (f : Nat) (s : State) :
    (flrMarked f s).time = s.time ∧ (flrMarked f s).board = s.board ∧ (f = 0 → (flrMarked f s).link.vfEnable = false) := by
  unfold flrMarked
  by_cases hf : f = 0
  · rw [if_pos hf]
    exact ⟨vfOff_time s, vfOff_board s, fun _ => vfOff_vfEnable s⟩
  · rw [if_neg hf]
    exact ⟨rfl, rfl, fun h => absurd h hf⟩

theorem functionLevelReset_begins (f : Fn) (s : State) (hf : exists' s f = true) (hflr : (fnOf s f).flr = false) :
    ∃ t, exec (.functionLevelReset f) s = .next t ∧ (fnOf t f).flr = true ∧ (fnOf t f).hostQ = [] ∧ (fnOf t f).fabQ = [] ∧
      (fnOf t f).waiting = [] ∧ (fnOf t f).inflight = 0 ∧ (∀ a ∈ t.sched.admitted, a.cmd.fn ≠ f) ∧
      (∀ c ∈ t.fabric.colls, c.fn ≠ f) ∧ (∀ e ∈ t.boot.directory, e.2.fn ≠ f) ∧
      (∀ e ∈ t.prog.instances, e.2.fn = f → e.2.stopping = true) ∧
      (f = 0 → t.link.vfEnable = false) ∧ t.time = s.time ∧ t.board = s.board := by
  obtain ⟨u, sched, fabric, reeds, space, flash, stk, looms, hsends, hend, hadm, hcolls⟩ :=
    endRequests_changes (flrMarked f s) f
  obtain ⟨space', flash', boot, hdestroy, hdir⟩ := destroyAll_changes (stopPrograms (endRequests (flrMarked f s) f) f) f
  obtain ⟨htime, hboard, hvf⟩ := flrMarked_keeps f s
  have hstop := stopPrograms_tells (endRequests (flrMarked f s) f) f
  have hrecord : fnOf (endRequests (flrMarked f s) f) f = withoutRequests (fnOf u f) :=
    (fnOf_of_fns (by rw [hend]) f).trans (fnOf_updFn_same u f withoutRequests)
  have hmarked : (fnOf u f).flr = true := by
    rw [fnOf_of_fns (s := flrMarked f s) (by rw [hsends]) f, flrMarked, fnOf_updFn_same]
  have hexec := exec_functionLevelReset hf hflr
  rw [hdestroy] at hexec
  generalize endRequests (flrMarked f s) f = v at hexec hend hstop hrecord
  subst hend
  refine ⟨_, hexec, (congrArg FnState.flr hrecord).trans hmarked, congrArg FnState.hostQ hrecord, congrArg FnState.fabQ hrecord,
    congrArg FnState.waiting hrecord, congrArg FnState.inflight hrecord, hadm, hcolls, hdir, hstop, fun h0 => ?_, ?_, ?_⟩
  · exact (congrArg (fun t : State => t.link.vfEnable) hsends).trans (hvf h0)
  · exact (congrArg State.time hsends).trans htime
  · exact (congrArg State.board hsends).trans hboard

theorem flrComplete_ends (f : Fn) (s : State) (hflr : (fnOf s f).flr = true) :
    ∃ t, exec (.flrComplete f) s = .next t ∧ (fnOf t f).flr = false ∧ hostSideCleared (fnOf t f) ∧ (fnOf t f).lastReset = 3 ∧
      (fnOf t f).kek = none ∧ (fnOf t f).txKey = none ∧ (fnOf t f).rxKeys = [] ∧ (fnOf t f).energyNj = 0 ∧
      (fnOf t f).objSerial = 0 ∧ (fnOf t f).ready = (s.boot.serviceReady || s.boot.kindlingBolt.isSome) ∧
      (fnOf t f).violations = (fnOf s f).violations ∧ (fnOf t f).weight = (fnOf s f).weight ∧
      (∀ e ∈ t.prog.instances, e.2.fn ≠ f) ∧ (∀ e ∈ t.prog.knots, e.2.fn ≠ f) ∧
      (f = 0 → t.link.numVfs = 0 ∧ t.link.aspmL1 = false) ∧ t.time = s.time := by
  obtain ⟨hinst, hknot⟩ := flrFinish_prog s f
  have hlink : f = 0 → (flrFinish s f).link.numVfs = 0 ∧ (flrFinish s f).link.aspmL1 = false := by
    intro h0
    rw [flrFinish_link, if_pos h0]
    exact ⟨rfl, rfl⟩
  refine ⟨_, exec_flrComplete hflr, ?_⟩
  rw [fnOf_flrFinish hflr]
  exact ⟨rfl, hostSideCleared_hostSideReset (fnOf s f) lrFlr, rfl, rfl, rfl, rfl, rfl, rfl, rfl, rfl, rfl, hinst, hknot, hlink,
    flrFinish_time s f⟩

/-- Settles O12, by the steps of R94. -/
theorem functionLevelResetRuns : Obligations.FunctionLevelResetRuns :=
  ⟨functionLevelReset_begins, fun _ _ hflr => exec_functionLevelReset_again hflr, flrComplete_ends⟩

end Sys2Proof.Laws
end

section
/-! PROOFS. O13: virtual functions, power states, the link, its errors and the configuration space. -/

namespace Sys2Proof.Laws
open Sys2Proof Sys2Proof.Machine Sys2Proof.Safety

/-! ### Pending interrupts -/

/-- A pending vector that can send its message now does (R89). -/
def flushVector (f : Nat) (s : State) (v : Nat) : State :=
  if (fnOf s f).pba.getLsbD v && canSend s f v then
    emit (updFn s f (fun x => { x with pba := x.pba &&& ~~~(1#8 <<< v) }))
      (.msix f v (AMap.getD (fnOf s f).msix v {}).addr (AMap.getD (fnOf s f).msix v {}).data)
  else s

theorem flushPba_eq (s : State) (f : Nat) : flushPba s f = (List.range 8).foldl (flushVector f) s := rfl

theorem fnOf_emit (s : State) (e : Emission) (f : Nat) : fnOf (emit s e) f = fnOf s f := rfl

/-- Only interrupt messages of functions have left: their pending bits, what has left the node, and whether the link is in L1
differ (R89, R98). -/
def interruptsOnly (s t : State) : Prop :=
  t = { s with fns := t.fns, sent := t.sent, link := { s.link with l1 := t.link.l1 } } ∧
    ∀ f, fnOf t f = { fnOf s f with pba := (fnOf t f).pba }

theorem interruptsOnly_refl (s : State) : interruptsOnly s s := ⟨rfl, fun _ => rfl⟩

theorem interruptsOnly_trans {s t u : State} (h : interruptsOnly s t) (h' : interruptsOnly t u) : interruptsOnly s u := by
  obtain ⟨ht, hfn⟩ := h
  obtain ⟨hu, hfn'⟩ := h'
  refine ⟨?_, fun f => ?_⟩
  · rw [hu, ht]
  · rw [hfn' f, hfn f]

theorem interruptsOnly_foldl {α : Type} {g : State → α → State} (h : ∀ s x, interruptsOnly s (g s x)) (xs : List α) (s : State) :
    interruptsOnly s (xs.foldl g s) := by
  induction xs generalizing s with
  | nil => exact interruptsOnly_refl s
  | cons x xs ih => exact interruptsOnly_trans (h s x) (ih _)

theorem interruptsOnly_flushVector (f : Nat) (s : State) (v : Nat) : interruptsOnly s (flushVector f s v) := by
  unfold flushVector
  split
  · refine ⟨rfl, fun g => ?_⟩
    by_cases hg : f = g
    · subst hg
      rw [fnOf_emit, fnOf_updFn_same]
    · rw [fnOf_emit, fnOf_updFn_other s f g _ hg]
  · exact interruptsOnly_refl s

theorem interruptsOnly_flushPba (s : State) (f : Nat) : interruptsOnly s (flushPba s f) := by
  rw [flushPba_eq]
  exact interruptsOnly_foldl (interruptsOnly_flushVector f) _ s

/-! ### VF Enable -/

/-- A function's record once VF Enable is set: of functions 1 to NumVFs it is there (R81, R483). -/
def appeared (ready : Bool) (n f : Nat) (x : FnState) : FnState :=
  if 1 ≤ f && f ≤ n then { x with present := true, ready := ready } else x

theorem exec_vfEnable {s : State} (hoff : s.link.vfEnable = false) (hk : s.boot.kindling = false)
    (hari : s.link.ari = true ∨ s.link.numVfs ≤ 7) :
    exec .vfEnable s = .next { mapFns s (appeared s.boot.serviceReady s.link.numVfs) with
      link := { s.link with vfEnable := true } } := by
  have hgo : ¬ (s.link.vfEnable || s.boot.kindling || (!s.link.ari && decide (7 < s.link.numVfs))) = true := by
    rcases hari with h | h <;> simp [hoff, hk, h]
  exact congrArg Host.Outcome.next (if_neg hgo)

theorem vfEnable_appears (s : State) (hoff : s.link.vfEnable = false) (hk : s.boot.kindling = false)
    (hari : s.link.ari = true ∨ s.link.numVfs ≤ 7) :
    ∃ t, exec .vfEnable s = .next t ∧ t.link = { s.link with vfEnable := true } ∧ (fnOf t 0) = fnOf s 0 ∧
      ∀ f, 1 ≤ f → f < 256 → fnOf t f = (if f ≤ s.link.numVfs then
        { fnOf s f with present := true, ready := s.boot.serviceReady } else fnOf s f) := by
  have hfn : ∀ f, f < 256 → fnOf (mapFns s (appeared s.boot.serviceReady s.link.numVfs)) f =
      appeared s.boot.serviceReady s.link.numVfs f (fnOf s f) := fun f hf => fnOf_mapFns hf s _
  exact ⟨_, exec_vfEnable hoff hk hari, rfl, hfn 0 (by decide),
    fun f h1 hf => (hfn f hf).trans (by simp [appeared, h1])⟩

theorem fnOf_vfOff {f : Nat} {s : State} (hon : s.link.vfEnable = true) (hf : f < 256) (h0 : f ≠ 0) :
    fnOf (vfOff s) f = { (if (fnOf s f).present = true then hostSideReset (fnOf s f) lrVfCleared else fnOf s f) with
      present := false } := by
  have hgone : fnOf (vfOff s) f = { fnOf (hostReset s (fun f => f != 0 && (fnOf s f).present) lrVfCleared) f with
      present := false } := by
    rw [vfOff, if_pos hon]
    exact (fnOf_mapFns hf (hostReset s (fun f => f != 0 && (fnOf s f).present) lrVfCleared)
      (fun f x => if f = 0 then x else { x with present := false })).trans (if_neg h0)
  rw [hgone, fnOf_hostReset hf]
  simp [h0]

theorem vfDisable_vanishes (s : State) (hon : s.link.vfEnable = true) :
    ∃ t, exec .vfDisable s = .next t ∧ t.link = { s.link with vfEnable := false } ∧
      ∀ f, 1 ≤ f → f < 256 → (fnOf t f).present = false ∧ ((fnOf s f).present = true →
        hostSideCleared (fnOf t f) ∧ (fnOf t f).lastReset = 4 ∧ keptThroughHostReset (fnOf s f) (fnOf t f)) := by
  have hlink : (vfOff s).link = { s.link with vfEnable := false } := by
    rw [vfOff, if_pos hon]
    exact congrArg (fun l : Link => { l with vfEnable := false }) (hostReset_link s _ _)
  refine ⟨vfOff s, rfl, hlink, fun f h1 hf => ?_⟩
  rw [fnOf_vfOff hon hf (Nat.pos_iff_ne_zero.1 h1)]
  refine ⟨rfl, fun hp => ?_⟩
  rw [if_pos hp]
  exact ⟨hostSideCleared_hostSideReset (fnOf s f) lrVfCleared, rfl, keptThroughHostReset_hostSideReset (fnOf s f) lrVfCleared⟩

/-! ### Power states and the link -/

theorem exec_powerStateWrite {f : Fn} {s : State} (hf : exists' s f = true) (v : BitVec 2) :
    exec (.powerStateWrite f v) s = .next (setPower s f v.toNat) := if_pos hf

theorem powerStateWrite_sets (f : Fn) (s : State) (hf : exists' s f = true) :
    exec (.powerStateWrite f 3) s = .next (setFn s f { fnOf s f with d3hot := true }) ∧
    exec (.powerStateWrite f 1) s = .next s ∧ exec (.powerStateWrite f 2) s = .next s ∧
    ∃ t, exec (.powerStateWrite f 0) s = .next t ∧ (fnOf t f).d3hot = false ∧ (fnOf t f).msix = (fnOf s f).msix ∧
      t.time = s.time ∧ t.space = s.space := by
  refine ⟨exec_powerStateWrite hf 3, exec_powerStateWrite hf 1, exec_powerStateWrite hf 2, _, exec_powerStateWrite hf 0, ?_⟩
  have hpower : setPower s f (0 : BitVec 2).toNat = flushPba (updFn s f (fun x => { x with d3hot := false })) f := rfl
  obtain ⟨hrest, hfn⟩ := interruptsOnly_flushPba (updFn s f (fun x => { x with d3hot := false })) f
  rw [hpower, hfn f, fnOf_updFn_same]
  exact ⟨rfl, rfl, by rw [hrest]; rfl, by rw [hrest]; rfl⟩

theorem l1Entry_enters (s : State) (hup : s.link.up = true) (hl1 : s.link.aspmL1 = true) :
    exec .l1Entry s = .next { s with link := { s.link with l1 := true } } := if_pos (by simp [hup, hl1])

theorem l1Entry_disabled (s : State) (hl1 : s.link.aspmL1 = false) : exec .l1Entry s = .next s := if_neg (by simp [hl1])

/-- The link once trained, at no more than the strap's rate (R54, R479). -/
def linkTrained (r w : Nat) (flit : Bool) (s : State) : State :=
  { s with link := { s.link with
    up := true, training := false, rate := min r (strapRate s.boot), width := w
    flit := decide (6 ≤ min r (strapRate s.boot)) || flit } }

theorem exec_pcieLinkUp {s : State} (ht : s.link.training = true) (hc : s.link.refclk = true) (r w : Nat) (flit : Bool) :
    exec (.pcieLinkUp r w flit) s = .next ((s.fns.map (·.1)).foldl flushPba (linkTrained r w flit s)) :=
  if_pos (by simp [ht, hc])

theorem pcieLinkUp_trains (r w : Nat) (flit : Bool) (s : State) (ht : s.link.training = true) (hc : s.link.refclk = true) :
    ∃ t, exec (.pcieLinkUp r w flit) s = .next t ∧ t.link.up = true ∧ t.link.training = false ∧
      t.link.rate = min r (strapRate s.boot) ∧ t.link.width = w ∧ (6 ≤ t.link.rate → t.link.flit = true) ∧
      (t.link.rate < 6 → t.link.flit = flit) ∧ t.time = s.time ∧ t.space = s.space := by
  obtain ⟨hrest, -⟩ := interruptsOnly_foldl interruptsOnly_flushPba (s.fns.map (·.1)) (linkTrained r w flit s)
  refine ⟨_, exec_pcieLinkUp ht hc r w flit, ?_⟩
  rw [hrest]
  refine ⟨rfl, rfl, rfl, rfl, fun h6 => ?_, fun h6 => ?_, rfl, rfl⟩
  · exact (congrArg (· || flit) (decide_eq_true h6)).trans (Bool.true_or flit)
  · exact (congrArg (· || flit) (decide_eq_false (Nat.not_le.2 h6))).trans (Bool.false_or flit)

/-! ### Errors of the link -/

/-- A function's record with an uncorrectable error logged, and with a correctable one (R91). -/
def uncLogged (b : Nat) (x : FnState) : FnState :=
  { x with cfg := { x.cfg with uncStatus := x.cfg.uncStatus ||| (1#32 <<< b) } }

def corLogged (b : Nat) (x : FnState) : FnState :=
  { x with cfg := { x.cfg with corStatus := x.cfg.corStatus ||| (1#32 <<< b) } }

/-- The message of an error, where one is sent (R91). -/
def errorNote (f : Nat) (e : List Emission) : Prop := e = [] ∨ ∃ sev, e = [.errorMessage f sev]

/-- The report of a logged error: a message of it where its mask and Device Control let that be (R91). -/
theorem reported_changes (s u : State) (f sev : Nat) (masked : Bool) (hsent : u.sent = s.sent) : ∃ e l1, errorNote f e ∧
    ((fnOf s f).cfg.reporting = 0 → e = []) ∧
    (if !masked && (fnOf s f).cfg.reporting.getLsbD sev then emit u (.errorMessage f sev) else u) =
      { u with sent := s.sent ++ e, link := { u.link with l1 := l1 } } := by
  split
  · rename_i hgo
    refine ⟨[.errorMessage f sev], _, .inr ⟨sev, rfl⟩, fun h0 => ?_, by rw [← hsent]; rfl⟩
    simp [h0] at hgo
  · exact ⟨[], _, .inl rfl, fun _ => rfl, by rw [List.append_nil, ← hsent]⟩

theorem logUncorrectable_changes (s : State) (f b : Nat) : ∃ e l1, errorNote f e ∧
    ((fnOf s f).cfg.reporting = 0 → e = []) ∧
    logUncorrectable s f b = { updFn s f (uncLogged b) with sent := s.sent ++ e, link := { s.link with l1 := l1 } } :=
  reported_changes s (updFn s f (uncLogged b)) f _ _ rfl

theorem logCorrectable_changes (s : State) (f b : Nat) : ∃ e l1, errorNote f e ∧
    ((fnOf s f).cfg.reporting = 0 → e = []) ∧
    logCorrectable s f b = { updFn s f (corLogged b) with sent := s.sent ++ e, link := { s.link with l1 := l1 } } :=
  reported_changes s (updFn s f (corLogged b)) f 0 _ rfl

theorem fnOf_logUncorrectable (s : State) (f b : Nat) : fnOf (logUncorrectable s f b) f = uncLogged b (fnOf s f) := by
  obtain ⟨e, l1, -, -, h⟩ := logUncorrectable_changes s f b
  exact (fnOf_of_fns (by rw [h]) f).trans (fnOf_updFn_same s f (uncLogged b))

theorem fnOf_logCorrectable (s : State) (f b : Nat) : fnOf (logCorrectable s f b) f = corLogged b (fnOf s f) := by
  obtain ⟨e, l1, -, -, h⟩ := logCorrectable_changes s f b
  exact (fnOf_of_fns (by rw [h]) f).trans (fnOf_updFn_same s f (corLogged b))

theorem exec_poisonedTlp {f : Fn} {s : State} (hf : exists' s f = true) (err : LinkError) :
    exec (.poisonedTlp f err) s = .next (match linkErrorBit err with
      | .inl b => logUncorrectable s f b
      | .inr b => logCorrectable s f b) := if_pos hf

theorem poisonedTlp_logs (f : Fn) (err : LinkError) (s : State) (hf : exists' s f = true) :
    ∃ t, exec (.poisonedTlp f err) s = .next t ∧ t.space = s.space ∧ t.time = s.time ∧
      fnOf t f = { fnOf s f with cfg := match linkErrorBit err with
        | .inl b => { (fnOf s f).cfg with uncStatus := (fnOf s f).cfg.uncStatus ||| (1#32 <<< b) }
        | .inr b => { (fnOf s f).cfg with corStatus := (fnOf s f).cfg.corStatus ||| (1#32 <<< b) } } ∧
      ((fnOf s f).cfg.reporting = 0 → t.sent = s.sent) := by
  refine ⟨_, exec_poisonedTlp hf err, ?_⟩
  cases linkErrorBit err with
  | inl b =>
    obtain ⟨e, l1, -, hquiet, h⟩ := logUncorrectable_changes s f b
    exact ⟨(congrArg State.space h).trans rfl, (congrArg State.time h).trans rfl, fnOf_logUncorrectable s f b,
      fun h0 => (congrArg State.sent h).trans (by rw [hquiet h0]; exact List.append_nil s.sent)⟩
  | inr b =>
    obtain ⟨e, l1, -, hquiet, h⟩ := logCorrectable_changes s f b
    exact ⟨(congrArg State.space h).trans rfl, (congrArg State.time h).trans rfl, fnOf_logCorrectable s f b,
      fun h0 => (congrArg State.sent h).trans (by rw [hquiet h0]; exact List.append_nil s.sent)⟩

/-! ### The configuration space -/

section
variable {f : Fn} {s : State}

theorem exec_configRequest_early (hup : s.link.up = true) (hf : exists' s f = true) (h3 : s.boot.stages.contains 3 = false)
    (acc : CfgAccess) : exec (.configRequest f acc) s = .next (emit s (.config f none)) := by
  simp only [exec, execConfigRequest, hup, hf, h3]
  rfl

theorem exec_configRequest_read (hup : s.link.up = true) (hf : exists' s f = true) (h3 : s.boot.stages.contains 3 = true)
    {fld : CfgField} (hdoe : fld ≠ .doeData) :
    exec (.configRequest f (.read fld)) s = .next (emit s (.config f (some (cfgRead s f fld)))) := by
  simp only [exec, execConfigRequest, hup, hf, h3, hdoe]
  rfl

theorem exec_configRequest_doeData (hup : s.link.up = true) (hf : exists' s f = true) (h3 : s.boot.stages.contains 3 = true) :
    exec (.configRequest f (.read .doeData)) s =
      .next (takeDoe s (emit s (.config f (some (cfgRead s f .doeData)))) f) := by
  simp only [exec, execConfigRequest, hup, hf, h3]
  rfl

theorem exec_configRequest_write (hup : s.link.up = true) (hf : exists' s f = true) (h3 : s.boot.stages.contains 3 = true)
    (fld : CfgField) (v : Nat) : exec (.configRequest f (.write fld v)) s = .next (cfgWrite s f v fld) := by
  simp only [exec, execConfigRequest, hup, hf, h3]
  rfl

end

/-- Function 0 is always there (R79). -/
theorem exists_zero (s : State) : exists' s 0 = true := rfl

/-- The fields of function 0 that read alike in every state (R77, R78, R80, R81, R84, R86, R540). -/
def fixedFields : List (CfgField × Nat) :=
  [(.vendorId, 0x1E7A), (.deviceId, 0x5200), (.revisionId, 1), (.classCode, 0x120000), (.subsysId, 0x20),
    (.interruptPin, 0), (.bar 1, 0), (.bar 4, 0), (.flrCapable, 1), (.timeoutRanges, 15), (.msixTableSize, 7),
    (.msixTableBar, 2), (.msixTableOffset, 0x2000), (.msixPbaOffset, 0x3000), (.nextFunction, 0), (.totalVfs, 255),
    (.initialVfs, 255), (.firstVfOffset, 1), (.vfStride, 1), (.vfDeviceId, 0x5201), (.supportedPageSizes, 0x11),
    (.d1Support, 0), (.capability .sriov, 1), (.capability .acs, 1), (.capability .dsn, 1), (.capability .msi, 0),
    (.capability .ats, 0), (.capability .pasid, 0), (.capability .ptm, 0), (.capability .ide, 0)]

/-- And of a virtual function. -/
def fixedVfFields : List (CfgField × Nat) :=
  [(.deviceId, 0x5201), (.bar 0, 0), (.bar 2, 0), (.capability .pciExpress, 1), (.capability .msix, 1),
    (.capability .aer, 1), (.capability .doe, 1), (.capability .sriov, 0), (.capability .acs, 0)]

theorem cfgRead_fixedFields (s : State) : ∀ e ∈ fixedFields, cfgRead s 0 e.1 = e.2 := by
  intro e he
  fin_cases he <;> rfl

theorem cfgRead_fixedVfFields (s : State) {f : Nat} (h0 : f ≠ 0) : ∀ e ∈ fixedVfFields, cfgRead s f e.1 = e.2 := by
  simp [fixedVfFields, cfgRead, capPresent, b2n, h0]

theorem doeData_not_fixed : ∀ e ∈ fixedFields ++ fixedVfFields, e.1 ≠ .doeData := by decide

theorem configRequest_reads_fixed (s : State) (hup : s.link.up = true) (h3 : s.boot.stages.contains 3 = true) :
    ∀ e ∈ fixedFields, exec (.configRequest 0 (.read e.1)) s = .next (emit s (.config 0 (some e.2))) := by
  intro e he
  rw [exec_configRequest_read hup (exists_zero s) h3 (doeData_not_fixed e (List.mem_append_left _ he)),
    cfgRead_fixedFields s e he]

theorem configRequest_reads_fixedVf (f : Fn) (s : State) (hup : s.link.up = true) (hf : exists' s f = true) (h0 : f ≠ 0)
    (h3 : s.boot.stages.contains 3 = true) :
    ∀ e ∈ fixedVfFields, exec (.configRequest f (.read e.1)) s = .next (emit s (.config f (some e.2))) := by
  intro e he
  rw [exec_configRequest_read hup hf h3 (doeData_not_fixed e (List.mem_append_right _ he)), cfgRead_fixedVfFields s h0 e he]

theorem configRequest_writes (v : Nat) (s : State) (hup : s.link.up = true) (h3 : s.boot.stages.contains 3 = true) :
    exec (.configRequest 0 (.write .aspmL1 1)) s = .next { s with link := { s.link with aspmL1 := true } } ∧
    exec (.configRequest 0 (.write (.bar 0) v)) s =
      .next (setFn s 0 { fnOf s 0 with cfg := { (fnOf s 0).cfg with bar0 := BitVec.ofNat 64 (v / 0x200000000 * 0x200000000) } }) ∧
    (s.link.vfEnable = false → v ≤ 255 →
      exec (.configRequest 0 (.write .numVfs v)) s = .next { s with link := { s.link with numVfs := v } }) ∧
    (s.link.vfEnable = true → exec (.configRequest 0 (.write .numVfs v)) s = .next s) ∧
    exec (.configRequest 0 (.write .vendorId v)) s = .next s := by
  have hwrite := exec_configRequest_write hup (exists_zero s) h3
  refine ⟨hwrite _ _, hwrite _ _, fun hoff hv => (hwrite _ _).trans ?_, fun hon => (hwrite _ _).trans ?_, hwrite _ _⟩
  · exact congrArg _ (if_pos (by simp [hoff, hv]))
  · exact congrArg _ (if_neg (by simp [hon]))

theorem configRequest_takes_mailbox (f : Fn) (bs : List Byte) (s : State) (hup : s.link.up = true) (hf : exists' s f = true)
    (h3 : s.boot.stages.contains 3 = true) (hdoe : (fnOf s f).doe = some bs) :
    ∃ t, exec (.configRequest f (.read .doeData)) s = .next t ∧
      t.sent = s.sent ++ [.config f (some (leNat bs)), .doe f 0 bs] ∧ (fnOf t f).doe = none := by
  have hread : cfgRead s f .doeData = leNat bs := by simp [cfgRead, hdoe]
  refine ⟨_, exec_configRequest_doeData hup hf h3, ?_⟩
  simp only [takeDoe, hdoe, hread, fnOf_emit, fnOf_updFn_same]
  exact ⟨List.append_assoc _ _ _, trivial⟩

/-- Settles O13, row by row. -/
theorem virtualFunctionsAppear : Obligations.VirtualFunctionsAppear :=
  ⟨vfEnable_appears, vfDisable_vanishes, powerStateWrite_sets, l1Entry_enters, l1Entry_disabled, pcieLinkUp_trains,
    poisonedTlp_logs, fun _ acc _ hup hf h3 => exec_configRequest_early hup hf h3 acc, configRequest_reads_fixed,
    configRequest_reads_fixedVf, configRequest_writes, configRequest_takes_mailbox⟩

end Sys2Proof.Laws
end

section
/-! PROOFS. O14: the mailbox, the secured session and the keys that only it sets. -/

namespace Sys2Proof.Laws
open Sys2Proof Sys2Proof.Machine Sys2Proof.Safety

section
variable {f : Fn} {s : State}

/-! ### The mailbox -/

/-- A request object that finds the mailbox empty and is not too long (R90). -/
theorem exec_doeRequest_discovery (hf : exists' s f = true) (hdoe : (fnOf s f).doe = none) {len : Nat} (hlen : len ≤ 65536)
    (index : Nat) :
    exec (.doeRequest f len (.discovery index)) s = .next (setFn s f { fnOf s f with doe := some (doeDiscovery index) }) :=
  (if_neg (by simp [hf, hdoe])).trans (if_neg (Nat.not_lt.2 hlen))

theorem exec_doeRequest_cma (hf : exists' s f = true) (hdoe : (fnOf s f).doe = none) {len : Nat} (hlen : len ≤ 65536) :
    exec (.doeRequest f len .cma) s =
      .next (setFn { s with fresh := s.fresh + 1 } f { fnOf s f with doe := some (Config.spdmAnswer s.fresh) }) :=
  (if_neg (by simp [hf, hdoe])).trans (if_neg (Nat.not_lt.2 hlen))

theorem exec_doeRequest_long (hf : exists' s f = true) (hdoe : (fnOf s f).doe = none) {len : Nat} (hlen : 65536 < len)
    (obj : DoeObject) : exec (.doeRequest f len obj) s = .next (setFn s f { fnOf s f with doeError := true }) :=
  (if_neg (by simp [hf, hdoe])).trans (if_pos hlen)

theorem exec_doeRequest_full (hdoe : (fnOf s f).doe ≠ none) (obj : DoeObject) (len : Nat) :
    exec (.doeRequest f len obj) s = .next s :=
  if_pos (by simp [Option.isSome_iff_ne_none.2 hdoe])

theorem exec_doeAbort (hf : exists' s f = true) :
    exec (.doeAbort f) s = .next (setFn s f { fnOf s f with doeError := false, doe := none }) := if_pos hf

/-! ### SPDM and the secured session -/

/-- A record changed with an answer sent (R505). -/
theorem fnOf_answered (s : State) (f : Nat) (k : FnState → FnState) (e : Emission) :
    fnOf (emit (updFn (freshen s) f k) e) f = k (fnOf s f) := fnOf_updFn_same (freshen s) f k

theorem not_absent (hf : exists' s f = true) : ¬ (!exists' s f) = true := by simp [hf]

theorem spdm_challenge (hf : exists' s f = true) : ∃ t bs, exec (.spdmRequest f .challenge) s = .next t ∧
    t.sent = s.sent ++ [.doe f 0 bs] ∧ (fnOf t f).lastSigned = some s.fresh :=
  ⟨_, _, if_neg (not_absent hf), rfl, by rw [fnOf_answered]⟩

theorem spdm_measurements (hf : exists' s f = true) (signed : Bool) :
    ∃ t bs, exec (.spdmRequest f (.measurements signed)) s = .next t ∧
      t.sent = s.sent ++ [.doe f 0 (measured s f ++ bs)] ∧
      (fnOf t f).lastSigned = (if signed = true then some s.fresh else (fnOf s f).lastSigned) := by
  cases signed with
  | true => exact ⟨_, _, if_neg (not_absent hf), rfl, by rw [fnOf_answered]; rfl⟩
  | false => exact ⟨_, _, if_neg (not_absent hf), rfl, rfl⟩

theorem spdm_keyExchange_opens (hf : exists' s f = true) (hs : (fnOf s f).session = false) :
    ∃ t bs, exec (.spdmRequest f .keyExchange) s = .next t ∧ t.sent = s.sent ++ [.doe f 0 bs] ∧
      (fnOf t f).handshake = true ∧ (fnOf t f).session = false := by
  exact ⟨_, _, (if_neg (not_absent hf)).trans (if_neg (Bool.eq_false_iff.1 hs)), rfl, by rw [fnOf_answered],
    by rw [fnOf_answered]; exact hs⟩

theorem spdm_keyExchange_again (hf : exists' s f = true) (hs : (fnOf s f).session = true) :
    ∃ t, exec (.spdmRequest f .keyExchange) s = .next t ∧ t.sent = s.sent ++ [.doe f 2 []] ∧ fnOf t f = fnOf s f :=
  ⟨_, (if_neg (not_absent hf)).trans (if_pos hs), rfl, rfl⟩

theorem spdm_finish_opens (hf : exists' s f = true) (hh : (fnOf s f).handshake = true) :
    ∃ t bs, exec (.spdmRequest f .finish) s = .next t ∧ t.sent = s.sent ++ [.doe f 0 bs] ∧ (fnOf t f).session = true :=
  ⟨_, _, (if_neg (not_absent hf)).trans (if_pos hh), rfl, by rw [fnOf_answered]⟩

theorem spdm_finish_refused (hf : exists' s f = true) (hh : (fnOf s f).handshake = false) :
    ∃ t, exec (.spdmRequest f .finish) s = .next t ∧ t.sent = s.sent ++ [.doe f 1 []] ∧ fnOf t f = fnOf s f :=
  ⟨_, (if_neg (not_absent hf)).trans (if_neg (Bool.eq_false_iff.1 hh)), rfl, rfl⟩

theorem spdm_endSession_closes (hf : exists' s f = true) :
    ∃ t bs, exec (.spdmRequest f .endSession) s = .next t ∧ t.sent = s.sent ++ [.doe f 0 bs] ∧ (fnOf t f).session = false :=
  ⟨_, _, if_neg (not_absent hf), rfl, by rw [fnOf_answered]⟩

/-! ### Vendor-defined requests: the second signature and the keys -/

theorem exec_getPqCert (hf : exists' s f = true) {n : Nat} (hn : n ≤ 1024) (off : Nat) :
    exec (.getPqCert f off n) s = .next (emit s (.doe f 0 ((Config.pqChain.drop off).take n))) :=
  (if_neg (not_absent hf)).trans (if_neg (Nat.not_lt.2 hn))

theorem exec_getPqCert_long (hf : exists' s f = true) {n : Nat} (hn : 1024 < n) (off : Nat) :
    exec (.getPqCert f off n) s = .next (emit s (.doe f 2 [])) :=
  (if_neg (not_absent hf)).trans (if_pos hn)

theorem exec_getPqSig (hf : exists' s f = true) {n : Nat} (hn : (fnOf s f).lastSigned = some n) :
    exec (.getPqSig f) s = .next (emit s (.doe f 0 (Config.pqSignature n))) := by
  refine (if_neg (not_absent hf)).trans ?_
  rw [hn]

theorem exec_getPqSig_unsigned (hf : exists' s f = true) (hn : (fnOf s f).lastSigned = none) :
    exec (.getPqSig f) s = .next (emit s (.doe f 2 [])) := by
  refine (if_neg (not_absent hf)).trans ?_
  rw [hn]

theorem exec_setKek (hf : exists' s f = true) (hs : (fnOf s f).session = true) (k : BitVec 256) :
    exec (.setKek f true k) s = .next (emit (setFn s f { fnOf s f with kek := some k }) (.doe f 0 [])) :=
  (if_neg (not_absent hf)).trans (if_pos hs)

/-- Outside a secured session a key request is refused (R506). -/
theorem not_secured {b : Bool} (h : b = false ∨ (fnOf s f).session = false) : ¬ (b && (fnOf s f).session) = true := by
  rcases h with h | h <;> simp [h]

theorem exec_setKek_refused (hf : exists' s f = true) {b : Bool} (h : b = false ∨ (fnOf s f).session = false)
    (k : BitVec 256) : exec (.setKek f b k) s = .next (emit s (.doe f 1 [])) :=
  (if_neg (not_absent hf)).trans (if_neg (not_secured h))

theorem exec_setCompositionKey_elsewhere (hf : exists' s f = true) (h0 : f ≠ 0) (b : Bool) (k : BitVec 256) :
    exec (.setCompositionKey f b k) s = .next (emit s (.doe f 2 [])) :=
  (if_neg (not_absent hf)).trans (if_pos h0)

theorem exec_setNodeKey_elsewhere (hf : exists' s f = true) (h0 : f ≠ 0) (b : Bool) (k : BitVec 256) :
    exec (.setNodeKey f b k) s = .next (emit s (.doe f 2 [])) :=
  (if_neg (not_absent hf)).trans (if_pos h0)

end

theorem session_sets_node_keys (s : State) (k : BitVec 256) (hs : (fnOf s 0).session = true) :
    (∃ t, exec (.setCompositionKey 0 true k) s = .next t ∧ t.glaesh = { s.glaesh with compKey := some k } ∧ t.fns = s.fns ∧
      t.sent = s.sent ++ [.doe 0 0 []]) ∧
    (∃ t, exec (.setNodeKey 0 true k) s = .next t ∧ t.glaesh = { s.glaesh with nodeKey := some k } ∧ t.fns = s.fns ∧
      t.sent = s.sent ++ [.doe 0 0 []]) :=
  ⟨⟨_, if_pos hs, rfl, rfl, rfl⟩, ⟨_, if_pos hs, rfl, rfl, rfl⟩⟩

theorem no_session_sets_no_node_key (s : State) (k : BitVec 256) (b : Bool) (h : b = false ∨ (fnOf s 0).session = false) :
    exec (.setCompositionKey 0 b k) s = .next (emit s (.doe 0 1 [])) ∧
    exec (.setNodeKey 0 b k) s = .next (emit s (.doe 0 1 [])) :=
  ⟨if_neg (not_secured h), if_neg (not_secured h)⟩

/-- Settles O14, request by request. -/
theorem sessionsGuardKeys : Obligations.SessionsGuardKeys :=
  ⟨fun _ _ hf => ⟨fun hdoe => ⟨_, exec_doeRequest_cma hf hdoe (by decide)⟩, fun hdoe => exec_doeRequest_discovery hf hdoe (by decide) 0,
    fun hdoe => exec_doeRequest_discovery hf hdoe (by decide) 1, fun obj _ hdoe hlen => exec_doeRequest_long hf hdoe hlen obj,
    fun obj len hdoe => exec_doeRequest_full hdoe obj len, exec_doeAbort hf, spdm_challenge hf, spdm_measurements hf,
    spdm_keyExchange_opens hf, spdm_keyExchange_again hf, spdm_finish_opens hf, spdm_finish_refused hf, spdm_endSession_closes hf,
    fun off _ hn => exec_getPqCert hf hn off, fun off _ hn => exec_getPqCert_long hf hn off, fun _ hn => exec_getPqSig hf hn,
    exec_getPqSig_unsigned hf, fun k hs => exec_setKek hf hs k, fun k _ h => exec_setKek_refused hf h k,
    fun k b h0 => ⟨exec_setCompositionKey_elsewhere hf h0 b k, exec_setNodeKey_elsewhere hf h0 b k⟩⟩,
    session_sets_node_keys, no_session_sets_no_node_key⟩

end Sys2Proof.Laws
end

section
/-! PROOFS. O18: the records that a function writes into its ring, and their interrupts. -/

namespace Sys2Proof.Laws
open Sys2Proof Sys2Proof.Machine Sys2Proof.Safety

/-! ### Interrupts -/

/-- A vector fires: of the node the boot store and the time stay, of the function all but its pending bits (R89). -/
theorem raise_changes (s : State) (f v : Nat) : ∃ tail pba, (raise s f v).sent = s.sent ++ tail ∧
    fnOf (raise s f v) f = { fnOf s f with pba := pba } ∧ (raise s f v).boot = s.boot ∧ (raise s f v).time = s.time := by
  unfold raise
  split
  · exact ⟨_, _, rfl, rfl, rfl, rfl⟩
  · exact ⟨[], _, (List.append_nil _).symm, fnOf_updFn_same s f _, rfl, rfl⟩

theorem announce_changes (s : State) (f : Nat) : ∃ tail pba, (announce s f).sent = s.sent ++ tail ∧
    fnOf (announce s f) f = { fnOf s f with unannounced := 0, announceBy := 0, pba := pba } ∧
    (announce s f).boot = s.boot ∧ (announce s f).time = s.time := by
  obtain ⟨tail, pba, hsent, hfn, hboot, htime⟩ :=
    raise_changes (updFn s f (fun x => { x with unannounced := 0, announceBy := 0 })) f 0
  rw [fnOf_updFn_same] at hfn
  exact ⟨tail, pba, hsent, hfn, hboot, htime⟩

/-- After a record what is still to be announced has changed, and vector 0 may have fired (R89, R104). -/
theorem recordWritten_changes (s : State) (f : Nat) (irqNow : Bool) : ∃ tail pba n due,
    (recordWritten s f irqNow).sent = s.sent ++ tail ∧
    fnOf (recordWritten s f irqNow) f = { fnOf s f with unannounced := n, announceBy := due, pba := pba } ∧
    (recordWritten s f irqNow).boot = s.boot := by
  unfold recordWritten
  dsimp only
  split
  · obtain ⟨tail, pba, hsent, hfn, hboot, -⟩ := announce_changes _ f
    rw [fnOf_setFn_same] at hfn
    exact ⟨tail, pba, 0, 0, hsent, hfn, hboot⟩
  · exact ⟨[], (fnOf s f).pba, _, _, (List.append_nil _).symm, fnOf_setFn_same s f _, rfl⟩

/-! ### Records -/

/-- A record at the ring's tail (R113, R114). -/
def recordAt (f : Nat) (x : FnState) (fields : List (Nat × Nat × Nat)) (kind : Nat) : Emission :=
  .dma f (ringSlot x).1 (lay 32 (fields ++ [(31, 1, 128 * (ringSlot x).2 + kind)])) false

theorem writeRecord_sent (s : State) (f : Nat) (fields : List (Nat × Nat × Nat)) (kind : Nat) :
    (writeRecord s f fields kind).sent = s.sent ++ [recordAt f (fnOf s f) fields kind] := rfl

theorem fnOf_writeRecord (s : State) (f : Nat) (fields : List (Nat × Nat × Nat)) (kind : Nat) :
    fnOf (writeRecord s f fields kind) f = { fnOf s f with ringTail := (fnOf s f).ringTail + 1 } :=
  fnOf_updFn_same (emit s (recordAt f (fnOf s f) fields kind)) f (fun x => { x with ringTail := x.ringTail + 1 })

/-- The fields of a reply record (R115), and of an event record (R116). -/
def replyFields (w : Waiting) : List (Nat × Nat × Nat) :=
  [(0, 2, w.slot), (2, 1, w.res.status.toNat), (3, 1, w.res.rflags.toNat), (4, 4, w.cookie.toNat),
    (8, 4, w.res.count.toNat), (12, 4, w.res.invalid.toNat), (16, 4, w.res.version.toNat), (20, 4, w.res.value.toNat),
    (24, 4, w.elapsed.toNat)]

def eventFields (e : Event) (lost : BitVec 32) : List (Nat × Nat × Nat) :=
  [(0, 2, 0xFFFF), (2, 1, e.code.toNat), (4, 4, lost.toNat), (8, 4, e.arg0.toNat), (12, 4, e.arg1.toNat),
    (16, 8, e.arg2.toNat)]

/-- A function with its oldest reply taken from those that wait, and with its oldest event taken. -/
def replyTaken (rest : List Waiting) (x : FnState) : FnState := { x with waiting := rest, inflight := x.inflight - 1 }

def eventTaken (rest : List Event) (x : FnState) : FnState := { x with events := rest, eventsLost := 0 }

/-- A slot whose command has its record (R101, R115). -/
def slotFreed (y : Slot) : Slot := { y with busy := false, written := 0 }

/-- The state in which a reply's record is written and its slot released (R113, R115). -/
def replyWritten (f : Nat) (w : Waiting) (rest : List Waiting) (s : State) : State :=
  updSlot (writeRecord (updFn s f (replyTaken rest)) f (replyFields w) 0) f w.slot slotFreed

theorem fnOf_updSlot (s : State) (f k : Nat) (g : Slot → Slot) :
    fnOf (updSlot s f k g) f = { fnOf s f with window := AMap.insert (fnOf s f).window k (g (slotOf s f k)) } :=
  fnOf_updFn_same s f _

theorem replyWritten_sent (f : Nat) (w : Waiting) (rest : List Waiting) (s : State) :
    (replyWritten f w rest s).sent = s.sent ++ [recordAt f (replyTaken rest (fnOf s f)) (replyFields w) 0] := by
  rw [← fnOf_updFn_same s f (replyTaken rest)]
  rfl

theorem fnOf_replyWritten (f : Nat) (w : Waiting) (rest : List Waiting) (s : State) : ∃ y,
    fnOf (replyWritten f w rest s) f = { replyTaken rest (fnOf s f) with
      ringTail := (fnOf s f).ringTail + 1, window := AMap.insert (fnOf s f).window w.slot (slotFreed y) } := by
  rw [replyWritten, fnOf_updSlot, fnOf_writeRecord, fnOf_updFn_same]
  exact ⟨_, rfl⟩

theorem exec_replyRecordWrite {f : Fn} {w : Waiting} {rest : List Waiting} {s : State} (hw : (fnOf s f).waiting = w :: rest)
    (hroom : ringRoom (fnOf s f) = true) :
    exec (.replyRecordWrite f) s =
      .next (exitKindling (recordWritten (replyWritten f w rest s) f w.irqNow) (some w.slot)) := by
  simp only [exec, execReplyRecordWrite, hw, hroom]
  rfl

theorem exitKindling_of_none {s : State} (h : s.boot.exitPending = none) (slot : Option Nat) : exitKindling s slot = s :=
  if_neg (by simp [h])

theorem replyRecordWrite_writes (f : Fn) (w : Waiting) (rest : List Waiting) (s : State) (hw : (fnOf s f).waiting = w :: rest)
    (hroom : ringRoom (fnOf s f) = true) (hexit : s.boot.exitPending = none) :
    ∃ t tail, exec (.replyRecordWrite f) s = .next t ∧
      t.sent = s.sent ++ [.dma f (4096 * (fnOf s f).ringBase.toNat +
          (fnOf s f).ringTail.toNat % 2 ^ (fnOf s f).ringLog2.toNat * 32)
        (lay 32 [(0, 2, w.slot), (2, 1, w.res.status.toNat), (3, 1, w.res.rflags.toNat), (4, 4, w.cookie.toNat),
          (8, 4, w.res.count.toNat), (12, 4, w.res.invalid.toNat), (16, 4, w.res.version.toNat), (20, 4, w.res.value.toNat),
          (24, 4, w.elapsed.toNat), (31, 1, 128 * (((fnOf s f).ringTail.toNat / 2 ^ (fnOf s f).ringLog2.toNat + 1) % 2))]) false] ++ tail ∧
      (fnOf t f).waiting = rest ∧ (fnOf t f).ringTail = (fnOf s f).ringTail + 1 ∧
      (fnOf t f).inflight = (fnOf s f).inflight - 1 ∧ (slotOf t f w.slot).busy = false ∧ (slotOf t f w.slot).written = 0 := by
  have hexec := exec_replyRecordWrite hw hroom
  obtain ⟨y, hfn⟩ := fnOf_replyWritten f w rest s
  obtain ⟨tail, pba, n, due, hsent', hfn', hboot⟩ := recordWritten_changes (replyWritten f w rest s) f w.irqNow
  rw [exitKindling_of_none (by rw [hboot]; exact hexit)] at hexec
  rw [replyWritten_sent] at hsent'
  rw [hfn] at hfn'
  have hslot : slotOf (recordWritten (replyWritten f w rest s) f w.irqNow) f w.slot = slotFreed y := by
    rw [slotOf, hfn']
    exact AMap.getD_insert_same _ _ _ _
  refine ⟨_, tail, hexec, hsent', ?_, ?_, ?_, ?_, ?_⟩
  · rw [hfn']; rfl
  · rw [hfn']
  · rw [hfn']; rfl
  · rw [hslot]; rfl
  · rw [hslot]; rfl

theorem exec_eventRecordWrite {f : Fn} {e : Event} {rest : List Event} {s : State} (he : (fnOf s f).events = e :: rest)
    (hroom : ringRoom (fnOf s f) = true) :
    exec (.eventRecordWrite f) s =
      .next (raise (writeRecord (updFn s f (eventTaken rest)) f (eventFields e (fnOf s f).eventsLost) 1) f 1) := by
  simp only [exec, execEventRecordWrite, he, hroom]
  rfl

theorem eventRecordWrite_writes (f : Fn) (e : Event) (rest : List Event) (s : State) (he : (fnOf s f).events = e :: rest)
    (hroom : ringRoom (fnOf s f) = true) :
    ∃ t tail, exec (.eventRecordWrite f) s = .next t ∧
      t.sent = s.sent ++ [.dma f (4096 * (fnOf s f).ringBase.toNat +
          (fnOf s f).ringTail.toNat % 2 ^ (fnOf s f).ringLog2.toNat * 32)
        (lay 32 [(0, 2, 0xFFFF), (2, 1, e.code.toNat), (4, 4, (fnOf s f).eventsLost.toNat), (8, 4, e.arg0.toNat),
          (12, 4, e.arg1.toNat), (16, 8, e.arg2.toNat),
          (31, 1, 128 * (((fnOf s f).ringTail.toNat / 2 ^ (fnOf s f).ringLog2.toNat + 1) % 2) + 1)]) false] ++ tail ∧
      (fnOf t f).events = rest ∧ (fnOf t f).eventsLost = 0 ∧ (fnOf t f).ringTail = (fnOf s f).ringTail + 1 := by
  have hexec := exec_eventRecordWrite he hroom
  obtain ⟨tail, pba, hsent, hfn, -, -⟩ :=
    raise_changes (writeRecord (updFn s f (eventTaken rest)) f (eventFields e (fnOf s f).eventsLost) 1) f 1
  rw [writeRecord_sent, fnOf_updFn_same] at hsent
  rw [fnOf_writeRecord, fnOf_updFn_same] at hfn
  refine ⟨_, tail, hexec, hsent, ?_, ?_, ?_⟩ <;> rw [hfn] <;> rfl

/-! ### Coalescing and masks -/

theorem coalesceTimeout_announces (f : Fn) (s : State) (hn : (fnOf s f).unannounced ≠ 0) (hd : (fnOf s f).announceBy < 2 ^ 64) :
    ∃ t, exec (.coalesceTimeout f) s = .next t ∧ (fnOf t f).unannounced = 0 ∧
      t.time.toNat = max s.time.toNat (fnOf s f).announceBy := by
  obtain ⟨tail, pba, -, hfn, -, htime⟩ := announce_changes (advanceTo s (fnOf s f).announceBy) f
  exact ⟨_, if_neg hn, by rw [hfn], by rw [htime, advanceTo_toNat hd]⟩

/-- A function's record with a vector unmasked (R89). -/
def unmasked (v : Nat) (x : FnState) : FnState :=
  { x with msix := AMap.insert x.msix v { AMap.getD x.msix v {} with masked := false } }

theorem exec_msixUnmask {f : Fn} {v : Nat} {s : State} (hf : barLive s f = true) (hv : v < 8) :
    exec (.msixUnmask f v) s = .next (flushPba (updFn s f (unmasked v)) f) :=
  if_neg (by simp [hf, Nat.not_le.2 hv])

/-- A vector that is not pending sends nothing. -/
theorem flushVector_of_clear {f v : Nat} {s : State} (h : (fnOf s f).pba.getLsbD v = false) : flushVector f s v = s :=
  if_neg (by simp [h])

theorem flushVectors_of_none_pending {f : Nat} {s : State} (h : (fnOf s f).pba = 0) (vs : List Nat) :
    vs.foldl (flushVector f) s = s := by
  induction vs with
  | nil => rfl
  | cons v vs ih => rw [List.foldl_cons, flushVector_of_clear (by rw [h]; exact BitVec.getLsbD_zero), ih]

theorem flushPba_of_none_pending {f : Nat} {s : State} (h : (fnOf s f).pba = 0) : flushPba s f = s :=
  flushVectors_of_none_pending h _

/-- The only pending vector, which can send, leaves (R89). -/
theorem flushVectors_of_one_pending {f v : Nat} {s : State} (h : (fnOf s f).pba = 1#8 <<< v) (hv : v < 8)
    (hsend : canSend s f v = true) (vs : List Nat) (hmem : v ∈ vs) :
    vs.foldl (flushVector f) s = emit (updFn s f (fun x => { x with pba := 0 }))
      (.msix f v (AMap.getD (fnOf s f).msix v {}).addr (AMap.getD (fnOf s f).msix v {}).data) := by
  induction vs with
  | nil => cases hmem
  | cons w vs ih =>
    by_cases hw : w = v
    · subst hw
      have hbit : (fnOf s f).pba.getLsbD w = true := by rw [h]; simp [hv]
      have hclear : (fnOf s f).pba &&& ~~~(1#8 <<< w) = 0 := by rw [h]; simp
      have hone : flushVector f s w = emit (updFn s f (fun x => { x with pba := 0 }))
          (.msix f w (AMap.getD (fnOf s f).msix w {}).addr (AMap.getD (fnOf s f).msix w {}).data) := by
        rw [flushVector, if_pos (by rw [hbit, hsend]; rfl)]
        simp only [updFn, hclear]
      rw [List.foldl_cons, hone]
      exact flushVectors_of_none_pending (by rw [fnOf_emit, fnOf_updFn_same]) vs
    · have hbit : (fnOf s f).pba.getLsbD w = false := by
        rw [h]
        simp only [BitVec.getLsbD_shiftLeft, BitVec.getLsbD_one, Bool.and_eq_false_iff, decide_eq_false_iff_not]
        simp
        omega
      rw [List.foldl_cons, flushVector_of_clear hbit]
      exact ih ((List.mem_cons.1 hmem).resolve_left (fun e => hw e.symm))

theorem msixUnmask_none_pending (f : Fn) (v : Nat) (s : State) (hf : barLive s f = true) (hv : v < 8) (hpba : (fnOf s f).pba = 0) :
    exec (.msixUnmask f v) s = .next (setFn s f { fnOf s f with
      msix := AMap.insert (fnOf s f).msix v { AMap.getD (fnOf s f).msix v {} with masked := false } }) := by
  rw [exec_msixUnmask hf hv, flushPba_of_none_pending]
  · rfl
  · rw [fnOf_updFn_same]
    exact hpba

theorem msixUnmask_sends_pending (f : Fn) (v : Nat) (s : State) (hf : barLive s f = true) (hv : v < 8)
    (hpba : (fnOf s f).pba = 1#8 <<< v) (hup : s.link.up = true) (hen : (fnOf s f).msixEnable = true)
    (hmask : (fnOf s f).msixMask = false) (hd3 : (fnOf s f).d3hot = false) :
    ∃ t, exec (.msixUnmask f v) s = .next t ∧ (fnOf t f).pba = 0 ∧ t.sent = s.sent ++
      [.msix f v (AMap.getD (fnOf s f).msix v {}).addr (AMap.getD (fnOf s f).msix v {}).data] := by
  have hfn : fnOf (updFn s f (unmasked v)) f = unmasked v (fnOf s f) := fnOf_updFn_same s f (unmasked v)
  have hentry : AMap.getD (unmasked v (fnOf s f)).msix v {} = { AMap.getD (fnOf s f).msix v {} with masked := false } :=
    AMap.getD_insert_same _ _ _ _
  have hsend : canSend (updFn s f (unmasked v)) f v = true := by
    simp only [canSend, hfn, hentry]
    simp [unmasked, hen, hmask, hd3, hup]
  have hflush := flushVectors_of_one_pending (by rw [hfn]; exact hpba) hv hsend (List.range 8) (List.mem_range.2 hv)
  rw [hfn, hentry] at hflush
  refine ⟨_, (exec_msixUnmask hf hv).trans (congrArg _ hflush), ?_, rfl⟩
  rw [fnOf_emit, fnOf_updFn_same]

/-- Settles O18, row by row. -/
theorem recordsReachTheHost : Obligations.RecordsReachTheHost :=
  ⟨replyRecordWrite_writes, eventRecordWrite_writes, coalesceTimeout_announces, msixUnmask_none_pending, msixUnmask_sends_pending⟩

end Sys2Proof.Laws
end


section
/-! PROOFS. O25: OBJ_HINT, OBJ_INFO and failed reads of host memory. First what a target says of the object map, then the rows. -/

namespace Sys2Proof.Laws
open Sys2Proof Sys2Proof.Machine Sys2Proof.Safety

/-! ### Targets -/

/-- A function's own target is the object of its ID (R129). -/
theorem objOf_of_target_own {s : State} {a : Adm} {oid : Nat} {o : Obj} (h : target s a oid = .own o) :
    objOf s oid = some o := by
  unfold target at h
  split at h
  · split at h <;> cases h
  · cases ho : objOf s oid with
    | none =>
      rw [ho] at h
      dsimp only at h
      split at h <;> cases h
    | some x =>
      rw [ho] at h
      dsimp only at h
      split at h
      · split at h
        · cases h; rfl
        · cases h
      · split at h
        · cases h
        · split at h <;> cases h

/-- A target depends on the object space alone (R129). -/
theorem target_of_space {s t : State} (h : t.space = s.space) (a : Adm) (oid : Nat) : target t a oid = target s a oid := by
  unfold target objOf
  rw [h]

/-! ### OBJ_HINT -/

/-- The review of an object's hint stores what it finds (R164). -/
theorem reviewHint_of_some {s : State} {oid : Nat} {o : Obj} (h : objOf s oid = some o) :
    reviewHint s oid = putObj s oid { o with overridden := rehint o s.space.moves oid } :=
  updObj_of_some h _

/-- A state with other moves. -/
def withMoves (s : State) (ms : List Move) : State := { s with space := { s.space with moves := ms } }

/-- The moves after a hint is recorded: those of the other objects, and those that follow from the hint (R165). -/
def hintedMoves (s : State) (oid : Nat) (h : BitVec 8) (o : Obj) : List Move :=
  let kept := s.space.moves.filter (fun m => m.obj != oid)
  kept ++ hintMoves (withMoves (putObj s oid { o with hint := h }) kept) oid { o with hint := h }

/-- An object with a hint, which is reviewed against the moves it asks for (R164, R165). -/
def hinted (s : State) (oid : Nat) (h : BitVec 8) (o : Obj) : Obj :=
  { o with hint := h, overridden := rehint { o with hint := h } (hintedMoves s oid h o) oid }

/-- A recorded hint changes its own object and the moves, nothing else (R165). -/
theorem recordHint_own {s : State} {oid : Nat} {o : Obj} (ho : objOf s oid = some o) (h : BitVec 8) :
    recordHint s oid h =
      putObj (withMoves (putObj s oid { o with hint := h }) (hintedMoves s oid h o)) oid (hinted s oid h o) := by
  have hu := objOf_putObj_same s oid { o with hint := h }
  unfold recordHint
  rw [updObj_of_some ho]
  dsimp only
  split
  next hx => cases hu.symm.trans hx
  next x hx =>
    obtain rfl := Option.some.inj (hu.symm.trans hx)
    exact reviewHint_of_some (s := withMoves (putObj s oid { o with hint := h }) (hintedMoves s oid h o)) hu

theorem objOf_recordHint_same {s : State} {oid : Nat} {o : Obj} (ho : objOf s oid = some o) (h : BitVec 8) :
    objOf (recordHint s oid h) oid = some (hinted s oid h o) := by
  rw [recordHint_own ho, objOf_putObj_same]

theorem objOf_recordHint_other {s : State} {oid x : Nat} {o : Obj} (ho : objOf s oid = some o) (h : BitVec 8) (hx : x ≠ oid) :
    objOf (recordHint s oid h) x = objOf s x := by
  rw [recordHint_own ho, objOf_putObj_other _ _ _ _ hx.symm]
  exact objOf_putObj_other s oid x _ hx.symm

/-- A recorded hint touches the object space alone. -/
theorem recordHint_changes {s : State} {oid : Nat} {o : Obj} (ho : objOf s oid = some o) (h : BitVec 8) :
    ∃ space, recordHint s oid h = { s with space := space } :=
  ⟨_, recordHint_own ho h⟩

/-- OBJ_HINT on an own object that bytes are read from: the hint is recorded (R165). -/
theorem exec_objHint_own {s : State} {cid : Nat} {a : Adm} {o : Obj} (hr : running s cid 0x105 = some a)
    (ht : target s a (a.p 32 4) = .own o) (hk : o.kind.addressed = true) :
    exec (.objHint cid) s = .next (finish (recordHint s (a.p 32 4) (BitVec.ofNat 8 (a.p 36 1))) cid {}) := by
  refine (withCmd_some s cid 0x105 _ a hr).trans (congrArg Host.Outcome.next ?_)
  simp only [ht, Target.isMissing, Target.noWrite, Target.bad, Target.obj?, countForeign, Option.any_some, hk, Bool.not_true,
    Bool.false_eq_true, if_false]
  obtain ⟨space, e⟩ := recordHint_changes (objOf_of_target_own ht) (BitVec.ofNat 8 (a.p 36 1))
  exact meterCmd_quiet s _ cid _ (by rw [e]; rfl)

/-! ### OBJ_INFO -/

/-- OBJ_INFO of an object the function may read: its record (R135). -/
theorem exec_objInfo_readable {s : State} {cid : Nat} {a : Adm} {o : Obj} (hr : running s cid 0x106 = some a)
    (ht : target s a (a.p 32 4) = .own o ∨ target s a (a.p 32 4) = .granted o) :
    exec (.objInfo cid) s = .next (finish s cid { data := objInfo s (a.p 32 4) o }) := by
  refine (withCmd_some s cid 0x106 _ a hr).trans (congrArg Host.Outcome.next ?_)
  dsimp only
  obtain ht | ht := ht <;> (rw [ht]; exact meterCmd_quiet s _ cid _ rfl)

/-- OBJ_INFO outside the function's rights: a zero record and a violation (R129, R130). -/
theorem exec_objInfo_foreign {s : State} {cid : Nat} {a : Adm} (hr : running s cid 0x106 = some a)
    (ht : target s a (a.p 32 4) = .foreign) :
    exec (.objInfo cid) s = .next (finish (violate s a.cmd.fn 1) cid { data := List.replicate 64 0#8 }) := by
  refine (withCmd_some s cid 0x106 _ a hr).trans (congrArg Host.Outcome.next ?_)
  dsimp only
  rw [ht]
  exact meterCmd_quiet s _ cid _ rfl

/-! ### Failed reads of host memory -/

/-- A logged error leaves the object space. -/
theorem logUncorrectable_space (s : State) (f b : Nat) : (logUncorrectable s f b).space = s.space := by
  obtain ⟨e, l1, -, -, h⟩ := logUncorrectable_changes s f b
  rw [h]; rfl

/-- A failed host read finds the command at work that needed it. -/
theorem findAdm_reading {s : State} {cid : Nat} {a : Adm} (ha : findAdm s cid = some a) (hp : a.phase = .running)
    (hh : a.cmd.readsHost = true) :
    (findAdm s cid).filter (fun a => a.phase == .running && a.cmd.readsHost) = some a := by
  rw [ha]
  simp [hp, hh]

/-- A command that writes no object ends with INTERNAL where its host read fails (R91). -/
theorem exec_hostReadError_other {s : State} {cid : Nat} {a : Adm} (ha : findAdm s cid = some a) (hp : a.phase = .running)
    (hh : a.cmd.readsHost = true) (hop : a.cmd.opcode ≠ 0x102) (arrived : List Byte) (err : ReadError) :
    exec (.hostReadError cid arrived err) s =
      .next (finish (logUncorrectable s a.cmd.fn (readErrorBit err)) cid (.bare stInternal)) := by
  show execHostReadError cid arrived s err = _
  unfold execHostReadError
  rw [findAdm_reading ha hp hh]
  exact if_pos hop

/-- Where the bytes that arrived end inside the granule they begin in, no granule is whole (R182). -/
theorem wholeGranules_eq_zero {off n : Nat} (h : off + n < (off / granule + 1) * granule) :
    (off + n) / granule * granule - off = 0 := by
  have hq : (off + n) / granule < off / granule + 1 := (Nat.div_lt_iff_lt_mul (by decide)).2 h
  have hm : (off + n) / granule * granule ≤ off / granule * granule := Nat.mul_le_mul_right _ (Nat.le_of_lt_succ hq)
  have := Nat.div_mul_le_self off granule
  omega

theorem writeData_nil (s : State) (oid off : Nat) (fails : Nat → Bool) (cid : Option Nat) :
    writeData s oid off [] fails cid = some (s, 0, true) := rfl

/-- An own data object that holds a range may be written there (R131, R133). -/
theorem writeBad_data {a : Adm} {oid off n : Nat} {o : Obj} (hk : o.kind = .data) (hn : off + n ≤ pinnedSize a oid o) :
    writeBad a oid (.own o) off n = false := by
  simp [writeBad, Obj.isData, hk, beyond, hn]

/-- An OBJ_WRITE into an own data object whose first granule had not arrived changes nothing (R182). -/
theorem exec_hostReadError_write {s : State} {cid : Nat} {a : Adm} {o : Obj} {arrived : List Byte} (ha : findAdm s cid = some a)
    (hp : a.phase = .running) (hop : a.cmd.opcode = 0x102) (ht : target s a (a.p 32 4) = .own o) (hk : o.kind = .data)
    (hc : bit (a.p 36 1) 0 = false) (hn : a.p 40 8 + a.p 56 8 ≤ pinnedSize a (a.p 32 4) o) (hl : arrived.length < a.p 56 8)
    (hg : a.p 40 8 + arrived.length < (a.p 40 8 / granule + 1) * granule) (err : ReadError) :
    exec (.hostReadError cid arrived err) s =
      .next (finish (logUncorrectable s a.cmd.fn (readErrorBit err)) cid { status := stInternal }) := by
  have hh : a.cmd.readsHost = true := by unfold Cmd.readsHost; rw [hop]; rfl
  have hcid : a.cmd.cid = cid := by simpa using List.find?_some ha
  show execHostReadError cid arrived s err = _
  unfold execHostReadError
  rw [findAdm_reading ha hp hh]
  dsimp only
  rw [if_neg (not_not.2 hop), target_of_space (logUncorrectable_space s a.fn _), ht, hc]
  simp only [Bool.false_eq_true, if_false, Option.getD_some, Nat.not_le.2 hl, wholeGranules_eq_zero hg, List.take_zero,
    Target.isMissing, Target.noWrite, countForeign, writeBad_data hk hn, Obj.isData, hk, beq_self_eq_true, Bool.not_true,
    writeData_nil, writeHostFail, hcid]
  rfl

/-- Settles O25: hints, object records and failed host reads (R91, R135, R165, R182). -/
theorem hintsAndHostErrors : Obligations.HintsAndHostErrors := by
  unfold Obligations.HintsAndHostErrors
  refine ⟨fun cid a o s hr ht hk => ?_, fun cid a o s hr ht => exec_objInfo_readable hr ht,
    fun cid a s hr ht => exec_objInfo_foreign hr ht,
    fun cid arrived err a s ha hp hh hop => exec_hostReadError_other ha hp hh hop arrived err,
    fun cid arrived err a o s ha hp hop ht hk hc hn hl hg => exec_hostReadError_write ha hp hop ht hk hc hn hl hg err,
    fun f b s hb => ?_⟩
  · have ho := objOf_of_target_own ht
    obtain ⟨space, e⟩ := recordHint_changes ho (BitVec.ofNat 8 (a.p 36 1))
    have ha : findAdm (recordHint s (a.p 32 4) (BitVec.ofNat 8 (a.p 36 1))) cid = some a := by
      rw [e]
      exact (findAdm_of_running hr :)
    refine ⟨_, _, exec_objHint_own hr ht hk, doneWith_finish ha, objOf_recordHint_same ho _, rfl, rfl, rfl, rfl,
      fun x hx => congrArg (Option.map withoutCopies) (objOf_recordHint_other ho _ hx), fun c hc => ?_, ?_⟩
    · rw [otherCommandsKept_finish _ cid _ c hc, e]; rfl
    · rw [e]; rfl
  · rw [fnOf_logUncorrectable]
    show (_ ||| _ : BitVec 32).getLsbD b = true
    simp [hb]

end Sys2Proof.Laws
end


section
/-! PROOFS. O15 does not hold: it is stated of every state, also of one whose object map lists an ID twice (no command makes such a
map). An address then resolves to the entry that is live, while the bytes are sought in the first entry of its ID. -/

namespace Sys2Proof.Laws
open Sys2Proof Sys2Proof.Machine Sys2Proof.Safety

/-- The one version of a data object of 4 KiB that holds no byte but zero. -/
def zeroVersion : Version := ⟨0, 4096, [], 0, []⟩

/-- The Near frame of its only granule. -/
def zeroFrame : Frame := ⟨0, 0, .near, false, false, []⟩

/-- That data object at address 65536, destroyed or not. -/
def zeroObject (destroyed : Bool) : Obj :=
  { fn := 0, kind := .data, base := 65536, span := 1, destroyed := destroyed, current := 0
    versions := [zeroVersion], frames := [zeroFrame] }

/-- A node past stage 3 with aperture 0 of function 0 open, whose object map lists ID 1 twice: destroyed, then live. -/
def listedTwice : State :=
  { State.reset with
    boot := { State.reset.boot with stages := [3] }
    fns := [(0, { fnOf State.reset 0 with apEn := 1, d3hot := false, flr := false })]
    space := { objs := [(1, zeroObject true), (1, zeroObject false)] } }

/-- The objects after a step. -/
def objectsAfter (o : Out) : AMap Obj :=
  match o with
  | .next t => t.space.objs
  | _ => []

/-- The write finds no live object of the ID and puts its byte nowhere. -/
theorem objectsAfter_apertureWrite :
    objectsAfter (exec (.apertureWrite 0 4295032832 [7]) listedTwice) = listedTwice.space.objs := by
  decide +kernel

/-- Refutes O15: a byte 7 written through the aperture to a Near granule of a data object listed twice is not stored. -/
theorem not_apertureReachesObjects : ¬ Obligations.ApertureReachesObjects := by
  rintro ⟨-, -, hwrite, -⟩
  obtain ⟨t, obj, v, hexec, hobj, hver, hbytes, -⟩ := hwrite 0 4295032832 65536 1 0 [7] (zeroObject true) zeroVersion zeroFrame
    listedTwice (by decide +kernel) (by decide +kernel) (by decide +kernel) (by decide +kernel) (by decide +kernel) rfl
    (by decide +kernel) (by decide +kernel) rfl (by decide) (by decide) (by decide) (by decide +kernel)
  have hkept : t.space.objs = listedTwice.space.objs := by
    have hafter := objectsAfter_apertureWrite
    rwa [hexec] at hafter
  have hsame : objOf t 1 = some (zeroObject true) := congrArg (AMap.get? · 1) hkept
  obtain rfl := Option.some.inj (hobj.symm.trans hsame)
  obtain rfl : v = zeroVersion := Option.some.inj (hver.symm.trans rfl)
  exact absurd hbytes (by decide)

end Sys2Proof.Laws
end

section
/-! PROOFS. O20: an admission decision, a refill of the shapers and a sample of the queues. Waking changes only tags; an
admission is then followed operation by operation, and the two periodic rows stand at their counts. -/

namespace Sys2Proof.Laws
open Sys2Proof Sys2Proof.Machine Sys2Proof.Safety

/-! ### Waking -/

/-- Nothing but whether functions are awake and their start tags has changed (R440). -/
def retagged (s t : State) : Prop :=
  (∃ fns, t = { s with fns := fns }) ∧ ∀ g, ∃ b v, fnOf t g = { fnOf s g with awake := b, startTag := v }

theorem retagged_refl (s : State) : retagged s s := ⟨⟨s.fns, rfl⟩, fun _ => ⟨_, _, rfl⟩⟩

theorem retagged_trans {s t u : State} (h : retagged s t) (k : retagged t u) : retagged s u := by
  obtain ⟨⟨_, rfl⟩, htags⟩ := h
  obtain ⟨⟨fns, rfl⟩, ktags⟩ := k
  refine ⟨⟨fns, rfl⟩, fun g => ?_⟩
  obtain ⟨_, _, ht⟩ := htags g
  obtain ⟨b, v, hu⟩ := ktags g
  exact ⟨b, v, by rw [hu, ht]⟩

theorem retagged_setFn (s : State) (f : Nat) (b : Bool) (v : BitVec 64) :
    retagged s (setFn s f { fnOf s f with awake := b, startTag := v }) := by
  refine ⟨⟨_, rfl⟩, fun g => ?_⟩
  by_cases hg : f = g
  · subst hg
    exact ⟨b, v, fnOf_setFn_same s f _⟩
  · exact ⟨_, _, fnOf_setFn_other s f g _ hg⟩

theorem retagged_wake (s : State) (f : Nat) : retagged s (wake s f) := by
  unfold wake
  dsimp only
  split
  · split
    · exact retagged_refl s
    · exact retagged_setFn s f _ _
  · split
    · exact retagged_setFn s f _ _
    · exact retagged_refl s

theorem retagged_foldl_wake (fs : List Nat) (s : State) : retagged s (fs.foldl wake s) := by
  induction fs generalizing s with
  | nil => exact retagged_refl s
  | cons f fs ih => exact retagged_trans (retagged_wake s f) (ih _)

theorem retagged_wakeAll (s : State) : retagged s (wakeAll s) := retagged_foldl_wake _ s

@[simp] theorem wakeAll_sched (s : State) : (wakeAll s).sched = s.sched := by
  obtain ⟨⟨_, h⟩, -⟩ := retagged_wakeAll s
  rw [h]

@[simp] theorem wakeAll_time (s : State) : (wakeAll s).time = s.time := by
  obtain ⟨⟨_, h⟩, -⟩ := retagged_wakeAll s
  rw [h]

@[simp] theorem wakeAll_boot (s : State) : (wakeAll s).boot = s.boot := by
  obtain ⟨⟨_, h⟩, -⟩ := retagged_wakeAll s
  rw [h]

@[simp] theorem fnOf_wakeAll_hostQ (s : State) (g : Nat) : (fnOf (wakeAll s) g).hostQ = (fnOf s g).hostQ := by
  obtain ⟨_, _, h⟩ := (retagged_wakeAll s).2 g
  rw [h]

@[simp] theorem fnOf_wakeAll_fabQ (s : State) (g : Nat) : (fnOf (wakeAll s) g).fabQ = (fnOf s g).fabQ := by
  obtain ⟨_, _, h⟩ := (retagged_wakeAll s).2 g
  rw [h]

/-! ### The feature set that governs a command -/

/-- It depends on Kindling and on the function's active set and TENANT action alone (R122). -/
theorem featuresFor_congr {s t : State} {f : Nat} (hboot : t.boot = s.boot) (htenant : (fnOf t f).tenant = (fnOf s f).tenant)
    (hactive : (fnOf t f).featActive = (fnOf s f).featActive) (o : Origin) : featuresFor t f o = featuresFor s f o := by
  unfold featuresFor
  rw [hboot, htenant, hactive]

theorem featuresFor_of_fns {s t : State} (hboot : t.boot = s.boot) (hfns : t.fns = s.fns) (f : Nat) (o : Origin) :
    featuresFor t f o = featuresFor s f o :=
  featuresFor_congr hboot (by rw [fnOf_of_fns hfns]) (by rw [fnOf_of_fns hfns]) o

theorem featuresFor_setFn {s : State} {f : Nat} {x : FnState} (htenant : x.tenant = (fnOf s f).tenant)
    (hactive : x.featActive = (fnOf s f).featActive) (g : Nat) (o : Origin) :
    featuresFor (setFn s f x) g o = featuresFor s g o := by
  by_cases hg : f = g
  · subst hg
    have hfn := fnOf_setFn_same s f x
    exact featuresFor_congr (setFn_boot s f x) (by rw [hfn, htenant]) (by rw [hfn, hactive]) o
  · have hfn := fnOf_setFn_other s f g x hg
    exact featuresFor_congr (setFn_boot s f x) (by rw [hfn]) (by rw [hfn]) o

theorem featuresFor_wakeAll (s : State) (f : Nat) (o : Origin) : featuresFor (wakeAll s) f o = featuresFor s f o := by
  obtain ⟨_, _, h⟩ := (retagged_wakeAll s).2 f
  exact featuresFor_congr (wakeAll_boot s) (by rw [h]) (by rw [h]) o

/-! ### What an admission touches -/

/-- Nothing but the admission stage, the functions' records, the pick windows and the flash queues has changed. -/
def admissionOnly (s t : State) : Prop :=
  ∃ sched fns looms flash, t = { s with sched := sched, fns := fns, looms := looms, flash := flash }

theorem admissionOnly_trans {s t u : State} (h : admissionOnly s t) (k : admissionOnly t u) : admissionOnly s u := by
  obtain ⟨_, _, _, _, rfl⟩ := h
  obtain ⟨_, _, _, _, rfl⟩ := k
  exact ⟨_, _, _, _, rfl⟩

theorem admissionOnly_wakeAll (s : State) : admissionOnly s (wakeAll s) := by
  obtain ⟨⟨fns, h⟩, -⟩ := retagged_wakeAll s
  exact ⟨_, fns, _, _, h⟩

theorem admissionOnly_dequeue (s : State) (f : Nat) (host : Bool) : admissionOnly s (dequeue s f host) :=
  ⟨_, _, _, _, rfl⟩

/-! ### The head leaves its queue -/

@[simp] theorem dequeue_sched (s : State) (f : Nat) (host : Bool) : (dequeue s f host).sched = s.sched := rfl

theorem fnOf_dequeue_hostQ (s : State) (f : Nat) (host : Bool) :
    (fnOf (dequeue s f host) f).hostQ = if host then (fnOf s f).hostQ.tail else (fnOf s f).hostQ := by
  cases host <;> simp [dequeue]

theorem fnOf_dequeue_fabQ (s : State) (f : Nat) (host : Bool) :
    (fnOf (dequeue s f host) f).fabQ = if host then (fnOf s f).fabQ else (fnOf s f).fabQ.tail := by
  cases host <;> simp [dequeue]

theorem fnOf_dequeue_startTag (s : State) (f : Nat) (host : Bool) :
    (fnOf (dequeue s f host) f).startTag = (fnOf s f).startTag := by
  cases host <;> simp [dequeue]

theorem featuresFor_dequeue (s : State) (f : Nat) (host : Bool) (g : Nat) (o : Origin) :
    featuresFor (dequeue s f host) g o = featuresFor s g o := by
  unfold dequeue updFn
  exact featuresFor_setFn (by cases host <;> rfl) (by cases host <;> rfl) g o

/-! ### Its charge -/

/-- A charge writes the function's record, the virtual time and at most a slot's tokens (R439, R443, R450). -/
theorem chargeAdmission_eq (s : State) (f : Nat) (c : Cmd) : ∃ x shapers,
    chargeAdmission s f c =
      { setFn s f x with sched := { s.sched with vtime := (fnOf s f).startTag, shapers := shapers } } ∧
    x.hostQ = (fnOf s f).hostQ ∧ x.fabQ = (fnOf s f).fabQ ∧ x.tenant = (fnOf s f).tenant ∧
    x.featActive = (fnOf s f).featActive := by
  unfold chargeAdmission
  dsimp only
  generalize (if (fnOf s f).maxDelayUs.toNat < (now s - c.commit) / 100 then _ else _) = longest
  split
  · exact ⟨_, s.sched.shapers, rfl, rfl, rfl, rfl, rfl⟩
  · exact ⟨_, _, rfl, rfl, rfl, rfl, rfl⟩

theorem admissionOnly_chargeAdmission (s : State) (f : Nat) (c : Cmd) : admissionOnly s (chargeAdmission s f c) := by
  obtain ⟨_, _, h, -⟩ := chargeAdmission_eq s f c
  exact ⟨_, _, _, _, h⟩

theorem chargeAdmission_sched (s : State) (f : Nat) (c : Cmd) : ∃ shapers,
    (chargeAdmission s f c).sched = { s.sched with vtime := (fnOf s f).startTag, shapers := shapers } := by
  obtain ⟨_, shapers, h, -⟩ := chargeAdmission_eq s f c
  exact ⟨shapers, congrArg State.sched h⟩

theorem fnOf_chargeAdmission_queues (s : State) (f : Nat) (c : Cmd) :
    (fnOf (chargeAdmission s f c) f).hostQ = (fnOf s f).hostQ ∧ (fnOf (chargeAdmission s f c) f).fabQ = (fnOf s f).fabQ := by
  obtain ⟨x, _, h, hhost, hfab, -⟩ := chargeAdmission_eq s f c
  have hfns : (chargeAdmission s f c).fns = (setFn s f x).fns := by rw [h]
  have hfn : fnOf (chargeAdmission s f c) f = x := (fnOf_of_fns hfns f).trans (fnOf_setFn_same s f x)
  rw [hfn]
  exact ⟨hhost, hfab⟩

theorem featuresFor_chargeAdmission (s : State) (f : Nat) (c : Cmd) (g : Nat) (o : Origin) :
    featuresFor (chargeAdmission s f c) g o = featuresFor s g o := by
  obtain ⟨x, _, h, -, -, htenant, hactive⟩ := chargeAdmission_eq s f c
  have hfns : (chargeAdmission s f c).fns = (setFn s f x).fns := by rw [h]
  have hboot : (chargeAdmission s f c).boot = (setFn s f x).boot := by rw [h]
  exact (featuresFor_of_fns hboot hfns g o).trans (featuresFor_setFn htenant hactive g o)

/-! ### It enters the pool -/

/-- A state whose pool holds one command more, behind the others. -/
def pooled (s : State) (a : Adm) : State :=
  { s with sched := { s.sched with admitted := s.sched.admitted ++ [a], nextSeq := s.sched.nextSeq + 1 } }

/-- That state once the command has joined pick windows and its reads the flash queues. -/
def windowed (s : State) (a : Adm) (flash : Flash) (looms : Looms) (work : List (Nat × BitVec 32)) : State :=
  { pooled s { a with work := work } with looms := looms, flash := flash }

theorem queueReads_changes (s : State) (a : Adm) : ∃ flash, queueReads s a = { s with flash := flash } := by
  have hreads : ∀ (b : Bool) (client : FlashClient) (oid ver off len : Nat) (deadline : Option Nat), ∃ flash,
      (if b then queueRange s client oid ver off len deadline else s) = { s with flash := flash } := by
    intro b client oid ver off len deadline
    cases b with
    | true => exact queueRange_changes s client oid ver off len deadline
    | false => exact ⟨_, rfl⟩
  unfold queueReads
  dsimp only
  split
  · exact hreads _ _ _ _ _ _ _
  · exact hreads _ _ _ _ _ _ _
  · exact ⟨_, rfl⟩

theorem foldl_joinWindow_changes (a : Adm) (ls : List Nat) (s : State) : ∃ looms,
    ls.foldl (fun s l => joinWindow s a l) s = { s with looms := looms } := by
  induction ls generalizing s with
  | nil => exact ⟨_, rfl⟩
  | cons l ls ih =>
    obtain ⟨looms, h⟩ := ih (joinWindow s a l)
    exact ⟨looms, h⟩

/-- A change of the last command of a pool whose others bear other numbers. -/
theorem updAdm_last {s : State} {pool : List Adm} {a : Adm} (hs : s.sched.admitted = pool ++ [a])
    (hpool : ∀ x ∈ pool, x.cmd.cid ≠ a.cmd.cid) (g : Adm → Adm) :
    updAdm s a.cmd.cid g = { s with sched := { s.sched with admitted := pool ++ [g a] } } := by
  have hkept : ∀ x ∈ pool, (if x.cmd.cid == a.cmd.cid then g x else x) = id x :=
    fun x hx => if_neg (by simpa using hpool x hx)
  rw [updAdm, hs, List.map_append, List.map_congr_left hkept, List.map_id, List.map_singleton, beq_self_eq_true, if_pos rfl]

theorem cid_ne_of_findAdm_none {s : State} {cid : Nat} (h : findAdm s cid = none) :
    ∀ x ∈ s.sched.admitted, x.cmd.cid ≠ cid := by
  intro x hx
  simpa using List.find?_eq_none.1 h x hx

theorem issueLists_windowed {s : State} {a : Adm} (hnew : findAdm s a.cmd.cid = none) (flash : Flash) (i : Nat)
    (ls : List Nat) (looms : Looms) (work : List (Nat × BitVec 32)) : ∃ looms' work',
    issueLists (windowed s a flash looms work) a i ls = windowed s a flash looms' work' := by
  obtain ⟨looms', h⟩ := foldl_joinWindow_changes a ls (windowed s a flash looms work)
  unfold issueLists
  rw [h]
  exact ⟨looms', _, updAdm_last (a := { a with work := work }) rfl (cid_ne_of_findAdm_none hnew) _⟩

theorem foldl_issueLists_windowed {s : State} {a : Adm} (hnew : findAdm s a.cmd.cid = none) (flash : Flash)
    (next : Nat → List Nat) (is : List Nat) (looms : Looms) (work : List (Nat × BitVec 32)) : ∃ looms' work',
    is.foldl (fun s i => issueLists s a i (next i)) (windowed s a flash looms work) = windowed s a flash looms' work' := by
  induction is generalizing looms work with
  | nil => exact ⟨looms, work, rfl⟩
  | cons i is ih =>
    obtain ⟨looms', work', h⟩ := issueLists_windowed hnew flash i (next i) looms work
    rw [List.foldl_cons, h]
    exact ih looms' work'

theorem joinWindows_windowed {s : State} {a : Adm} (hnew : findAdm s a.cmd.cid = none) (flash : Flash) (looms : Looms)
    (work : List (Nat × BitVec 32)) : ∃ looms' work',
    joinWindows (windowed s a flash looms work) a = windowed s a flash looms' work' := by
  unfold joinWindows
  dsimp only
  split
  · exact ⟨_, _, rfl⟩
  · split
    · exact ⟨_, _, rfl⟩
    · split
      · exact ⟨_, _, rfl⟩
      · exact foldl_issueLists_windowed hnew flash _ _ looms work

/-- A command that enters with work to do keeps all but its list work through its windows and its queued reads. -/
theorem joinWindows_queueReads_pooled {s : State} {a : Adm} (hnew : findAdm s a.cmd.cid = none) : ∃ b flash looms,
    joinWindows (queueReads (pooled s a) a) a = { pooled s b with flash := flash, looms := looms } ∧
    b.cmd = a.cmd ∧ b.seq = a.seq ∧ b.admitted = a.admitted ∧ b.features = a.features := by
  obtain ⟨flash, h⟩ := queueReads_changes (pooled s a) a
  obtain ⟨looms, work, hjoin⟩ := joinWindows_windowed hnew flash s.looms a.work
  rw [h]
  exact ⟨{ a with work := work }, flash, looms, hjoin, rfl, rfl, rfl, rfl⟩

/-- A command enters the pool behind the others, with the next number, its features and the present count (R107, R122). -/
theorem enterPool_eq {s : State} {c : Cmd} (hnew : findAdm s c.cid = none) : ∃ a flash looms,
    enterPool s c = { pooled s a with flash := flash, looms := looms } ∧
    a.cmd = c ∧ a.seq = s.sched.nextSeq ∧ a.admitted = now s ∧ a.features = featuresFor s c.fn c.origin := by
  unfold enterPool
  dsimp only
  split
  · exact ⟨_, s.flash, s.looms, rfl, rfl, rfl, rfl, rfl⟩
  · exact joinWindows_queueReads_pooled hnew

/-! ### An admission decision -/

/-- The head of the chosen function has left its queue and is charged. -/
def taken (s : State) (f : Nat) (c : Cmd) (host : Bool) : State := chargeAdmission (dequeue (wakeAll s) f host) f c

theorem admissionOnly_taken (s : State) (f : Nat) (c : Cmd) (host : Bool) : admissionOnly s (taken s f c host) :=
  admissionOnly_trans (admissionOnly_wakeAll s)
    (admissionOnly_trans (admissionOnly_dequeue _ f host) (admissionOnly_chargeAdmission _ f c))

theorem taken_sched (s : State) (f : Nat) (c : Cmd) (host : Bool) : ∃ shapers,
    (taken s f c host).sched = { s.sched with vtime := (fnOf (wakeAll s) f).startTag, shapers := shapers } := by
  obtain ⟨shapers, h⟩ := chargeAdmission_sched (dequeue (wakeAll s) f host) f c
  rw [dequeue_sched, wakeAll_sched, fnOf_dequeue_startTag] at h
  exact ⟨shapers, h⟩

theorem fnOf_taken_hostQ (s : State) (f : Nat) (c : Cmd) (host : Bool) :
    (fnOf (taken s f c host) f).hostQ = if host then (fnOf s f).hostQ.tail else (fnOf s f).hostQ := by
  rw [taken, (fnOf_chargeAdmission_queues _ f c).1, fnOf_dequeue_hostQ, fnOf_wakeAll_hostQ]

theorem fnOf_taken_fabQ (s : State) (f : Nat) (c : Cmd) (host : Bool) :
    (fnOf (taken s f c host) f).fabQ = if host then (fnOf s f).fabQ else (fnOf s f).fabQ.tail := by
  rw [taken, (fnOf_chargeAdmission_queues _ f c).2, fnOf_dequeue_fabQ, fnOf_wakeAll_fabQ]

theorem featuresFor_taken (s : State) (f : Nat) (c : Cmd) (host : Bool) (g : Nat) (o : Origin) :
    featuresFor (taken s f c host) g o = featuresFor s g o := by
  rw [taken, featuresFor_chargeAdmission, featuresFor_dequeue, featuresFor_wakeAll]

theorem now_of_admissionOnly {s t : State} (h : admissionOnly s t) : now t = now s := by
  obtain ⟨_, _, _, _, rfl⟩ := h
  rfl

theorem exec_commandAdmit {f : Nat} {c : Cmd} {host : Bool} {s : State} (hf : chosen (wakeAll s) = some f)
    (hc : candidate (wakeAll s) f = some (c, host)) :
    exec .commandAdmit s = .next (wakeAll (enterPool (taken s f c host) c)) := by
  simp only [exec, execCommandAdmit, hf, hc, taken]

theorem commandAdmit_admits (f : Nat) (c : Cmd) (host : Bool) (s : State) (hf : chosen (wakeAll s) = some f)
    (hc : candidate (wakeAll s) f = some (c, host)) (hnew : findAdm s c.cid = none) :
    ∃ t a, exec .commandAdmit s = .next t ∧ t.sched.admitted = s.sched.admitted ++ [a] ∧ a.cmd = c ∧
      a.seq = s.sched.nextSeq ∧ t.sched.nextSeq = s.sched.nextSeq + 1 ∧ a.admitted = now s ∧
      a.features = featuresFor s c.fn c.origin ∧ t.sched.vtime = (fnOf (wakeAll s) f).startTag ∧
      (fnOf t f).hostQ = (if host then (fnOf s f).hostQ.tail else (fnOf s f).hostQ) ∧
      (fnOf t f).fabQ = (if host then (fnOf s f).fabQ else (fnOf s f).fabQ.tail) ∧
      t = { s with sched := t.sched, fns := t.fns, looms := t.looms, flash := t.flash } := by
  obtain ⟨shapers, hsched⟩ := taken_sched s f c host
  have htaken : findAdm (taken s f c host) c.cid = none := by
    rw [findAdm, hsched]
    exact hnew
  obtain ⟨a, flash, looms, hpool, hcmd, hseq, hadmitted, hfeatures⟩ := enterPool_eq htaken
  have honly : admissionOnly s (wakeAll (enterPool (taken s f c host) c)) :=
    admissionOnly_trans (admissionOnly_taken s f c host)
      (admissionOnly_trans ⟨_, _, _, _, hpool⟩ (admissionOnly_wakeAll _))
  have hfn : fnOf (enterPool (taken s f c host) c) f = fnOf (taken s f c host) f := fnOf_of_fns (by rw [hpool]; rfl) f
  refine ⟨_, a, exec_commandAdmit hf hc, ?_, hcmd, ?_, ?_, ?_, ?_, ?_, ?_, ?_, ?_⟩
  · rw [wakeAll_sched, hpool, pooled, hsched]
  · rw [hseq, hsched]
  · rw [wakeAll_sched, hpool, pooled, hsched]
  · rw [hadmitted, now_of_admissionOnly (admissionOnly_taken s f c host)]
  · rw [hfeatures, featuresFor_taken]
  · rw [wakeAll_sched, hpool, pooled, hsched]
  · rw [fnOf_wakeAll_hostQ, hfn, fnOf_taken_hostQ]
  · rw [fnOf_wakeAll_fabQ, hfn, fnOf_taken_fabQ]
  · obtain ⟨_, _, _, _, h⟩ := honly
    rw [h]

/-! ### Periods -/

theorem le_roundUp {m : Nat} (hm : 0 < m) (a : Nat) : a ≤ roundUp a m := by
  have hdiv := Nat.div_add_mod (a + m - 1) m
  have hmod := Nat.mod_lt (a + m - 1) hm
  rw [roundUp, ceilDiv, Nat.mul_comm]
  omega

theorem roundUp_mod (a m : Nat) : roundUp a m % m = 0 := Nat.mul_mod_left _ _

theorem now_le_dueAt (s : State) (p : Periodic) : now s ≤ dueAt s p := by
  unfold dueAt
  dsimp only
  split
  · exact (Nat.le_max_left _ _).trans (le_roundUp (Nat.succ_pos _) _)
  · exact (Nat.le_max_left _ _).trans (le_roundUp (Nat.succ_pos _) _)
  · exact Nat.le_max_left _ _

theorem now_recur {s : State} {p : Periodic} (h : dueAt s p < 2 ^ 64) : now (recur s p) = dueAt s p :=
  (advanceTo_toNat h s).trans (Nat.max_eq_right (now_le_dueAt s p))

/-! ### Refills -/

theorem shaperRefill_refills (s : State) (h : dueAt s .refill < 2 ^ 64) : ∃ t, exec .shaperRefill s = .next t ∧
    now t = dueAt s .refill ∧ now t % 10000 = 0 ∧ now s ≤ now t ∧
    t.sched.shapers = s.sched.shapers.map (fun e => (e.1, refill e.2 (now t))) ∧
    t = { s with time := t.time, sched := { s.sched with shapers := t.sched.shapers, fired := t.sched.fired } } := by
  have hnow := now_recur h
  refine ⟨_, rfl, hnow, ?_, ?_, rfl, rfl⟩
  · exact (congrArg (· % 10000) hnow).trans (roundUp_mod _ _)
  · exact (now_le_dueAt s .refill).trans hnow.ge

/-- A slot without new settings gains its rate, up to its burst (R443). -/
theorem refill_without_settings (x : Shaper) (n : Nat) (hnext : x.next = []) (hrate : x.rate ≠ 0) :
    refill x n = { x with tokens := min (x.tokens + x.rate.toNat) x.burst.toNat } := by
  simp only [refill, hnext, List.filter_nil, List.foldl_nil, if_neg hrate]

/-- Settings made before the refill's count take effect with it; later ones wait (R444, R451). -/
theorem refill_with_settings (x : Shaper) (r b : BitVec 32) (m n : Nat) (hnext : x.next = [(r, b, m)]) (hr : r ≠ 0) :
    refill x n = (if m < n then { x with rate := r, burst := b, next := [], tokens := min (x.tokens + r.toNat) b.toNat }
      else { x with tokens := if x.rate = 0 then 0 else min (x.tokens + x.rate.toNat) x.burst.toNat }) := by
  unfold refill
  by_cases hm : m < n
  · have hdue : decide (n ≤ m) = false := decide_eq_false (Nat.not_le.2 hm)
    simp only [hnext, List.filter_singleton, hm, hdue, decide_true, cond_true, cond_false, List.foldl_cons,
      List.foldl_nil, if_neg hr, if_true]
  · have hle : n ≤ m := Nat.not_lt.1 hm
    simp only [hnext, List.filter_singleton, hm, hle, decide_true, decide_false, cond_true, cond_false, List.foldl_nil,
      if_false]
    split <;> rfl

/-! ### Depth samples -/

theorem queueSample_samples (f : Nat) (s : State) (hf : f < 256) (h : dueAt s .sample < 2 ^ 64) :
    ∃ t, exec .queueSample s = .next t ∧
      now t = dueAt s .sample ∧ now t % 1000 = 0 ∧ now s ≤ now t ∧
      (fnOf t f).samples = satAdd (fnOf s f).samples 1 ∧
      (fnOf t f).depthSum = satAdd (fnOf s f).depthSum ((fnOf s f).hostQ.length + (fnOf s f).fabQ.length) ∧
      (fnOf t f).hostQ = (fnOf s f).hostQ ∧ (fnOf t f).fabQ = (fnOf s f).fabQ ∧
      t = { s with fns := t.fns, time := t.time, sched := { s.sched with fired := t.sched.fired } } := by
  have hnow : now (mapFns (recur s .sample) (fun _ x => sampleDepth x)) = dueAt s .sample := now_recur h
  have hfn : fnOf (mapFns (recur s .sample) (fun _ x => sampleDepth x)) f = sampleDepth (fnOf s f) := fnOf_mapFns hf _ _
  refine ⟨_, rfl, hnow, ?_, ?_, ?_, ?_, ?_, ?_, rfl⟩
  · rw [hnow]
    exact roundUp_mod _ _
  · rw [hnow]
    exact now_le_dueAt s .sample
  all_goals rw [hfn]; rfl

/-- Settles O20: the decision through what each of its operations does, the two periodic rows through their counts (the first
count of a row that never came is a period after 0, log 137). -/
theorem schedulerAdmits : Obligations.SchedulerAdmits :=
  ⟨commandAdmit_admits, shaperRefill_refills, refill_without_settings, refill_with_settings, queueSample_samples⟩

end Sys2Proof.Laws
end

section
/-! PROOFS. O56 does not hold: it is stated of every state, also of one where an object lists one of its granules twice (no command
makes such a list). A move Near that needs a frame drops a cached copy of the channel, and every frame of the copy's name goes with
it, also one that lies Near. -/

namespace Sys2Proof.Laws
open Sys2Proof Sys2Proof.Machine Sys2Proof.Safety

/-! ### A granule comes Near -/

/-- A change of an object leaves the others. -/
theorem objOf_updObj_other (s : State) {oid x : Nat} (k : Obj → Obj) (h : x ≠ oid) : objOf (updObj s oid k) x = objOf s x := by
  unfold updObj
  split
  · exact objOf_putObj_other s oid x _ h.symm
  · rfl

/-- A Peat granule that no listed move names and whose hint is not Peat is brought Near where there is room (R162-R164). -/
theorem granuleMoveComplete_near {s : State} {obj gran : Nat} {o : Obj} {v : Version} {fr : Frame} (ho : objOf s obj = some o)
    (hc : chanHolds s (channelOf s obj gran) = false)
    (hm : s.space.moves.find? (fun m => m.obj == obj && m.gran == gran) = none) (hv : verOf o o.current = some v)
    (hf : frameOf o v gran = some fr) (ht : fr.tier ≠ .near) (hfull : fr.full = false) (hh : o.hint ≠ 2) :
    exec (.granuleMoveComplete obj gran) s = .next (reviewHint (moveNear s obj fr.ver gran fr) obj) := by
  show execGranuleMoveComplete obj gran s = _
  have hlive : (objOf s obj).filter (fun _ => !chanHolds s (channelOf s obj gran)) = some o := by simp [ho, hc]
  have hframe : (verOf o o.current).bind (fun v => frameOf o v gran) = some fr := by simp [hv, hf]
  have hnear : (fr.tier == .near) = false := beq_false_of_ne ht
  have hhint : (o.hint != 2) = true := bne_iff_ne.2 hh
  unfold execGranuleMoveComplete
  rw [hlive]
  dsimp only
  rw [hm, hframe]
  simp only [hnear, hhint, hfull, Bool.false_eq_true, if_false, Bool.not_false, Bool.and_true, if_true]

/-- Of the other objects a granule brought Near changes what the dropped copy changes. -/
theorem objOf_moveNear_other {s : State} {oid ver g x : Nat} {fr : Frame} (hl : fr.lost = false) (hr : nearRoom s oid g = true)
    (hx : x ≠ oid) : objOf (moveNear s oid ver g fr) x = objOf (dropCached s (channelOf s oid g)) x := by
  unfold moveNear
  rw [hl, hr]
  exact objOf_updObj_other (dropCached s (channelOf s oid g)) _ hx

/-! ### A granule listed twice -/

/-- The frame of a granule 0 on the peat tier. -/
def peatGranule : Frame := { zeroFrame with tier := .peat }

/-- A data object of that one granule. -/
def peatObject : Obj :=
  { fn := 0, kind := .data, base := 65536, span := 1, current := 0, versions := [zeroVersion], frames := [peatGranule] }

/-- A data object that lists its granule once Near and `n` times as a cached copy. -/
def copiedObject (n : Nat) : Obj :=
  { peatObject with base := 196608, frames := zeroFrame :: List.replicate n { zeroFrame with tier := .cached } }

/-- A node with both, as objects 1 and 641, whose granules are placed on channel 67 (R207). -/
def crowded (n : Nat) : State := { State.reset with space := { objs := [(1, peatObject), (641, copiedObject n)] } }

theorem channelOf_crowded_peat (n : Nat) : channelOf (crowded n) 1 0 = 67 := by
  show channelOf State.reset 1 0 = 67
  decide +kernel

theorem channelOf_crowded_copied (n : Nat) : channelOf (crowded n) 641 0 = 67 := by
  show channelOf State.reset 641 0 = 67
  decide +kernel

/-- One frame of the channel holds a Near granule. -/
theorem channelUsed_crowded (n : Nat) : channelUsed (crowded n) 67 = 1 := by
  have hnear : channelUsed (crowded n) 67 = (copiedObject n).frames.countP
      (fun fr => fr.tier == .near && channelOf (crowded n) 641 fr.gran == 67) := by
    simp [channelUsed, crowded, peatObject, peatGranule, zeroFrame]
  simp [hnear, copiedObject, zeroFrame, channelOf_crowded_copied, List.countP_replicate]

/-- The copies of the channel are those of the second object. -/
theorem cachedOn_crowded (n : Nat) : cachedOn (crowded n) 67 = List.replicate n (641, 0, 0) := by
  have hpeat : cachedOn (crowded n) 67 = ((copiedObject n).frames.filter
      (fun fr => fr.tier == .cached && channelOf (crowded n) 641 fr.gran == 67)).map (fun fr => (641, fr.ver, fr.gran)) := by
    simp [cachedOn, crowded, peatObject, peatGranule, zeroFrame]
  simp [hpeat, copiedObject, zeroFrame, channelOf_crowded_copied]

theorem channelCached_crowded (n : Nat) : channelCached (crowded n) 67 = n := by
  have hcopies : channelCached (crowded n) 67 = (copiedObject n).frames.countP
      (fun fr => fr.tier == .cached && channelOf (crowded n) 641 fr.gran == 67) := by
    simp [channelCached, crowded, peatObject, peatGranule, zeroFrame]
  simp [hcopies, copiedObject, zeroFrame, channelOf_crowded_copied, List.countP_replicate]

/-- A fold over equal elements stays where one of them leaves it. -/
theorem foldl_replicate_of_fixed {α β : Type} {f : β → α → β} {b : β} {a : α} (h : f b a = b) (n : Nat) :
    (List.replicate n a).foldl f b = b := by
  induction n with
  | zero => rfl
  | succ n ih => rw [List.replicate_succ, List.foldl_cons, h, ih]

/-- The second object with every frame of its granule made Peat. -/
def droppedObject (n : Nat) : Obj :=
  { copiedObject n with frames := (copiedObject n).frames.map (fun fr =>
      if fr.ver == 0 && fr.gran == 0 then { fr with tier := .peat } else fr) }

/-- With 20,479 copies the channel's 20,480 frames are taken (R161): a copy is dropped, and the Near frame of its name with it. -/
theorem objOf_dropCached_crowded {n : Nat} (h : 20479 ≤ n) : objOf (dropCached (crowded n) 67) 641 = some (droppedObject n) := by
  have htaken : ¬ channelUsed (crowded n) 67 + channelCached (crowded n) 67 < channelFrames 67 := by
    have hframes : channelFrames 67 = 20480 := rfl
    rw [channelUsed_crowded, channelCached_crowded]
    omega
  have hobj : objOf (crowded n) 641 = some (copiedObject n) := rfl
  obtain ⟨m, hm⟩ : ∃ m, n = m + 1 := ⟨n - 1, by omega⟩
  have hcopies : cachedOn (crowded n) 67 = (641, 0, 0) :: List.replicate m (641, 0, 0) := by
    rw [cachedOn_crowded, hm, List.replicate_succ]
  unfold dropCached
  rw [if_neg htaken, hcopies, List.foldl_cons, foldl_replicate_of_fixed (by simp)]
  dsimp only
  rw [updObj_of_some hobj, objOf_putObj_same]
  rfl

theorem nearRoom_crowded (n : Nat) : nearRoom (crowded n) 1 0 = true := by
  have hlimit : (fnOf (crowded n) (oidFn 1)).nearLimit.toNat = 0 := by
    show (fnOf State.reset 0).nearLimit.toNat = 0
    decide
  simp [nearRoom, channelOf_crowded_peat, channelUsed_crowded, channelFrames, hlimit]

/-- The tier of the frame that an object lists first. -/
def firstTier (o : Option Obj) : Option Tier := o.bind (fun o => o.frames.head?.map Frame.tier)

/-- The granule of the first object comes Near, and the second object loses its Near frame. -/
theorem not_otherObjectsKept_crowded {n : Nat} (h : 20479 ≤ n) :
    ¬ otherObjectsKept (crowded n) (reviewHint (moveNear (crowded n) 1 0 0 peatGranule) 1) 1 := by
  intro hkept
  have hafter : objOf (reviewHint (moveNear (crowded n) 1 0 0 peatGranule) 1) 641 = some (droppedObject n) := by
    rw [reviewHint, objOf_updObj_other _ _ (by decide), objOf_moveNear_other rfl (nearRoom_crowded n) (by decide),
      channelOf_crowded_peat, objOf_dropCached_crowded h]
  have hsame := hkept 641 (by decide)
  rw [hafter] at hsame
  have htier : some Tier.peat = some Tier.near := congrArg firstTier hsame
  exact absurd htier (by decide)

/-- Refutes O56: with 20,479 copies of the second object's granule on channel 67, the first object's granule comes Near there and
the second's Near frame becomes Peat, so that object 641 does not stay as it was. -/
theorem not_flashEventsEnd : ¬ Obligations.FlashEventsEnd := by
  rintro ⟨-, -, -, -, -, -, -, -, -, -, -, -, -, -, -, -, -, -, -, -, -, -, -, hnear, -⟩
  obtain ⟨n, hn⟩ : ∃ n, 20479 ≤ n := ⟨20479, le_rfl⟩
  obtain ⟨t, -, hexec, -, -, -, hothers, -⟩ := hnear 1 0 peatObject zeroVersion peatGranule (crowded n)
    rfl rfl rfl rfl rfl rfl (by decide) rfl rfl (by decide) (nearRoom_crowded n)
  have hrow : exec (.granuleMoveComplete 1 0) (crowded n) = .next (reviewHint (moveNear (crowded n) 1 0 0 peatGranule) 1) :=
    granuleMoveComplete_near (o := peatObject) (v := zeroVersion) (fr := peatGranule) rfl rfl rfl rfl rfl (by decide) rfl (by decide)
  obtain rfl := Host.Outcome.next.inj (hrow.symm.trans hexec)
  exact not_otherObjectsKept_crowded hn hothers

end Sys2Proof.Laws
end

section
/-! PROOFS. O34 does not hold: it is stated of every state, also of one whose object map lists an ID twice (no command makes such a
map). A shuttle's address then resolves to the entry that is live, while the store looks for its object in the first entry of the ID. -/

namespace Sys2Proof.Laws
open Sys2Proof Sys2Proof.Machine Sys2Proof.Safety

/-- The word of `ST1 g2, 0(g1)` (R280): opcode 24, RD 2, RA 1. -/
def storeWord : Nat := 24 * 2 ^ 26 + 2 * 2 ^ 20 + 1 * 2 ^ 14

/-- A program image whose code section, at byte 64, is that word (R294). -/
def storeImage : Mem := Mem.ofBytes (lay 68 [(16, 4, 64), (20, 4, 4), (64, 4, storeWord)])

/-- Shuttle 0 at that word: g1 holds the address 65536, g2 the byte 7. -/
def storeShuttle : Shuttle := { state := .ready, inst := 5, g := [(1, 65536), (2, 7)] }

/-- The program that it belongs to, with image 2. -/
def storeProgram : Instance :=
  { fn := 0, image := 2, plan := 0, argObj := 0, looms := [0], shuttles := 1, wsBytes := 0, knots := [], tasks := [] }

/-- What the instruction runs with. -/
def storeContext : ShCtx := ⟨0, storeShuttle, 5, storeProgram, storeImage, storeWord⟩

/-- A node on which that program is about to issue its store, and whose object map lists ID 1 twice: destroyed, then live. -/
def storeListedTwice : State :=
  { State.reset with
    prog := { shuttles := [(0, storeShuttle)], instances := [(5, storeProgram)] }
    looms := { looms := [(0, { lines := [(2, 0)] })] }
    space := { objs := [(1, zeroObject true), (1, zeroObject false),
      (2, { fn := 0, kind := .program, versions := [⟨0, 68, storeImage, 0, []⟩] })] } }

/-- The shuttle stands at a legal ST1 in its turn. -/
theorem atInstruction_storeListedTwice : atInstruction .st1 storeListedTwice storeContext := by
  unfold atInstruction
  decide +kernel

/-- The address lies in the live entry of ID 1. -/
theorem resolve_storeListedTwice : resolve storeListedTwice 0 65536 = .bytes 1 0 := by
  decide +kernel

/-- The store finds no live object of the ID and puts its byte nowhere. -/
theorem objectsAfter_st1 : objectsAfter (exec (.st1 0) storeListedTwice) = storeListedTwice.space.objs := by
  decide +kernel

/-- Refutes O34: a byte 7 that a shuttle stores to a Near granule of a data object listed twice is not stored. -/
theorem not_loadsAndStores : ¬ Obligations.LoadsAndStores := by
  rintro ⟨-, -, -, hstore, -⟩
  obtain ⟨t, obj, v, hexec, -, -, hobj, hver, hbytes, -⟩ := hstore (.st1 0) .st1 1 7 1 0 (zeroObject true) zeroVersion zeroFrame
    storeListedTwice storeContext (.inl ⟨rfl, rfl, rfl, by decide +kernel⟩) atInstruction_storeListedTwice (Nat.mod_one _)
    (by decide +kernel) resolve_storeListedTwice rfl rfl rfl rfl (by decide) rfl rfl (by decide +kernel) (by decide +kernel)
  have hkept : t.space.objs = storeListedTwice.space.objs := by
    have hafter := objectsAfter_st1
    rwa [hexec] at hafter
  have hsame : objOf t 1 = some (zeroObject true) := congrArg (AMap.get? · 1) hkept
  obtain rfl := Option.some.inj (hobj.symm.trans hsame)
  obtain rfl : v = zeroVersion := Option.some.inj (hver.symm.trans rfl)
  exact absurd (hbytes 0 Nat.zero_lt_one) (by decide)

end Sys2Proof.Laws
end

section
/-! PROOFS. O42 does not hold: it is stated of every state, also of one that lists a sequence for a SPINDLE_RUN that has not begun (no
step makes such a list: a sequence is listed only as its command begins to wait, and no later command has that number). The command's
own sequence is listed behind that one, and the first of the two decides whether anything is left of the command. -/

namespace Sys2Proof.Laws
open Sys2Proof Sys2Proof.Machine Sys2Proof.Safety

/-- A checked descriptor (R214): the similarity of the row at byte 256 of object 1 and the operand at byte 512, put at byte 1024. -/
def oneRowDescriptor : List Byte :=
  lay 64 [(1, 1, 1), (2, 2, 32), (4, 4, 1), (8, 8, 256), (16, 4, 1), (20, 2, 32), (22, 2, 16), (28, 4, 1), (32, 8, 512), (40, 4, 1),
    (48, 8, 1024)]

/-- SPINDLE_RUN as command 1 at work, with that descriptor copied from object 1 at its admission. -/
def oneRowRun : Adm :=
  { cmd := ⟨1, 0, .host 0, lay 128 [(0, 2, 0x507), (32, 4, 1), (36, 4, 1)], 0, none⟩, seq := 1, admitted := 0, features := 0
    pins := [(1, 0)], carried := oneRowDescriptor }

/-- A node at work on it, with a sequence of command 1 listed of which nothing is left. -/
def sequenceListed : State :=
  { State.reset with
    sched := { admitted := [oneRowRun] }, space := { objs := [(1, zeroObject false)] }
    stk := { sequences := [{ cid := 1, left := 0, rows := 0 }] } }

/-- The phase of an admitted command after a step. -/
def phaseAfter (o : Out) (cid : Nat) : Option Phase :=
  match o with
  | .next t => (findAdm t cid).map Adm.phase
  | _ => none

/-- The listed sequence ends the command as soon as its segment is queued. -/
theorem phaseAfter_spindleRun : phaseAfter (exec (.spindleRun 1) sequenceListed) 1 = some (.done {}) := by
  decide +kernel

/-- The source, operand and destination granule lies Near already. -/
theorem bringAll_sequenceListed :
    (bringAll sequenceListed (segGranules sequenceListed 0 ([oneRowDescriptor].map segOf))).isSome = true := by
  decide +kernel

/-- Refutes O42: with a sequence of command 1 listed before it begins, SPINDLE_RUN completes at once and does not wait for its
segment. -/
theorem not_spindlesTakeTurns : ¬ Obligations.SpindlesTakeTurns := by
  rintro ⟨hrun, -⟩
  obtain ⟨u, hnear⟩ := Option.isSome_iff_exists.1 bringAll_sequenceListed
  obtain ⟨t, b, hexec, hfind, hphase, -⟩ := hrun 1 oneRowRun (zeroObject false) [oneRowDescriptor] sequenceListed u (by decide +kernel)
    (.inl (by decide +kernel)) rfl (by decide +kernel) (by decide +kernel) (by decide +kernel) (by decide +kernel) (by decide +kernel)
    hnear (by decide +kernel) (by decide +kernel) (by decide +kernel) (by decide +kernel)
  have hafter := phaseAfter_spindleRun
  rw [hexec] at hafter
  have hdone : some b.phase = some (.done {}) := (congrArg (Option.map Adm.phase) hfind).symm.trans hafter
  rw [hphase] at hdone
  exact Phase.noConfusion (Option.some.inj hdone)

end Sys2Proof.Laws
end

section
/-! PROOFS. The words of a weave store: what a field reads, what a list of written words leaves, and a completion word (R243, R244). -/

namespace Sys2Proof.Laws
open Sys2Proof Sys2Proof.Machine Sys2Proof.Safety

/-! ### What a field of a memory reads -/

theorem read_dropWhile {a b : Nat} (h : a ≤ b) (m : Mem) :
    Mem.read (m.dropWhile (fun c => decide (c.1 < a))) b = Mem.read m b := by
  induction m with
  | nil => rfl
  | cons c m ih =>
    by_cases hc : c.1 < a
    · have hne : c.1 ≠ b := by omega
      have hle : ¬b < c.1 := by omega
      simp [List.dropWhile, hc, Mem.read, hne, hle, ih]
    · simp [List.dropWhile, hc]

theorem read_takeWhile {b e : Nat} (h : b < e) (m : Mem) :
    Mem.read (m.takeWhile (fun c => decide (c.1 < e))) b = Mem.read m b := by
  induction m with
  | nil => rfl
  | cons c m ih =>
    by_cases hc : c.1 < e
    · simp [List.takeWhile, hc, Mem.read, ih]
    · have hne : c.1 ≠ b := by omega
      have hlt : b < c.1 := by omega
      simp [List.takeWhile, hc, Mem.read, hne, hlt]

/-- Cells from an address on, in rising order, give the bytes from there. -/
theorem readBytes_go_eq (n x : Nat) (m : Mem) (hm : m.Pairwise (fun c e => c.1 < e.1)) (hx : ∀ c ∈ m, x ≤ c.1) :
    Mem.readBytes.go n x m = (List.range n).map (fun i => Mem.read m (x + i)) := by
  induction n generalizing x m with
  | zero => simp [Mem.readBytes.go]
  | succ n ih =>
    have hsplit : (List.range (n + 1)).map (fun i => Mem.read m (x + i)) =
        Mem.read m x :: (List.range n).map (fun i => Mem.read m (x + 1 + i)) := by
      rw [List.range_succ_eq_map, List.map_cons, List.map_map]
      exact congrArg _ (List.map_congr_left fun i _ => congrArg (Mem.read m) (by simp only [Nat.succ_eq_add_one]; omega))
    rw [hsplit]
    match m, hm, hx with
    | [], hm, hx =>
      rw [Mem.readBytes.go, ih (x + 1) [] List.Pairwise.nil (by simp)]
      rfl
    | (y, v) :: r, hm, hx =>
      obtain ⟨hy, hr⟩ := List.pairwise_cons.1 hm
      have hle : x ≤ y := hx (y, v) List.mem_cons_self
      by_cases hyx : y = x
      · subst hyx
        have htail (i : Nat) : Mem.read ((y, v) :: r) (y + 1 + i) = Mem.read r (y + 1 + i) := by
          have hne : y ≠ y + 1 + i := by omega
          have hnl : ¬y + 1 + i < y := by omega
          simp [Mem.read, hne, hnl]
        simp only [Mem.readBytes.go, if_pos, htail]
        rw [ih (y + 1) r hr (fun c hc => hy c hc), show Mem.read ((y, v) :: r) y = v by simp [Mem.read]]
      · have hzero : Mem.read ((y, v) :: r) x = 0#8 := by
          have hlt : x < y := by omega
          simp [Mem.read, hyx, hlt]
        have hrest : ∀ c ∈ (y, v) :: r, x + 1 ≤ c.1 := by
          intro c hc
          rcases List.mem_cons.1 hc with rfl | hc
          · exact Nat.lt_of_le_of_ne hle (Ne.symm hyx)
          · exact Nat.le_trans (Nat.succ_le_succ hle) (hy c hc)
        simp only [Mem.readBytes.go, if_neg hyx, hzero]
        rw [ih (x + 1) _ hm hrest]

theorem le_of_mem_dropWhile {a : Nat} {m : Mem} (hm : m.Pairwise (fun c e => c.1 < e.1)) :
    ∀ c ∈ m.dropWhile (fun c => decide (c.1 < a)), a ≤ c.1 := by
  induction m with
  | nil => simp
  | cons x m ih =>
    obtain ⟨hx, hm⟩ := List.pairwise_cons.1 hm
    by_cases hlt : x.1 < a
    · simpa [List.dropWhile, hlt] using ih hm
    · intro c hc
      simp only [List.dropWhile, hlt, decide_false] at hc
      rcases List.mem_cons.1 hc with rfl | hc
      · exact Nat.not_lt.1 hlt
      · exact Nat.le_trans (Nat.not_lt.1 hlt) (Nat.le_of_lt (hx c hc))

/-- Bytes read together are those read one by one. -/
theorem readBytes_eq {m : Mem} (hm : Mem.wf m) (a n : Nat) :
    Mem.readBytes m a n = (List.range n).map (fun i => Mem.read m (a + i)) := by
  have hdrop := hm.1.sublist (List.dropWhile_sublist (fun c => decide (c.1 < a)))
  have hgo := readBytes_go_eq n a _ (hdrop.sublist (List.takeWhile_sublist (fun c => decide (c.1 < a + n))))
    (fun c hc => le_of_mem_dropWhile hm.1 c ((List.takeWhile_sublist _).subset hc))
  refine hgo.trans (List.map_congr_left fun i hi => ?_)
  rw [read_takeWhile (by have := List.mem_range.1 hi; omega), read_dropWhile (by omega)]

/-- A field whose bytes are known has their value. -/
theorem nat_of_reads {m : Mem} (hm : Mem.wf m) {a : Nat} {bs : List Byte}
    (h : ∀ i (hi : i < bs.length), Mem.read m (a + i) = bs[i]) : Mem.nat m a bs.length = leNat bs := by
  rw [Mem.nat, readBytes_eq hm]
  congr 1
  exact List.ext_getElem (by simp) (fun i _ hi => by simpa using h i hi)

/-- A field of bytes just written. -/
theorem nat_write {m : Mem} (hm : Mem.wf m) (a : Nat) (pre bs post : List Byte) :
    Mem.nat (Mem.write m a (pre ++ bs ++ post)) (a + pre.length) bs.length = leNat bs := by
  refine nat_of_reads (Mem.write_wf m a _ hm) fun i hi => ?_
  rw [Nat.add_assoc, Mem.read_write_in m a _ _ hm (by simp; omega)]
  simp [hi]

theorem read_cut {m : Mem} (hm : Mem.wf m) {a n : Nat} (h : a < n) : Mem.read (Mem.cut m n) a = Mem.read m a := by
  have hcut := (Mem.cut_wf m n hm).1
  by_cases ha : ∃ v, (a, v) ∈ m
  · obtain ⟨v, hv⟩ := ha
    rw [Mem.read_of_mem m a v hm.1 hv, Mem.read_of_mem _ a v hcut (List.mem_filter.2 ⟨hv, by simpa using h⟩)]
  · have hno : ∀ v, (a, v) ∉ m := fun v hv => ha ⟨v, hv⟩
    rw [Mem.read_of_not_mem m a hno, Mem.read_of_not_mem (Mem.cut m n) a (fun v hv => hno v (List.mem_filter.1 hv).1)]

/-- A field that ends within the cut. -/
theorem nat_cut {m : Mem} (hm : Mem.wf m) {a k n : Nat} (h : a + k ≤ n) : Mem.nat (Mem.cut m n) a k = Mem.nat m a k := by
  rw [Mem.nat, Mem.nat, readBytes_eq (Mem.cut_wf m n hm), readBytes_eq hm]
  congr 1
  refine List.map_congr_left fun i hi => read_cut hm ?_
  have := List.mem_range.1 hi
  omega

theorem leNat_word (v : BitVec 32) : leNat (toLE 4 v.toNat) = v.toNat := by
  rw [leNat_toLE]
  exact Nat.mod_eq_of_lt v.isLt

/-! ### Completion words (R244) -/

theorem doneWord_wf {m : Mem} (hm : Mem.wf m) (desc : List Byte) (status rows : Nat) : Mem.wf (doneWord m desc status rows) :=
  Mem.cut_wf _ _ (Mem.write_wf _ _ _ hm)

theorem nat_doneWord_status {m : Mem} (hm : Mem.wf m) {desc : List Byte} (hd : (arrOf desc).doneWs + 8 ≤ 2097152) (status rows : Nat) :
    Mem.nat (doneWord m desc status rows) (arrOf desc).doneWs 4 = status % 256 ^ 4 := by
  rw [doneWord, nat_cut (Mem.write_wf _ _ _ hm) (by omega)]
  simpa [leNat_toLE] using nat_write hm (arrOf desc).doneWs [] (toLE 4 status) (toLE 4 rows)

theorem nat_doneWord_rows {m : Mem} (hm : Mem.wf m) {desc : List Byte} (hd : (arrOf desc).doneWs + 8 ≤ 2097152) (status rows : Nat) :
    Mem.nat (doneWord m desc status rows) ((arrOf desc).doneWs + 4) 4 = rows % 256 ^ 4 := by
  rw [doneWord, nat_cut (Mem.write_wf _ _ _ hm) (by omega)]
  simpa [leNat_toLE] using nat_write hm (arrOf desc).doneWs (toLE 4 status) (toLE 4 rows) []

theorem read_doneWord_other {m : Mem} (hm : Mem.wf m) {desc : List Byte} {a : Nat} (ha : a < 2097152)
    (h : a < (arrOf desc).doneWs ∨ (arrOf desc).doneWs + 8 ≤ a) (status rows : Nat) :
    Mem.read (doneWord m desc status rows) a = Mem.read m a := by
  rw [doneWord, read_cut (Mem.write_wf _ _ _ hm) ha, Mem.read_write_out _ _ _ _ hm (by simpa using h)]

/-! ### Words written one after another -/

/-- Words written at their addresses in order. -/
def writeWords (m : Mem) (ws : List (Nat × Word)) : Mem := ws.foldl (fun m w => m.write w.1 (toLE 4 w.2.toNat)) m

theorem writeWords_wf {m : Mem} (hm : Mem.wf m) (ws : List (Nat × Word)) : Mem.wf (writeWords m ws) := by
  induction ws generalizing m with
  | nil => exact hm
  | cons w ws ih => exact ih (Mem.write_wf m _ _ hm)

/-- A byte outside a word. -/
def wordMisses (a : Nat) (w : Nat × Word) : Prop := a < w.1 ∨ w.1 + 4 ≤ a

theorem read_writeWords_other {m : Mem} (hm : Mem.wf m) {a : Nat} {ws : List (Nat × Word)} (h : ∀ w ∈ ws, wordMisses a w) :
    Mem.read (writeWords m ws) a = Mem.read m a := by
  induction ws generalizing m with
  | nil => rfl
  | cons w ws ih =>
    have hw : wordMisses a w := h w List.mem_cons_self
    have hrest := ih (Mem.write_wf m w.1 (toLE 4 w.2.toNat) hm) (fun x hx => h x (List.mem_cons_of_mem _ hx))
    exact hrest.trans (Mem.read_write_out m w.1 a _ hm (by simpa [wordMisses] using hw))

/-- Of words that do not overlap, each stands where it was written. -/
theorem read_writeWords_mem {m : Mem} (hm : Mem.wf m) {ws : List (Nat × Word)}
    (hapart : ∀ w ∈ ws, ∀ x ∈ ws, x = w ∨ x.1 + 4 ≤ w.1 ∨ w.1 + 4 ≤ x.1) {w : Nat × Word} (hw : w ∈ ws) {i : Nat}
    (hi : i < (toLE 4 w.2.toNat).length) : Mem.read (writeWords m ws) (w.1 + i) = (toLE 4 w.2.toNat)[i] := by
  induction ws generalizing m with
  | nil => cases hw
  | cons x ws ih =>
    have hm' := Mem.write_wf m x.1 (toLE 4 x.2.toNat) hm
    by_cases hin : w ∈ ws
    · exact ih hm' (fun y hy z hz => hapart y (List.mem_cons_of_mem _ hy) z (List.mem_cons_of_mem _ hz)) hin
    · obtain rfl : w = x := (List.mem_cons.1 hw).resolve_right hin
      have hi4 : i < 4 := by simpa using hi
      have hmiss : ∀ y ∈ ws, wordMisses (w.1 + i) y := by
        intro y hy
        rcases hapart w hw y (List.mem_cons_of_mem _ hy) with rfl | h | h
        · exact absurd hy hin
        · exact .inr (by omega)
        · exact .inl (by omega)
      exact (read_writeWords_other hm' hmiss).trans (Mem.read_write_in m w.1 i _ hm hi)

end Sys2Proof.Laws
end

section
/-! PROOFS. Looms and their queues (R235, R238, R244): what each operation on a loom leaves of its weave store and its queue, and the
descriptor at the head that leaves with its completion word. -/

namespace Sys2Proof.Laws
open Sys2Proof Sys2Proof.Machine Sys2Proof.Safety

/-! ### One loom changed -/

@[simp] theorem loomOf_updLoom_same (s : State) (l : Nat) (g : Loom → Loom) : loomOf (updLoom s l g) l = g (loomOf s l) :=
  AMap.getD_insert_same _ _ _ _

theorem loomOf_updLoom_other (s : State) {l k : Nat} (g : Loom → Loom) (h : k ≠ l) : loomOf (updLoom s l g) k = loomOf s k :=
  AMap.getD_insert_other _ _ _ _ _ (Ne.symm h)

theorem loomOf_of_looms {s t : State} (h : t.looms = s.looms) (l : Nat) : loomOf t l = loomOf s l := by rw [loomOf, h, loomOf]

/-- Only the phases of a loom's arrays, and which of them wait for a rise, differ. -/
def phasesOnly (l k : Loom) : Prop :=
  k = { l with phase := k.phase, steps := k.steps, waitRise := k.waitRise, delayed := k.delayed }

theorem phasesOnly_trans {l k m : Loom} (h : phasesOnly l k) (h' : phasesOnly k m) : phasesOnly l m := by
  rw [phasesOnly] at h h' ⊢
  rw [h', h]

theorem phasesOnly_setPhaseOf (l : Loom) (a : Nat) (p : ArrayPhase) : phasesOnly l (setPhaseOf l a p) := rfl

theorem phasesOnly_foldl {α : Type} {g : Loom → α → Loom} (h : ∀ l x, phasesOnly l (g l x)) (xs : List α) (l : Loom) :
    phasesOnly l (xs.foldl g l) := by
  induction xs generalizing l with
  | nil => rfl
  | cons x xs ih => exact phasesOnly_trans (h l x) (ih _)

theorem phasesOnly_settleArrays (l : Loom) : phasesOnly l (settleArrays l) := by
  unfold settleArrays
  refine phasesOnly_trans (k := { l with
    waitRise := l.waitRise.filter (fun a => decide (a < arraysNeeded l))
    delayed := l.delayed.filter (fun a => decide (a < arraysNeeded l)) }) rfl (phasesOnly_foldl (fun k e => ?_) _ _)
  split
  · exact phasesOnly_setPhaseOf k _ _
  · rfl

/-- A loom with the weave store, the queued descriptors and the service marks of another. -/
def loomStands (l k : Loom) : Prop :=
  k.ws = l.ws ∧ k.dq.map (·.desc) = l.dq.map (·.desc) ∧ k.out = l.out ∧ k.ue = l.ue

theorem loomStands_refl (l : Loom) : loomStands l l := ⟨rfl, rfl, rfl, rfl⟩

theorem loomStands_trans {l k m : Loom} (h : loomStands l k) (h' : loomStands k m) : loomStands l m :=
  ⟨h'.1.trans h.1, h'.2.1.trans h.2.1, h'.2.2.1.trans h.2.2.1, h'.2.2.2.trans h.2.2.2⟩

theorem loomStands_of_phasesOnly {l k : Loom} (h : phasesOnly l k) : loomStands l k := by
  rw [h]
  exact loomStands_refl l

/-! ### The head of a queue -/

/-- A source outside the rights is counted, another's reads join their queues: the looms are not touched (R197, R245). -/
theorem takenUp_looms (s : State) (b : Bool) (f : Nat) (client : FlashClient) (oid ver off len : Nat) (deadline : Option Nat) :
    (if b then violate s f 1 else queueRange s client oid ver off len deadline).looms = s.looms := by
  split
  · exact violate_looms s f 1
  · obtain ⟨flash, h⟩ := queueRange_changes s client oid ver off len deadline
    rw [h]

/-- A descriptor that is taken up keeps its bytes and its place in the queue. -/
theorem loomOf_startHead_same (s : State) (loom : Nat) : ∃ dq, dq.map (·.desc) = (loomOf s loom).dq.map (·.desc) ∧
    loomOf (startHead s loom) loom = { loomOf s loom with dq := dq } := by
  unfold startHead
  dsimp only
  split
  · exact ⟨_, rfl, rfl⟩
  · next d rest hdq =>
    split
    · exact ⟨_, rfl, rfl⟩
    · rw [loomOf_updLoom_same, loomOf_of_looms (takenUp_looms s _ _ _ _ _ _ _ _)]
      exact ⟨_, by rw [hdq, List.map_cons, List.map_cons], rfl⟩

theorem loomOf_startHead_other (s : State) {loom l : Nat} (h : l ≠ loom) : loomOf (startHead s loom) l = loomOf s l := by
  unfold startHead
  dsimp only
  split
  · rfl
  · split
    · rfl
    · rw [loomOf_updLoom_other _ _ h, loomOf_of_looms (takenUp_looms s _ _ _ _ _ _ _ _)]

theorem loomStands_startHead (s : State) (loom : Nat) : loomStands (loomOf s loom) (loomOf (startHead s loom) loom) := by
  obtain ⟨dq, hdq, h⟩ := loomOf_startHead_same s loom
  rw [h]
  exact ⟨rfl, hdq, rfl, rfl⟩

theorem beginHead_of_empty {s : State} {loom : Nat} (h : (loomOf s loom).dq = []) : beginHead s loom = s := by
  simp only [beginHead, h]

theorem loomStands_beginHead (s : State) (loom : Nat) : loomStands (loomOf s loom) (loomOf (beginHead s loom) loom) := by
  unfold beginHead
  dsimp only
  split
  · exact loomStands_refl _
  · split
    · exact loomStands_refl _
    · refine loomStands_trans ?_ (loomStands_startHead _ loom)
      rw [loomOf_updLoom_same]
      refine loomStands_of_phasesOnly (phasesOnly_trans (k := { loomOf s loom with waitRise := _ }) rfl
        (phasesOnly_foldl (fun k a => ?_) _ _))
      split
      · exact phasesOnly_setPhaseOf k _ _
      · rfl

theorem loomOf_beginHead_other (s : State) {loom l : Nat} (h : l ≠ loom) : loomOf (beginHead s loom) l = loomOf s l := by
  unfold beginHead
  dsimp only
  split
  · rfl
  · split
    · rfl
    · rw [loomOf_startHead_other _ h, loomOf_updLoom_other _ _ h]

/-! ### The end of the descriptor at the head -/

/-- The head of a loom's queue has left with its completion word (R244): the rest of the queue stands, and no other loom is touched. -/
def headLeft (s t : State) (loom : Nat) (d : ArrayDesc) (rest : List ArrayDesc) (status rows : Nat) : Prop :=
  arraysMoved s t ∧ (loomOf t loom).dq.map (·.desc) = rest.map (·.desc) ∧
  (loomOf t loom).ws = doneWord (loomOf s loom).ws d.desc status rows ∧
  (∀ l, l ≠ loom → loomOf t l = loomOf s l) ∧ (rest = [] → t = { s with looms := t.looms })

/-- The loom whose head has left, before the next descriptor takes its arrays. -/
def withoutHead (d : ArrayDesc) (status rows : Nat) (l : Loom) : Loom :=
  settleArrays { l with dq := l.dq.tail, bobbins := [], ws := doneWord l.ws d.desc status rows }

theorem withoutHead_stands {l : Loom} {d : ArrayDesc} {rest : List ArrayDesc} (h : l.dq = d :: rest) (status rows : Nat) :
    (withoutHead d status rows l).ws = doneWord l.ws d.desc status rows ∧ (withoutHead d status rows l).dq = rest := by
  have hsettled : phasesOnly _ (withoutHead d status rows l) := phasesOnly_settleArrays _
  rw [hsettled]
  exact ⟨rfl, congrArg List.tail h⟩

theorem descEnds_eq {d : ArrayDesc} (harr : (arrOf d.desc).arrives = false) (htask : d.task = none) (hpick : d.pick = none)
    (s : State) (loom status rows : Nat) :
    descEnds s loom d status rows = beginHead (updLoom s loom (withoutHead d status rows)) loom := by
  simp only [descEnds, harr, htask, hpick]
  rfl

/-- A descriptor of no task and without an arrival leaves only its completion word behind. -/
theorem descEnds_leaves {s : State} {loom : Nat} {d : ArrayDesc} {rest : List ArrayDesc} (hdq : (loomOf s loom).dq = d :: rest)
    (harr : (arrOf d.desc).arrives = false) (htask : d.task = none) (hpick : d.pick = none) (status rows : Nat) :
    headLeft s (descEnds s loom d status rows) loom d rest status rows := by
  obtain ⟨hws, hrest⟩ := withoutHead_stands hdq status rows
  rw [descEnds_eq harr htask hpick]
  have hloom : loomOf (updLoom s loom (withoutHead d status rows)) loom = withoutHead d status rows (loomOf s loom) :=
    loomOf_updLoom_same s loom _
  obtain ⟨hstore, hqueue, -, -⟩ := loomStands_beginHead (updLoom s loom (withoutHead d status rows)) loom
  rw [hloom] at hstore hqueue
  refine ⟨arraysMoved_trans (arraysMoved_of_loomsFlash s _ s.flash) (arraysMoved_beginHead _ loom),
    by rw [hqueue, hrest], by rw [hstore, hws], fun l hl => ?_, fun hnil => ?_⟩
  · rw [loomOf_beginHead_other _ hl, loomOf_updLoom_other _ _ hl]
  · rw [beginHead_of_empty (by rw [hloom, hrest, hnil])]
    rfl

/-! ### Errors that are corrected -/

/-- At most the corrected errors of a loom's weave store have been counted (R516). -/
def errorCounted (s u : State) (loom : Nat) : Prop :=
  u = { s with looms := u.looms } ∧ (∃ ce, loomOf u loom = { loomOf s loom with ce := ce }) ∧ ∀ l, l ≠ loom → loomOf u l = loomOf s l

theorem descError_counts {e : Ecc} (he : e ≠ .uncorrectable) (s : State) (loom : Nat) (d : ArrayDesc) :
    errorCounted s (descError s loom d e) loom := by
  cases e with
  | clean => exact ⟨rfl, ⟨_, rfl⟩, fun _ _ => rfl⟩
  | corrected =>
    have hcount : descError s loom d .corrected = updLoom s loom (fun l => { l with ce := satAdd l.ce 1 }) := rfl
    rw [hcount]
    exact ⟨rfl, ⟨_, loomOf_updLoom_same s loom _⟩, fun l hl => loomOf_updLoom_other s _ hl⟩
  | uncorrectable => exact absurd rfl he

theorem descRejected_of_errorCounted {s u : State} {loom : Nat} (h : errorCounted s u loom) (d : ArrayDesc) :
    descRejected u d = descRejected s d := by
  rw [h.1]
  rfl

/-! ### DESCRIPTOR_COMPLETE -/

/-- A rejected descriptor, or one without rows or columns, leaves at once (R244). -/
theorem exec_descriptorComplete_idle {loom : Nat} {e : Ecc} {d : ArrayDesc} {rest : List ArrayDesc} {s : State}
    (hdq : (loomOf s loom).dq = d :: rest) (he : e ≠ .uncorrectable) (hpick : d.pick = none)
    (hidle : descRejected s d = true ∨ ((arrOf d.desc).rows = 0 ∨ (arrOf d.desc).cols = 0)) :
    exec (.descriptorComplete loom e) s =
      .next (descEnds (descError s loom d e) loom d (if descRejected s d then 1 else 0) 0) := by
  have hrej := descRejected_of_errorCounted (descError_counts he s loom d) d
  simp only [exec, execDescriptorComplete, hdq, if_neg he, hpick, hrej, descIdle]
  cases h : descRejected s d with
  | true => rfl
  | false =>
    have hnone : ((arrOf d.desc).rows == 0 || (arrOf d.desc).cols == 0) = true := by
      simpa using hidle.resolve_left (by simp [h])
    simp [hnone]

/-- A descriptor with rows and columns that its arrays have taken up, and whose rows no channel holds, runs. -/
theorem exec_descriptorComplete_runs {loom : Nat} {e : Ecc} {d : ArrayDesc} {rest : List ArrayDesc} {s : State}
    (hdq : (loomOf s loom).dq = d :: rest) (he : e ≠ .uncorrectable) (hpick : d.pick = none) (hrej : descRejected s d = false)
    (hrows : (arrOf d.desc).rows ≠ 0) (hcols : (arrOf d.desc).cols ≠ 0) (hstart : d.started = true) (hheld : sourceHeld s d = false) :
    exec (.descriptorComplete loom e) s = .next (descRun (descError s loom d e) loom d) := by
  have herr := descError_counts he s loom d
  have hrej' := (descRejected_of_errorCounted herr d).trans hrej
  have hheld' : sourceHeld (descError s loom d e) d = false := by
    rw [herr.1]
    exact hheld
  simp [exec, execDescriptorComplete, hdq, he, hpick, hrej', descIdle, hrows, hcols, ArrayDesc.deserted, hstart, hheld']

end Sys2Proof.Laws
end

section
/-! PROOFS. O40: dense outputs. They are words that do not overlap, written one after another; the completion word lies apart from
them, since the descriptor is not rejected (R244). -/

namespace Sys2Proof.Laws
open Sys2Proof Sys2Proof.Machine Sys2Proof.Safety

/-! ### The areas of a descriptor that is not rejected -/

theorem descOk_of_not_rejected {s : State} {d : ArrayDesc} (h : descRejected s d = false) : descOk d.desc = true := by
  simp only [descRejected, Bool.or_eq_false_iff] at h
  simpa using h.1.2

/-- The output area and the completion word lie in the weave store, apart from each other (R244). -/
theorem descOk_areas {desc : List Byte} (h : descOk desc = true) :
    (arrOf desc).out + (arrOf desc).outBytes ≤ 2097152 ∧ (arrOf desc).doneWs + 8 ≤ 2097152 ∧
      ((arrOf desc).outBytes = 0 ∨ (arrOf desc).out + (arrOf desc).outBytes ≤ (arrOf desc).doneWs ∨
        (arrOf desc).doneWs + 8 ≤ (arrOf desc).out) := by
  simp only [descOk, Bool.and_eq_true, List.all_cons, decide_eq_true_eq, apart, meets] at h
  obtain ⟨⟨⟨-, -, hout, hdone, -⟩, -, ⟨hapart, -⟩, -⟩, -⟩ := h
  refine ⟨hout, hdone, ?_⟩
  simp only [Bool.not_eq_true', Bool.and_eq_false_iff, bne_eq_false_iff_eq, decide_eq_false_iff_not] at hapart
  omega

/-! ### Where dense outputs lie (R243) -/

/-- The outputs of a descriptor's rows, with the addresses of R243. -/
def denseWords (x : Arr) (score : Nat → Nat → Word) : List (Nat × Word) :=
  (List.range x.rows).flatMap (fun r => (List.range x.cols).map (fun q => (x.out + 4 * (q * x.rows + r), score r q)))

theorem putDense_eq_writeWords (x : Arr) (score : Nat → Nat → Word) (ws : Mem) :
    putDense x score x.rows ws = writeWords ws (denseWords x score) := by
  simp only [putDense, writeWords, denseWords, List.foldl_flatMap, List.foldl_map]

theorem mem_denseWords {x : Arr} {score : Nat → Nat → Word} {w : Nat × Word} :
    w ∈ denseWords x score ↔ ∃ r q, r < x.rows ∧ q < x.cols ∧ w = (x.out + 4 * (q * x.rows + r), score r q) := by
  simp only [denseWords, List.mem_flatMap, List.mem_map, List.mem_range]
  constructor
  · rintro ⟨r, hr, q, hq, rfl⟩
    exact ⟨r, q, hr, hq, rfl⟩
  · rintro ⟨r, q, hr, hq, rfl⟩
    exact ⟨r, hr, q, hq, rfl⟩

/-- The place of an output among those of its descriptor tells its row and its query. -/
theorem outputPlace_inj {n r q r' q' : Nat} (hr : r < n) (hr' : r' < n) (h : q * n + r = q' * n + r') : r = r' ∧ q = q' := by
  have hmod := congrArg (· % n) h
  simp only [Nat.mul_add_mod_self_right, Nat.mod_eq_of_lt hr, Nat.mod_eq_of_lt hr'] at hmod
  subst hmod
  exact ⟨rfl, Nat.eq_of_mul_eq_mul_right (Nat.lt_of_le_of_lt (Nat.zero_le r) hr) (Nat.add_right_cancel h)⟩

theorem outputPlace_lt {n c r q : Nat} (hr : r < n) (hq : q < c) : q * n + r < c * n := by
  have hrows : (q + 1) * n ≤ c * n := Nat.mul_le_mul_right n hq
  rw [Nat.succ_mul] at hrows
  omega

/-- No two outputs overlap. -/
theorem denseWords_apart (x : Arr) (score : Nat → Nat → Word) :
    ∀ w ∈ denseWords x score, ∀ y ∈ denseWords x score, y = w ∨ y.1 + 4 ≤ w.1 ∨ w.1 + 4 ≤ y.1 := by
  intro w hw y hy
  obtain ⟨r, q, hr, hq, rfl⟩ := mem_denseWords.1 hw
  obtain ⟨r', q', hr', hq', rfl⟩ := mem_denseWords.1 hy
  by_cases hplace : q * x.rows + r = q' * x.rows + r'
  · obtain ⟨rfl, rfl⟩ := outputPlace_inj hr hr' hplace
    exact .inl rfl
  · right
    dsimp only
    omega

theorem denseWords_in_area {x : Arr} {score : Nat → Nat → Word} {w : Nat × Word} (hw : w ∈ denseWords x score) :
    x.out ≤ w.1 ∧ w.1 + 4 ≤ x.out + 4 * x.cols * x.rows := by
  obtain ⟨r, q, hr, hq, rfl⟩ := mem_denseWords.1 hw
  have hlt := outputPlace_lt hr hq
  rw [Nat.mul_assoc]
  exact ⟨Nat.le_add_right _ _, by dsimp only; omega⟩

/-- Behind the completion word, an output is read where R243 puts it. -/
theorem nat_denseOutput {x : Arr} {desc : List Byte} (hx : x = arrOf desc) (hok : descOk desc = true) (hdense : x.dense = true)
    {ws : Mem} (hws : Mem.wf ws) (score : Nat → Nat → Word) (status rows : Nat) {r q : Nat} (hr : r < x.rows) (hq : q < x.cols) :
    Mem.nat (doneWord (writeWords ws (denseWords x score)) desc status rows) (x.out + 4 * (q * x.rows + r)) 4 = (score r q).toNat := by
  obtain ⟨hout, -, hapart⟩ := descOk_areas hok
  rw [← hx, Arr.outBytes, if_pos hdense] at hout hapart
  have hmem : (x.out + 4 * (q * x.rows + r), score r q) ∈ denseWords x score := mem_denseWords.2 ⟨r, q, hr, hq, rfl⟩
  obtain ⟨hlo, hhi⟩ := denseWords_in_area hmem
  have hwf := writeWords_wf hws (denseWords x score)
  have hbytes : ∀ i (hi : i < (toLE 4 (score r q).toNat).length),
      Mem.read (doneWord (writeWords ws (denseWords x score)) desc status rows) (x.out + 4 * (q * x.rows + r) + i) =
        (toLE 4 (score r q).toNat)[i] := by
    intro i hi
    have hi4 : i < 4 := by simpa using hi
    dsimp only at hlo hhi
    rw [read_doneWord_other hwf (by omega) (by rw [← hx]; omega)]
    exact read_writeWords_mem hws (denseWords_apart x score) hmem hi
  have hnat := nat_of_reads (doneWord_wf hwf desc status rows) hbytes
  rwa [toLE_length, leNat_word] at hnat

/-- A byte outside the output area and the completion word is not touched. -/
theorem read_outside_denseOutputs {x : Arr} {desc : List Byte} (hx : x = arrOf desc) {ws : Mem} (hws : Mem.wf ws)
    (score : Nat → Nat → Word) (status rows : Nat) {a : Nat} (ha : a < 2097152) (hout : a < x.out ∨ x.out + 4 * x.cols * x.rows ≤ a)
    (hdone : a < x.doneWs ∨ x.doneWs + 8 ≤ a) :
    Mem.read (doneWord (writeWords ws (denseWords x score)) desc status rows) a = Mem.read ws a := by
  rw [read_doneWord_other (writeWords_wf hws _) ha (by rw [← hx]; exact hdone)]
  refine read_writeWords_other hws fun w hw => ?_
  obtain ⟨hlo, hhi⟩ := denseWords_in_area hw
  unfold wordMisses
  omega

/-! ### A dense descriptor runs -/

/-- A streamed pass marks granules as used and changes no object (R163). -/
theorem streamRange_changes (s : State) (oid ver off n : Nat) : ∃ space, streamRange s oid ver off n = { s with space := space } ∧
    space.objs = s.space.objs := by
  unfold streamRange
  split
  · exact ⟨_, rfl, rfl⟩
  · unfold touchRange
    dsimp only
    split
    · exact ⟨_, rfl, rfl⟩
    · exact ⟨_, rfl, rfl⟩

/-- The energy of a descriptor of no task goes to its function's activity (R466). -/
theorem chargeArrays_changes {d : ArrayDesc} (htask : d.task = none) (s : State) (rows : Nat) : ∃ draught space,
    chargeArrays s d rows = { s with draught := draught, space := space } ∧ space.objs = s.space.objs := by
  obtain ⟨space, hstream, hobjs⟩ := streamRange_changes s (arrOf d.desc).src d.ver (arrOf d.desc).off (rows * (arrOf d.desc).stride)
  simp only [chargeArrays, htask, hstream]
  exact ⟨_, space, rfl, hobjs⟩

/-- The score of query q for row r. -/
def denseScore (s : State) (d : ArrayDesc) (r q : Nat) : Word := arrScore (arrOf d.desc) d.bank q (arrRow s d r)

/-- A loom with a descriptor's dense outputs in its weave store. -/
def withOutputs (s : State) (d : ArrayDesc) (l : Loom) : Loom :=
  { l with ws := writeWords l.ws (denseWords (arrOf d.desc) (denseScore s d)) }

/-- The state in which a descriptor's dense outputs are written and charged, before it leaves. -/
def denseWritten (s : State) (loom : Nat) (d : ArrayDesc) : State :=
  chargeArrays (updLoom s loom (withOutputs s d)) d (arrOf d.desc).rows

theorem descRun_dense {s : State} {d : ArrayDesc} (hdense : (arrOf d.desc).dense = true)
    (hread : arrReadable .any s d = (arrOf d.desc).rows) (loom : Nat) :
    descRun s loom d = descEnds (denseWritten s loom d) loom d 0 (arrOf d.desc).rows := by
  simp only [descRun, hdense, hread, Nat.lt_irrefl, if_false, if_true, putDense_eq_writeWords]
  rfl

theorem denseWritten_changes {d : ArrayDesc} (htask : d.task = none) (s : State) (loom : Nat) :
    (denseWritten s loom d).fns = s.fns ∧ (denseWritten s loom d).space.objs = s.space.objs ∧
      loomOf (denseWritten s loom d) loom = withOutputs s d (loomOf s loom) ∧
      ∀ l, l ≠ loom → loomOf (denseWritten s loom d) l = loomOf s l := by
  obtain ⟨draught, space, hcharge, hobjs⟩ := chargeArrays_changes htask (updLoom s loom (withOutputs s d)) (arrOf d.desc).rows
  rw [denseWritten, hcharge]
  exact ⟨rfl, hobjs, loomOf_updLoom_same s loom _, fun l hl => loomOf_updLoom_other s (withOutputs s d) hl⟩

theorem field_lt (bs : List Byte) (off n : Nat) : field bs off n < 256 ^ n := by
  simpa [field] using leNat_lt (slice bs off n)

/-- Settles O40. -/
theorem denseOutputsLie : Obligations.DenseOutputsLie := by
  intro loom e d rest x s hdq hx he hrej hdense hrows hcols harr htask hpick hstart hheld hread hwf
  subst hx
  have hexec := exec_descriptorComplete_runs hdq he hpick hrej hrows hcols hstart hheld
  obtain ⟨hu, ⟨ce, hloom⟩, hother⟩ := descError_counts he s loom d
  generalize descError s loom d e = u at hexec hu hloom hother
  have hread' : arrReadable .any u d = (arrOf d.desc).rows := by rw [hu]; exact hread
  have hscore : denseScore u d = denseScore s d := by rw [hu]; rfl
  rw [descRun_dense hdense hread'] at hexec
  obtain ⟨hfns, hobjs, hwritten, hothers⟩ := denseWritten_changes htask u loom
  generalize denseWritten u loom d = v at hexec hfns hobjs hwritten hothers
  rw [hloom, withOutputs, hscore] at hwritten
  obtain ⟨hmoved, hqueue, hws, hkept, hlast⟩ :=
    descEnds_leaves (s := v) (by rw [hwritten]; exact hdq) harr htask hpick 0 (arrOf d.desc).rows
  rw [hwritten] at hws
  have hok := descOk_of_not_rejected hrej
  obtain ⟨-, hdone, -⟩ := descOk_areas hok
  have hwf' := writeWords_wf hwf (denseWords (arrOf d.desc) (denseScore s d))
  refine ⟨_, hexec, hqueue, fun r q hr hq => ?_, ?_, ?_, fun a ha hout hword => ?_, fun l hl => ?_, ?_, fun hnil => ?_⟩
  · rw [hws]
    exact nat_denseOutput rfl hok hdense hwf _ 0 _ hr hq
  · rw [hws, nat_doneWord_status hwf' hdone]
    rfl
  · rw [hws, nat_doneWord_rows hwf' hdone]
    exact Nat.mod_eq_of_lt (field_lt d.desc 40 4)
  · rw [hws]
    exact read_outside_denseOutputs rfl hwf _ 0 _ ha hout hword
  · rw [hkept l hl, hothers l hl, hother l hl]
  · rw [hmoved.1]
    exact hobjs.trans (by rw [hu])
  · rw [hlast hnil]
    exact hfns.trans (by rw [hu])

end Sys2Proof.Laws
end

section
/-! PROOFS. O41, the rows of a loom: rises that begin, wait or are delayed (R235, R457), and descriptors that leave at once (R244). -/

namespace Sys2Proof.Laws
open Sys2Proof Sys2Proof.Machine Sys2Proof.Safety

/-! ### RISE_ADMIT -/

/-- A loom with an array at the start of its rise (R235). -/
def riseBegun (array : Nat) (l : Loom) : Loom :=
  setPhaseOf { l with waitRise := l.waitRise.filter (· != array), delayed := l.delayed.filter (· != array) } array .rise

/-- The state in which a rise has begun and is charged to a function (R466). -/
def riseCharged (s : State) (loom array f pj : Nat) : State := charge (updLoom s loom (riseBegun array)) f pj true

/-- The state with the rises that count against the limits of R457. -/
def risesNoted (s : State) (times : List Nat) : State := { s with looms := { s.looms with riseTimes := times } }

theorem waits_of_mem {l : Loom} {array : Nat} (hwait : array ∈ l.waitRise) (hfall : AMap.getD l.phase array .off ≠ .fall) :
    (!l.waitRise.contains array || AMap.getD l.phase array .off == .fall) = false := by
  simp [hwait, hfall]

/-- A waiting rise that grant, limits, heat and droop allow begins (R235, R457, R460, R461). -/
theorem exec_riseAdmit_begins {loom array : Nat} {s : State} (hwait : array ∈ (loomOf s loom).waitRise)
    (hfall : AMap.getD (loomOf s loom).phase array .off ≠ .fall) (hdroop : AMap.getD s.looms.boltBlocked (loom / 8) 0 ≤ now s)
    (hcool : ThermLevel.die2 ∉ s.draught.levels) (hnode : (risesNow s (loom / 8)).1 < 8) (hbolt : (risesNow s (loom / 8)).2 < 2) :
    ∃ f pj times, exec (.riseAdmit loom array true) s =
      .next (risesNoted (startHead (riseCharged s loom array f pj) loom) times) := by
  simp only [exec, execRiseAdmit, waits_of_mem hwait hfall]
  simp only [Bool.false_eq_true, if_false]
  rw [if_neg (by simp [hdroop, hcool, hnode, hbolt])]
  exact ⟨_, _, _, rfl⟩

theorem riseAdmit_begins (loom array : Nat) (s : State) (hwait : array ∈ (loomOf s loom).waitRise)
    (hfall : AMap.getD (loomOf s loom).phase array .off ≠ .fall) (hdroop : AMap.getD s.looms.boltBlocked (loom / 8) 0 ≤ now s)
    (hcool : ThermLevel.die2 ∉ s.draught.levels) (hnode : (risesNow s (loom / 8)).1 < 8) (hbolt : (risesNow s (loom / 8)).2 < 2) :
    ∃ t, exec (.riseAdmit loom array true) s = .next t ∧ AMap.getD (loomOf t loom).phase array .off = .rise ∧
      AMap.getD (loomOf t loom).steps array 1 = 0 ∧ (loomOf t loom).waitRise = (loomOf s loom).waitRise.filter (· != array) ∧
      (loomOf t loom).dq.map (·.desc) = (loomOf s loom).dq.map (·.desc) ∧ (∀ l, l ≠ loom → loomOf t l = loomOf s l) ∧
      t = { s with looms := t.looms, draught := t.draught, flash := t.flash, fns := t.fns } := by
  obtain ⟨f, pj, times, hexec⟩ := exec_riseAdmit_begins hwait hfall hdroop hcool hnode hbolt
  have hbegun : loomOf (riseCharged s loom array f pj) loom = riseBegun array (loomOf s loom) := loomOf_updLoom_same s loom _
  have hothers : ∀ l, l ≠ loom → loomOf (riseCharged s loom array f pj) l = loomOf s l :=
    fun l hl => loomOf_updLoom_other s (riseBegun array) hl
  obtain ⟨dq, hdq, hloom⟩ := loomOf_startHead_same (riseCharged s loom array f pj) loom
  obtain ⟨hframe, -⟩ := arraysMoved_startHead (riseCharged s loom array f pj) loom
  rw [hbegun] at hloom hdq
  have hsame : loomOf (risesNoted (startHead (riseCharged s loom array f pj) loom) times) loom =
    { riseBegun array (loomOf s loom) with dq := dq } := hloom
  refine ⟨_, hexec, ?_, ?_, ?_, ?_, fun l hl => ?_, ?_⟩
  · rw [hsame]
    exact AMap.getD_insert_same _ _ _ _
  · rw [hsame]
    exact AMap.getD_insert_same _ _ _ _
  · rw [hsame]
    rfl
  · rw [hsame]
    exact hdq
  · exact (loomOf_startHead_other _ hl).trans (hothers l hl)
  · rw [risesNoted, hframe]
    rfl

/-- An array that still falls completes its fall first (R252). -/
theorem exec_riseAdmit_falling {loom array : Nat} {s : State} (hfall : AMap.getD (loomOf s loom).phase array .off = .fall)
    (power : Bool) : exec (.riseAdmit loom array power) s = .next s :=
  if_pos (by simp [hfall])

/-- A rise without its grant is counted as delayed, once (R457). -/
theorem exec_riseAdmit_without_grant {loom array : Nat} {s : State} (hwait : array ∈ (loomOf s loom).waitRise)
    (hfall : AMap.getD (loomOf s loom).phase array .off ≠ .fall) :
    exec (.riseAdmit loom array false) s = if (loomOf s loom).delayed.contains array then .next s
      else .next (updLoom { s with draught := { s.draught with riseDelayed := satAdd s.draught.riseDelayed 1 } } loom
        (fun l => { l with delayed := array :: l.delayed })) := by
  simp only [exec, execRiseAdmit, waits_of_mem hwait hfall]
  rfl

theorem riseAdmit_waits (loom array : Nat) (s : State) (hwait : array ∈ (loomOf s loom).waitRise) :
    (AMap.getD (loomOf s loom).phase array .off = .fall → ∀ power, exec (.riseAdmit loom array power) s = .next s) ∧
    (AMap.getD (loomOf s loom).phase array .off ≠ .fall → array ∈ (loomOf s loom).delayed →
      exec (.riseAdmit loom array false) s = .next s) ∧
    (AMap.getD (loomOf s loom).phase array .off ≠ .fall → array ∉ (loomOf s loom).delayed →
      exec (.riseAdmit loom array false) s = .next (updLoom { s with
        draught := { s.draught with riseDelayed := satAdd s.draught.riseDelayed 1 } } loom
        (fun l => { l with delayed := array :: l.delayed }))) := by
  refine ⟨exec_riseAdmit_falling, fun hfall hdelayed => ?_, fun hfall hdelayed => ?_⟩
  · rw [exec_riseAdmit_without_grant hwait hfall, if_pos (List.contains_iff_mem.2 hdelayed)]
  · rw [exec_riseAdmit_without_grant hwait hfall, if_neg (fun h => hdelayed (List.contains_iff_mem.1 h))]

/-! ### Descriptors that start no array -/

theorem descriptorComplete_idle (loom : Nat) (e : Ecc) (d : ArrayDesc) (rest : List ArrayDesc) (s : State)
    (hdq : (loomOf s loom).dq = d :: rest) (htask : d.task = none) (he : e ≠ .uncorrectable) (hpick : d.pick = none)
    (harr : (arrOf d.desc).arrives = false) (hdone : (arrOf d.desc).doneWs + 8 ≤ 2097152) (hwf : (loomOf s loom).ws.wf)
    (hidle : descRejected s d = true ∨ ((arrOf d.desc).rows = 0 ∨ (arrOf d.desc).cols = 0)) :
    ∃ t, exec (.descriptorComplete loom e) s = .next t ∧ (loomOf t loom).dq.map (·.desc) = rest.map (·.desc) ∧
      Mem.nat (loomOf t loom).ws (arrOf d.desc).doneWs 4 = (if descRejected s d then 1 else 0) ∧
      Mem.nat (loomOf t loom).ws ((arrOf d.desc).doneWs + 4) 4 = 0 ∧ (∀ l, l ≠ loom → loomOf t l = loomOf s l) ∧
      t = { s with looms := t.looms, flash := t.flash, fns := t.fns } ∧ (rest = [] → t = { s with looms := t.looms }) := by
  have hexec := exec_descriptorComplete_idle hdq he hpick hidle
  obtain ⟨hu, ⟨ce, hloom⟩, hother⟩ := descError_counts he s loom d
  generalize descError s loom d e = u at hexec hu hloom hother
  obtain ⟨⟨hframe, -⟩, hqueue, hws, hkept, hlast⟩ :=
    descEnds_leaves (s := u) (by rw [hloom]; exact hdq) harr htask hpick (if descRejected s d then 1 else 0) 0
  rw [hloom] at hws
  refine ⟨_, hexec, hqueue, ?_, ?_, fun l hl => (hkept l hl).trans (hother l hl), ?_, fun hnil => ?_⟩
  · rw [hws, nat_doneWord_status hwf hdone]
    split <;> rfl
  · rw [hws, nat_doneWord_rows hwf hdone]
    rfl
  · rw [hframe, hu]
  · rw [hlast hnil, hu]

end Sys2Proof.Laws
end

section
/-! PROOFS. O41, errors beyond correction (R516): the end of a program brings none back and touches no service mark of a loom or a reed,
whatever chain of arrivals and step boundaries it sets off (R303). -/

namespace Sys2Proof.Laws
open Sys2Proof Sys2Proof.Machine Sys2Proof.Safety

/-! ### Writes into objects -/

/-- Commands, arrays, selections and programs are those of another state. -/
def worksKept (s t : State) : Prop := t.sched = s.sched ∧ t.looms = s.looms ∧ t.reeds = s.reeds ∧ t.prog = s.prog

theorem worksKept_refl (s : State) : worksKept s s := ⟨rfl, rfl, rfl, rfl⟩

theorem worksKept_trans {s t u : State} (h : worksKept s t) (h' : worksKept t u) : worksKept s u :=
  ⟨h'.1.trans h.1, h'.2.1.trans h.2.1, h'.2.2.1.trans h.2.2.1, h'.2.2.2.trans h.2.2.2⟩

theorem worksKept_foldl {α : Type} {g : State → α → State} (h : ∀ s x, worksKept s (g s x)) (xs : List α) (s : State) :
    worksKept s (xs.foldl g s) := by
  induction xs generalizing s with
  | nil => exact worksKept_refl s
  | cons x xs ih => exact worksKept_trans (h s x) (ih _)

theorem worksKept_flash {s t : State} (h : worksKept s t) (flash : Flash) : worksKept s { t with flash := flash } := h

theorem worksKept_dropMove (s : State) (oid ver g : Nat) : worksKept s (dropMove s oid ver g) := worksKept_refl s

theorem worksKept_updObj (s : State) (oid : Nat) (g : Obj → Obj) : worksKept s (updObj s oid g) := by
  obtain ⟨space, h⟩ := updObj_changes s oid g
  rw [h]
  exact worksKept_refl s

theorem worksKept_dropCached (s : State) (c : Nat) : worksKept s (dropCached s c) := by
  unfold dropCached
  split
  · exact worksKept_refl s
  · split
    · exact worksKept_refl s
    · exact worksKept_updObj s _ _

theorem worksKept_touchRange (s : State) (oid ver off n : Nat) : worksKept s (touchRange s oid ver off n) := by
  unfold touchRange
  split <;> exact worksKept_refl s

theorem worksKept_putBytes (s : State) (oid off : Nat) (bs : List Byte) : worksKept s (putBytes s oid off bs) :=
  worksKept_trans (worksKept_updObj s oid _) (worksKept_touchRange _ _ _ _ _)

theorem worksKept_readRest (s : State) (oid : Nat) (fr : Frame) (at' n : Nat) : worksKept s (readRest s oid fr at' n) := by
  unfold readRest
  split <;> exact worksKept_refl s

theorem worksKept_rewrite {s t : State} {oid g at' n : Nat} {cid : Option Nat} (h : rewrite s oid g at' n cid = some t) :
    worksKept s t := by
  unfold rewrite at h
  split at h
  · cases h
    exact worksKept_refl s
  · simp only at h
    split_ifs at h <;> cases h
    · exact worksKept_refl s
    · refine worksKept_flash (worksKept_trans (worksKept_trans ?_ (worksKept_readRest _ _ _ _ _)) (worksKept_updObj _ _ _)) _
      exact worksKept_flash (worksKept_dropMove s _ _ _) _
    · refine worksKept_flash (worksKept_trans ?_ (worksKept_updObj _ _ _)) _
      exact worksKept_flash (worksKept_dropMove s _ _ _) _
    · refine worksKept_flash (worksKept_trans (worksKept_trans ?_ (worksKept_dropCached _ _)) (worksKept_updObj _ _ _)) _
      exact worksKept_flash (worksKept_dropMove s _ _ _) _

theorem worksKept_storeGranule (s : State) (f oid off : Nat) (bs : List Byte) : worksKept s (storeGranule s f oid off bs) := by
  unfold storeGranule
  split
  · exact worksKept_refl s
  · split
    · exact worksKept_refl s
    · dsimp only
      split
      · exact worksKept_putBytes s _ _ _
      · split_ifs
        · exact worksKept_trans (worksKept_dropMove s _ _ _) (worksKept_putBytes _ _ _ _)
        · exact worksKept_refl s
        · refine worksKept_trans ?_ (worksKept_updObj _ _ _)
          refine worksKept_trans (worksKept_flash ?_ _) (worksKept_putBytes _ _ _ _)
          refine worksKept_trans (worksKept_trans ?_ (worksKept_dropCached _ _)) (worksKept_updObj _ _ _)
          exact worksKept_dropMove s _ _ _
        · split
          · next h => exact worksKept_trans (worksKept_rewrite h) (worksKept_putBytes _ _ _ _)
          · exact worksKept_refl s
        · exact worksKept_refl s

theorem worksKept_serveWrite (s : State) (f addr : Nat) (bs : List Byte) : worksKept s (serveWrite s f addr bs) := by
  unfold serveWrite
  split
  · exact worksKept_refl s
  · exact worksKept_refl s
  · unfold writeObject
    split
    · exact worksKept_refl s
    · split
      · exact worksKept_refl s
      · exact worksKept_foldl (fun u p => worksKept_storeGranule u _ _ _ _) _ s

theorem worksKept_nodeWrite (s : State) (f oid off : Nat) (bs : List Byte) : worksKept s (nodeWrite s f oid off bs) := by
  refine worksKept_foldl (fun u p => ?_) _ s
  dsimp only
  split
  · exact worksKept_refl u
  · exact worksKept_storeGranule u _ _ _ _

theorem worksKept_writeExit (s : State) (i : Instance) (e : ExitInfo) : worksKept s (writeExit s i e) := by
  unfold writeExit
  split
  · exact worksKept_refl s
  · split
    · exact worksKept_nodeWrite s _ _ _ _
    · exact worksKept_refl s

theorem worksKept_freeAll (s : State) : worksKept s (freeAll s) := by
  obtain ⟨space, flash, h⟩ := freeAll_changes s
  rw [h]
  exact worksKept_refl s

theorem worksKept_causeSnap (s : State) (i : Nat) : worksKept s (causeSnap s i) := by
  rw [causeSnap_kept]
  exact worksKept_refl s

theorem worksKept_observeTasks (s : State) (i : Instance) (ts : List Nat) : worksKept s (observeTasks s i ts) := by
  refine worksKept_foldl (fun u t => ?_) ts s
  split
  · obtain ⟨draught, h⟩ := observePhase_changes u (.program i.fn i.image i.plan t) _ _
    rw [h]
    exact worksKept_refl u
  · exact worksKept_refl u

/-! ### One reed changed -/

@[simp] theorem reedOf_updReed_same (s : State) (r : Nat) (g : Reed → Reed) : reedOf (updReed s r g) r = g (reedOf s r) :=
  AMap.getD_insert_same _ _ _ _

theorem reedOf_updReed_other (s : State) {r q : Nat} (g : Reed → Reed) (h : q ≠ r) : reedOf (updReed s r g) q = reedOf s q :=
  AMap.getD_insert_other _ _ _ _ _ (Ne.symm h)

theorem reedOf_of_reeds {s t : State} (h : t.reeds.reeds = s.reeds.reeds) (r : Nat) : reedOf t r = reedOf s r := by
  rw [reedOf, h, reedOf]

/-! ### No program is back, and no service mark differs -/

/-- No program that had ended is back, and the looms and reeds have their service marks (R516). -/
def marksKept (s t : State) : Prop :=
  (∀ no, AMap.get? s.prog.instances no = none → AMap.get? t.prog.instances no = none) ∧
  (∀ l, (loomOf t l).out = (loomOf s l).out ∧ (loomOf t l).ue = (loomOf s l).ue) ∧
  (∀ r, (reedOf t r).out = (reedOf s r).out ∧ (reedOf t r).ue = (reedOf s r).ue)

theorem marksKept_of_same {s t : State} (hinst : t.prog.instances = s.prog.instances) (hloom : t.looms = s.looms)
    (hreed : t.reeds = s.reeds) : marksKept s t := by
  refine ⟨fun no h => by rw [hinst]; exact h, fun l => ?_, fun r => ?_⟩
  · rw [loomOf_of_looms hloom]
    exact ⟨rfl, rfl⟩
  · rw [reedOf_of_reeds (congrArg Reeds.reeds hreed)]
    exact ⟨rfl, rfl⟩

theorem marksKept_refl (s : State) : marksKept s s := marksKept_of_same rfl rfl rfl

theorem marksKept_trans {s t u : State} (h : marksKept s t) (h' : marksKept t u) : marksKept s u := by
  obtain ⟨hinst, hloom, hreed⟩ := h
  obtain ⟨hinst', hloom', hreed'⟩ := h'
  exact ⟨fun no hno => hinst' no (hinst no hno),
    fun l => ⟨(hloom' l).1.trans (hloom l).1, (hloom' l).2.trans (hloom l).2⟩,
    fun r => ⟨(hreed' r).1.trans (hreed r).1, (hreed' r).2.trans (hreed r).2⟩⟩

theorem marksKept_foldl {α : Type} {g : State → α → State} (h : ∀ s x, marksKept s (g s x)) (xs : List α) (s : State) :
    marksKept s (xs.foldl g s) := by
  induction xs generalizing s with
  | nil => exact marksKept_refl s
  | cons x xs ih => exact marksKept_trans (h s x) (ih _)

theorem marksKept_ite {p : Prop} {_ : Decidable p} {s t u : State} (ht : marksKept s t) (hu : marksKept s u) :
    marksKept s (if p then t else u) := by
  split
  · exact ht
  · exact hu

theorem marksKept_elim {α : Type} {o : Option α} {s : State} {g : α → State} (h : ∀ x, marksKept s (g x)) :
    marksKept s (o.elim s g) := by
  cases o with
  | none => exact marksKept_refl s
  | some x => exact h x

theorem marksKept_of_worksKept {s t : State} (h : worksKept s t) : marksKept s t := by
  obtain ⟨-, hloom, hreed, hprog⟩ := h
  exact marksKept_of_same (by rw [hprog]) hloom hreed

theorem marksKept_of_instances {s t : State} (hloom : t.looms = s.looms) (hreed : t.reeds = s.reeds)
    (h : ∀ no, AMap.get? s.prog.instances no = none → AMap.get? t.prog.instances no = none) : marksKept s t := by
  obtain ⟨-, hlooms, hreeds⟩ := marksKept_of_same (s := s) (t := { t with prog := s.prog }) rfl hloom hreed
  exact ⟨h, hlooms, hreeds⟩

/-! ### Looms and selections -/

theorem marksKept_of_loom {s t : State} {loom : Nat} (hinst : t.prog.instances = s.prog.instances) (hreed : t.reeds = s.reeds)
    (hother : ∀ l, l ≠ loom → loomOf t l = loomOf s l) (hout : (loomOf t loom).out = (loomOf s loom).out)
    (hue : (loomOf t loom).ue = (loomOf s loom).ue) : marksKept s t := by
  refine ⟨fun no h => by rw [hinst]; exact h, fun l => ?_, fun r => ?_⟩
  · by_cases hl : l = loom
    · subst hl
      exact ⟨hout, hue⟩
    · rw [hother l hl]
      exact ⟨rfl, rfl⟩
  · rw [reedOf_of_reeds (congrArg Reeds.reeds hreed)]
    exact ⟨rfl, rfl⟩

theorem marksKept_updLoom {s : State} {loom : Nat} {g : Loom → Loom} (hout : (g (loomOf s loom)).out = (loomOf s loom).out)
    (hue : (g (loomOf s loom)).ue = (loomOf s loom).ue) : marksKept s (updLoom s loom g) :=
  marksKept_of_loom rfl rfl (fun _ hl => loomOf_updLoom_other s g hl) (by rw [loomOf_updLoom_same]; exact hout)
    (by rw [loomOf_updLoom_same]; exact hue)

theorem marksKept_beginHead (s : State) (loom : Nat) : marksKept s (beginHead s loom) := by
  obtain ⟨-, -, hout, hue⟩ := loomStands_beginHead s loom
  obtain ⟨hframe, -⟩ := arraysMoved_beginHead s loom
  exact marksKept_of_loom (by rw [hframe]) (by rw [hframe]) (fun _ hl => loomOf_beginHead_other s hl) hout hue

theorem marksKept_dropDescs (s : State) (loom : Nat) (keep : ArrayDesc → Bool) : marksKept s (dropDescs s loom keep) := by
  unfold dropDescs
  refine marksKept_ite (marksKept_refl s) (marksKept_trans (marksKept_updLoom ?_ ?_) (marksKept_beginHead _ loom))
  · rw [phasesOnly_settleArrays]
  · rw [phasesOnly_settleArrays]

theorem marksKept_stopArrays (s : State) (no : Nat) : marksKept s (stopArrays s no) := by
  refine marksKept_foldl (fun u l => ?_) _ s
  exact marksKept_trans (marksKept_ite (marksKept_refl u) (marksKept_updLoom rfl rfl)) (marksKept_dropDescs _ l _)

theorem marksKept_updInst (s : State) (no : Nat) (g : Instance → Instance) : marksKept s (updInst s no g) := by
  unfold updInst
  split
  · next i hi =>
    refine marksKept_of_instances rfl rfl fun k hk => ?_
    have hne : no ≠ k := by
      rintro rfl
      rw [hk] at hi
      cases hi
    exact (AMap.get?_insert_other _ _ _ _ hne).trans hk
  · exact marksKept_refl s

theorem marksKept_progViolate (s : State) (no : Nat) : marksKept s (progViolate s no) := by
  unfold progViolate
  split
  · exact marksKept_ite (marksKept_refl s) (marksKept_updInst (violate s _ 1) no _)
  · exact marksKept_refl s

theorem marksKept_progWrite (s : State) (no : Nat) (i : Instance) (loom a : Nat) (bs : List Byte) :
    marksKept s (progWrite s no i loom a bs) := by
  unfold progWrite
  split
  · exact marksKept_ite (marksKept_updLoom rfl rfl) (marksKept_progViolate s no)
  · exact marksKept_progViolate s no
  · split
    · exact marksKept_progViolate s no
    · exact marksKept_refl s
    · exact marksKept_of_worksKept (worksKept_serveWrite s _ _ _)

/-- A reed without the selections of a program. -/
def withoutSelections (no : Nat) (x : Reed) : Reed :=
  { x with queue := x.queue.filter (fun d => d.inst != no), running := x.running.filter (fun d => d.inst != no) }

/-- The state in which no reed holds a selection of a program. -/
def selectionsGone (s : State) (no : Nat) : State :=
  { s with reeds := { s.reeds with reeds := s.reeds.reeds.map (fun e => (e.1, withoutSelections no e.2)) } }

theorem reedOf_selectionsGone (s : State) (no r : Nat) : reedOf (selectionsGone s no) r = withoutSelections no (reedOf s r) := by
  simp only [reedOf, AMap.getD, selectionsGone, get?_mapValues]
  cases AMap.get? s.reeds.reeds r <;> rfl

theorem marksKept_stopSelections (s : State) (no : Nat) : marksKept s (stopSelections s no) := by
  refine marksKept_trans (t := selectionsGone s no) ?_
    (marksKept_elim fun i => marksKept_foldl (fun u d => marksKept_progWrite u no i _ _ _) _ _)
  refine ⟨fun _ h => h, fun _ => ⟨rfl, rfl⟩, fun r => ?_⟩
  rw [reedOf_selectionsGone]
  exact ⟨rfl, rfl⟩

theorem marksKept_stopWork (s : State) (no : Nat) : marksKept s (stopWork s no) :=
  marksKept_trans (marksKept_trans (marksKept_stopArrays s no) (marksKept_stopSelections _ no)) (marksKept_of_same rfl rfl rfl)

/-! ### The end of a program -/

theorem get?_erase_same {α : Type} (m : AMap α) (i : Nat) : AMap.get? (AMap.erase m i) i = none := by
  induction m with
  | nil => rfl
  | cons e m ih =>
    by_cases h : e.1 = i
    · simpa [AMap.erase, h] using ih
    · simpa [AMap.erase, AMap.get?, h] using ih

theorem get?_erase_of_none {α : Type} {m : AMap α} {i : Nat} (j : Nat) (h : AMap.get? m i = none) :
    AMap.get? (AMap.erase m j) i = none := by
  induction m with
  | nil => rfl
  | cons e m ih =>
    have hi : e.1 ≠ i := by
      intro he
      simp [AMap.get?, he] at h
    have hm : AMap.get? m i = none := by simpa [AMap.get?, hi] using h
    by_cases hj : e.1 = j
    · simpa [AMap.erase, hj] using ih hm
    · simpa [AMap.erase, AMap.get?, hj, hi] using ih hm

theorem marksKept_freeKnot (s : State) (k : Nat) : marksKept s (freeKnot s k) := by
  refine marksKept_of_instances rfl rfl fun no h => ?_
  refine (get?_mapValues s.prog.instances (fun i : Instance => { i with
    knots := i.knots.map (fun n => if n = k then 65536 else n) }) no).trans ?_
  rw [h]
  rfl

/-- The state in which a program has stopped, written its exit record and gone (R303). -/
def instanceGone (s : State) (no : Nat) (i : Instance) (e : ExitInfo) : State :=
  let s := observeTasks (writeExit (stopWork s no) i e) i (i.meters.map (·.1))
  { s with prog := { s.prog with
    instances := AMap.erase s.prog.instances no
    shuttles := s.prog.shuttles.filter (fun x => x.2.inst != no)
    faults := if 2 ≤ e.code && e.code ≤ 4 then satAdd s.prog.faults 1 else s.prog.faults } }

theorem instanceGone_ends (s : State) (no : Nat) (i : Instance) (e : ExitInfo) :
    marksKept s (instanceGone s no i e) ∧ AMap.get? (instanceGone s no i e).prog.instances no = none := by
  refine ⟨?_, get?_erase_same _ no⟩
  refine marksKept_trans (t := observeTasks (writeExit (stopWork s no) i e) i (i.meters.map (·.1))) ?_
    (marksKept_of_instances rfl rfl fun k hk => get?_erase_of_none no hk)
  exact marksKept_trans (marksKept_stopWork s no) (marksKept_of_worksKept
    (worksKept_trans (worksKept_writeExit _ i e) (worksKept_observeTasks _ i _)))

/-- What follows once a program has gone sets no mark and brings none back, where its arrivals do not. -/
theorem marksKept_afterGone {arr : State → Nat → State} (harr : ∀ u k, marksKept u (arr u k)) {s : State} {no : Nat} {i : Instance}
    (hi : AMap.get? s.prog.instances no = some i) (e : ExitInfo) :
    marksKept (instanceGone s no i e) (endInstance arr s no e) := by
  have hmine : ∀ (u : State) (k : Nat),
      marksKept u (if (knotOf u k).any (fun x => x.fn == i.fn) then arr u k else u) :=
    fun u k => marksKept_ite (harr u k) (marksKept_refl u)
  unfold endInstance
  rw [hi]
  dsimp only
  refine marksKept_trans ?_ (marksKept_of_worksKept (worksKept_freeAll _))
  refine marksKept_trans ?_ (marksKept_of_same rfl rfl rfl)
  refine marksKept_trans ?_ (marksKept_ite (marksKept_of_worksKept (worksKept_causeSnap _ 5)) (marksKept_refl _))
  refine marksKept_trans ?_ (marksKept_foldl marksKept_freeKnot _ _)
  refine marksKept_trans ?_ (marksKept_elim fun k => hmine _ k)
  exact marksKept_foldl hmine _ _

theorem endInstance_ends {arr : State → Nat → State} (harr : ∀ u k, marksKept u (arr u k)) (s : State) (no : Nat) (e : ExitInfo) :
    marksKept s (endInstance arr s no e) ∧ AMap.get? (endInstance arr s no e).prog.instances no = none := by
  cases hi : AMap.get? s.prog.instances no with
  | none =>
    have hsame : endInstance arr s no e = s := by simp only [endInstance, hi]
    rw [hsame]
    exact ⟨marksKept_refl s, hi⟩
  | some i =>
    obtain ⟨hgone, hnone⟩ := instanceGone_ends s no i e
    have hafter := marksKept_afterGone harr hi e
    exact ⟨marksKept_trans hgone hafter, hafter.1 no hnone⟩

/-! ### Arrivals -/

theorem marksKept_noteKnot (s : State) (x : Knot) : marksKept s (noteKnot s x) := by
  refine marksKept_elim fun no => ?_
  unfold noteMay
  split
  · exact marksKept_refl s
  · exact marksKept_updInst s no _

theorem marksKept_boundaryWith {arr : State → Nat → State} (harr : ∀ u k, marksKept u (arr u k)) (s : State) (no : Nat) :
    marksKept s (boundaryWith arr s no) := by
  have hstep (g : Instance → Instance) : marksKept s (freeAll (updInst s no g)) :=
    marksKept_trans (marksKept_updInst s no g) (marksKept_of_worksKept (worksKept_freeAll _))
  unfold boundaryWith
  dsimp only
  split
  · exact marksKept_ite (marksKept_trans (hstep _) (endInstance_ends harr _ no _).1) (hstep _)
  · exact hstep _

theorem marksKept_knotCounted (s : State) (k : Nat) (x : Knot) : marksKept s (charge (putKnot s k x) x.fn 30 true) :=
  marksKept_of_same rfl rfl rfl

theorem marksKept_knotReleased (s : State) (k : Nat) (x : Knot) :
    marksKept s (noteKnot (releaseWaiters (charge (putKnot s k x) x.fn 30 true) k 0 stOk) x) :=
  marksKept_trans (t := releaseWaiters (charge (putKnot s k x) x.fn 30 true) k 0 stOk) (marksKept_of_same rfl rfl rfl)
    (marksKept_noteKnot _ x)

theorem marksKept_arriveN (n : Nat) (s : State) (k amount : Nat) : marksKept s (arriveN n s k amount) := by
  induction n generalizing s k amount with
  | zero =>
    unfold arriveN
    split
    · exact marksKept_refl s
    · next x _ =>
      exact marksKept_ite (marksKept_knotCounted s k { x with counter := satAdd x.counter amount })
        (marksKept_knotReleased s k { x with counter := satAdd x.counter amount })
  | succ n ih =>
    unfold arriveN
    split
    · exact marksKept_refl s
    · next x _ =>
      have hreleased := marksKept_knotReleased s k { x with counter := satAdd x.counter amount }
      refine marksKept_ite (marksKept_knotCounted s k { x with counter := satAdd x.counter amount }) ?_
      cases (if x.boundary then x.inst else none) with
      | none => exact hreleased
      | some no => exact marksKept_trans hreleased (marksKept_boundaryWith (fun u k => ih u k 1) _ no)

/-- The end of a program, with all that its exit knot's arrival sets off (R303). -/
theorem instanceEnds_ends (s : State) (no : Nat) (e : ExitInfo) :
    marksKept s (instanceEnds s no e) ∧ AMap.get? (instanceEnds s no e).prog.instances no = none :=
  endInstance_ends (fun u k => marksKept_arriveN _ u k 1) s no e

theorem foldl_instanceEnds_ends (e : ExitInfo) (ns : List Nat) (s : State) :
    marksKept s (ns.foldl (fun s no => instanceEnds s no e) s) ∧
      ∀ no ∈ ns, AMap.get? (ns.foldl (fun s no => instanceEnds s no e) s).prog.instances no = none := by
  induction ns generalizing s with
  | nil => exact ⟨marksKept_refl s, by simp⟩
  | cons n ns ih =>
    obtain ⟨hone, hnone⟩ := instanceEnds_ends s n e
    obtain ⟨hrest, hall⟩ := ih (instanceEnds s n e)
    refine ⟨marksKept_trans hone hrest, fun no hno => ?_⟩
    rcases List.mem_cons.1 hno with rfl | hno
    · exact hrest.1 _ hnone
    · exact hall no hno

/-! ### The rows -/

/-- The state in which the searches of a pick's members have failed (R516). -/
def membersFailed (s : State) (ms : PickMembers) : State := ms.foldl (fun s m => if m.2 then fail s m.1 stInternal else s) s

theorem membersFailed_looms (s : State) (ms : PickMembers) : (membersFailed s ms).looms = s.looms := by
  induction ms generalizing s with
  | nil => rfl
  | cons m ms ih =>
    refine (ih (if m.2 then fail s m.1 stInternal else s)).trans ?_
    split
    · exact fail_looms s _ _
    · rfl

/-- A loom and a reed taken out of service by an uncorrectable error (R516). -/
def loomOut (l : Loom) : Loom := { l with ue := satAdd l.ue 1, out := true }
def reedOut (x : Reed) : Reed := { x with out := true, ue := satAdd x.ue 1 }

theorem exec_descriptorComplete_uncorrectable {loom : Nat} {d : ArrayDesc} {rest : List ArrayDesc} {s : State}
    (hdq : (loomOf s loom).dq = d :: rest) : exec (.descriptorComplete loom .uncorrectable) s =
      .next (dropDescs (instanceEnds (updLoom (membersFailed s (d.pick.getD [])) loom loomOut) d.inst { code := 1 }) loom
        (fun d => d.pick.isNone)) := by
  simp only [exec, execDescriptorComplete, hdq, if_pos]
  rfl

/-- An uncorrectable error of a weave store takes the loom out of service and ends the program (R516). -/
theorem descriptorComplete_uncorrectable (loom : Nat) (d : ArrayDesc) (rest : List ArrayDesc) (s : State)
    (hdq : (loomOf s loom).dq = d :: rest) :
    ∃ t, exec (.descriptorComplete loom .uncorrectable) s = .next t ∧ (loomOf t loom).out = true ∧
      (loomOf t loom).ue = satAdd (loomOf s loom).ue 1 ∧ AMap.get? t.prog.instances d.inst = none := by
  have hloom : loomOf (updLoom (membersFailed s (d.pick.getD [])) loom loomOut) loom = loomOut (loomOf s loom) := by
    rw [loomOf_updLoom_same, loomOf_of_looms (membersFailed_looms s _)]
  obtain ⟨hends, hnone⟩ := instanceEnds_ends (updLoom (membersFailed s (d.pick.getD [])) loom loomOut) d.inst { code := 1 }
  have hdrop := marksKept_dropDescs (instanceEnds (updLoom (membersFailed s (d.pick.getD [])) loom loomOut) d.inst { code := 1 })
    loom (fun d => d.pick.isNone)
  obtain ⟨-, hmarks, -⟩ := marksKept_trans hends hdrop
  obtain ⟨hout, hue⟩ := hmarks loom
  rw [hloom] at hout hue
  exact ⟨_, exec_descriptorComplete_uncorrectable hdq, hout, hue, hdrop.1 _ hnone⟩

/-- An uncorrectable error of a reed's tournament storage takes the reed out of service and ends the program (R516). -/
theorem reedComplete_uncorrectable (r : Nat) (d : ReedDesc) (s : State) (hrun : (reedOf s r).running = some d) :
    ∃ t, exec (.reedComplete r .uncorrectable) s = .next t ∧ (reedOf t r).out = true ∧
      (reedOf t r).ue = satAdd (reedOf s r).ue 1 ∧ AMap.get? t.prog.instances d.inst = none := by
  have hexec : exec (.reedComplete r .uncorrectable) s = .next (storeError s r) := by
    simp only [exec, execReedComplete, hrun, if_pos]
  have hreed : reedOf (updReed s r reedOut) r = reedOut (reedOf s r) := reedOf_updReed_same s r reedOut
  obtain ⟨⟨-, -, hreeds⟩, hnone⟩ := foldl_instanceEnds_ends { code := 1 }
    (((reedOf s r).running.toList ++ (reedOf s r).queue).map (·.inst)).eraseDups (updReed s r reedOut)
  obtain ⟨hout, hue⟩ := hreeds r
  rw [hreed] at hout hue
  exact ⟨_, hexec, hout, hue, hnone _ (by simp [hrun])⟩

end Sys2Proof.Laws
end

section
/-! PROOFS. O41, the rows of a reed: the descriptor that reached it first starts (R336), and a selection ends with its completion word
(R352, R354). -/

namespace Sys2Proof.Laws
open Sys2Proof Sys2Proof.Machine Sys2Proof.Safety

/-! ### REED_START -/

/-- Reads that join their queues are all that differs (R197). -/
theorem queueRange_reads (s : State) (client : FlashClient) (oid ver off len : Nat) (deadline : Option Nat) : ∃ reads,
    queueRange s client oid ver off len deadline = { s with flash := { s.flash with reads := reads } } := by
  have hfold : ∀ (frs : List Frame) (s : State), ∃ reads, frs.foldl (fun s fr => queueRead s client oid fr deadline) s =
      { s with flash := { s.flash with reads := reads } } := by
    intro frs
    induction frs with
    | nil => exact fun s => ⟨_, rfl⟩
    | cons fr frs ih =>
      intro s
      obtain ⟨reads, h⟩ := ih (queueRead s client oid fr deadline)
      exact ⟨reads, h⟩
  unfold queueRange
  split
  · exact ⟨_, rfl⟩
  · exact hfold _ s

/-- The same where the range has a place in an object, or none (R276). -/
theorem placedRange_reads (place : Option (Nat × Nat × Nat)) (s : State) (client : FlashClient) (len : Nat) : ∃ reads,
    place.elim s (fun p => queueRange s client p.1 p.2.2 p.2.1 len none) = { s with flash := { s.flash with reads := reads } } := by
  cases place with
  | none => exact ⟨_, rfl⟩
  | some p => exact queueRange_reads s client p.1 p.2.2 p.2.1 len none

/-- A reed with the first of its queue running. -/
def reedStarted (d : ReedDesc) (rest : List ReedDesc) (x : Reed) : Reed := { x with queue := rest, running := some d }

/-- A descriptor whose spill storage is there starts, and its reads of the peat tier join their queues (R197, R336, R347). -/
theorem exec_reedStart_starts {r : Nat} {d : ReedDesc} {rest : List ReedDesc} {s : State} (hrun : (reedOf s r).running = none)
    (hqueue : (reedOf s r).queue = d :: rest)
    (hfits : field d.desc 0 1 = 2 ∨ field d.desc 8 8 = 0 ∨ field d.desc 4 4 ≤ 65536 ∨ largeFits s (field d.desc 4 4) = true) :
    ∃ reads, exec (.reedStart r) s = .next { updReed s r (reedStarted d rest) with flash := { s.flash with reads := reads } } := by
  have hroom : field d.desc 0 1 = 2 ∨ field d.desc 8 8 = 0 ∨
      largeFits s (if 65536 < field d.desc 4 4 then field d.desc 4 4 else 0) = true := by
    refine hfits.imp_right (Or.imp_right fun h => ?_)
    split
    · next hlarge => exact h.resolve_left (Nat.not_le.2 hlarge)
    · rfl
  simp only [exec, execReedStart, hrun, hqueue]
  rw [if_neg (by rcases hroom with h | h | h <;> simp [h])]
  obtain ⟨reads, h⟩ := placedRange_reads
    ((AMap.get? s.prog.instances d.inst).bind (fun i => shPlace (updReed s r (reedStarted d rest)) i (field d.desc 16 8)))
    (updReed s r (reedStarted d rest)) (.reed r) (field d.desc 8 8 * reedWidth (field d.desc 0 1))
  exact ⟨reads, congrArg _ h⟩

theorem reedStart_starts (r : Nat) (d : ReedDesc) (rest : List ReedDesc) (s : State) (hrun : (reedOf s r).running = none)
    (hqueue : (reedOf s r).queue = d :: rest)
    (hfits : field d.desc 0 1 = 2 ∨ field d.desc 8 8 = 0 ∨ field d.desc 4 4 ≤ 65536 ∨ largeFits s (field d.desc 4 4) = true) :
    ∃ t, exec (.reedStart r) s = .next t ∧ (reedOf t r).running = some d ∧ (reedOf t r).queue = rest ∧
      (∀ q, q ≠ r → reedOf t q = reedOf s q) ∧
      t = { s with reeds := t.reeds, flash := { s.flash with reads := t.flash.reads } } := by
  obtain ⟨reads, hexec⟩ := exec_reedStart_starts hrun hqueue hfits
  have hreed : reedOf (updReed s r (reedStarted d rest)) r = reedStarted d rest (reedOf s r) := reedOf_updReed_same s r _
  exact ⟨_, hexec, congrArg Reed.running hreed, congrArg Reed.queue hreed,
    fun q hq => reedOf_updReed_other s (reedStarted d rest) hq, rfl⟩

/-! ### Selections -/

/-- Reeds and commands are those of another state, and its weave stores stay canonical. -/
def selectionKeeps (s t : State) : Prop :=
  t.sched = s.sched ∧ t.reeds.reeds = s.reeds.reeds ∧ ∀ l, (loomOf s l).ws.wf → (loomOf t l).ws.wf

theorem selectionKeeps_trans {s t u : State} (h : selectionKeeps s t) (h' : selectionKeeps t u) : selectionKeeps s u :=
  ⟨h'.1.trans h.1, h'.2.1.trans h.2.1, fun l hl => h'.2.2 l (h.2.2 l hl)⟩

theorem selectionKeeps_of_looms {s t : State} (hsched : t.sched = s.sched) (hreed : t.reeds.reeds = s.reeds.reeds)
    (hloom : t.looms = s.looms) : selectionKeeps s t :=
  ⟨hsched, hreed, fun l hl => by rw [loomOf_of_looms hloom]; exact hl⟩

theorem selectionKeeps_progViolate (s : State) (no : Nat) : selectionKeeps s (progViolate s no) := by
  unfold progViolate
  split
  · split
    · exact selectionKeeps_of_looms rfl rfl rfl
    · unfold updInst
      split <;> exact selectionKeeps_of_looms rfl rfl rfl
  · exact selectionKeeps_of_looms rfl rfl rfl

theorem selectionKeeps_countKeys (s : State) (f n : Nat) : selectionKeeps s (countKeys s f n) :=
  selectionKeeps_of_looms rfl rfl rfl

theorem selectionKeeps_countSpill (s : State) (k : Nat) : selectionKeeps s (countSpill s k) := by
  unfold countSpill
  split
  · exact selectionKeeps_of_looms rfl rfl rfl
  · split <;> exact selectionKeeps_of_looms rfl rfl rfl

/-- A loom with bytes written into its weave store. -/
def withBytes (off : Nat) (bs : List Byte) (l : Loom) : Loom := { l with ws := Mem.write l.ws off bs }

theorem selectionKeeps_weaveWrite (s : State) (loom off : Nat) (bs : List Byte) :
    selectionKeeps s (updLoom s loom (withBytes off bs)) := by
  refine ⟨rfl, rfl, fun l hl => ?_⟩
  by_cases h : l = loom
  · subst h
    rw [loomOf_updLoom_same]
    exact Mem.write_wf _ off bs hl
  · rw [loomOf_updLoom_other s _ h]
    exact hl

theorem selectionKeeps_progWrite (s : State) (no : Nat) (i : Instance) (loom a : Nat) (bs : List Byte) :
    selectionKeeps s (progWrite s no i loom a bs) := by
  unfold progWrite
  split
  · split
    · exact selectionKeeps_weaveWrite s loom _ bs
    · exact selectionKeeps_progViolate s no
  · exact selectionKeeps_progViolate s no
  · split
    · exact selectionKeeps_progViolate s no
    · exact selectionKeeps_of_looms rfl rfl rfl
    · obtain ⟨hsched, hloom, hreed, -⟩ := worksKept_serveWrite s i.fn _ bs
      exact selectionKeeps_of_looms hsched (by rw [hreed]) hloom

theorem selectionKeeps_ite {p : Prop} {_ : Decidable p} {s t u : State} (ht : selectionKeeps s t) (hu : selectionKeeps s u) :
    selectionKeeps s (if p then t else u) := by
  split
  · exact ht
  · exact hu

/-! ### REED_COMPLETE -/

/-- The outcome of a reed descriptor's selection (R352). -/
def selectionOf (s : State) (d : ReedDesc) (i : Instance) : Result :=
  selectCore (field d.desc 0 1) (bit (field d.desc 1 1) 0) (bit (field d.desc 1 1) 1) (field d.desc 4 4) (reedSource s d i).1

theorem rangeBad_any_of_lost {o : Obj} {ver off n : Nat} (h : rangeBad .lost o ver off n = true) :
    rangeBad .any o ver off n = true := by
  simp only [rangeBad, Bool.or_false] at h ⊢
  rw [h, Bool.true_or]

theorem progBad_any_of_lost {s : State} {i : Instance} {a n : Nat} (h : progBad .lost s i a n = true) :
    progBad .any s i a n = true := by
  unfold progBad at h ⊢
  split at h
  · split at h
    · obtain ⟨o, ho, hbad⟩ := Option.any_eq_true _ _ |>.1 h
      exact (Option.any_eq_true _ _).2 ⟨o, ho, rangeBad_any_of_lost hbad⟩
    · cases h
  · cases h

/-- A source that can be read has lost nothing. -/
theorem reedBad_lost_of_any {s : State} {d : ReedDesc} {i : Instance} (h : reedBad .any s d i = false) :
    reedBad .lost s d i = false := by
  refine Bool.eq_false_iff.2 fun hlost => ?_
  obtain ⟨j, hj, hbad⟩ := List.any_eq_true.1 hlost
  exact Bool.false_ne_true (h.symm.trans (List.any_eq_true.2 ⟨j, hj, progBad_any_of_lost hbad⟩))

/-- A selection whose source can be read puts its entries out and ends with its outcome (R352, R354). -/
theorem reedRun_selects {s : State} {d : ReedDesc} {i : Instance} (hk : field d.desc 0 1 = 2 ∨ field d.desc 4 4 ≠ 0)
    (hn : field d.desc 8 8 ≠ 0) (hgood : reedBad .any s d i = false) : ∃ u, selectionKeeps s u ∧
    reedRun s d i = reedEnds u d i (selectionOf s d i).status.toNat (selectionOf s d i).count.toNat (selectionOf s d i).invalid.toNat := by
  have hkept (u : State) : selectionKeeps u u := selectionKeeps_of_looms rfl rfl rfl
  have hlost := reedBad_lost_of_any hgood
  unfold reedRun
  dsimp only
  rw [if_neg (by rcases hk with h | h <;> simp [h]), if_neg hn, hlost, hgood]
  refine ⟨_, ?_, rfl⟩
  refine selectionKeeps_trans ?_ (selectionKeeps_ite (hkept _) (selectionKeeps_progWrite _ _ _ _ _ _))
  refine selectionKeeps_trans ?_ (selectionKeeps_ite (hkept _) (selectionKeeps_countSpill _ _))
  refine selectionKeeps_trans ?_ (selectionKeeps_countKeys _ _ _)
  exact selectionKeeps_ite (selectionKeeps_progViolate s _) (hkept s)

/-- The bytes of a reed's completion word (R354). -/
def completionWord (status count invalid : Nat) : List Byte :=
  toLE 4 status ++ toLE 4 count ++ (toLE 4 invalid ++ List.replicate 4 0#8)

theorem completionWord_eq (status count invalid : Nat) :
    lay 16 [(0, 4, status), (4, 4, count), (8, 4, invalid)] = completionWord status count invalid := rfl

theorem completionWord_length (status count invalid : Nat) : (completionWord status count invalid).length = 16 := by
  simp [completionWord]

theorem nat_completionWord_status {m : Mem} (hm : Mem.wf m) (off status count invalid : Nat) :
    Mem.nat (Mem.write m off (completionWord status count invalid)) off 4 = status % 256 ^ 4 := by
  simpa [completionWord, leNat_toLE] using
    nat_write hm off [] (toLE 4 status) (toLE 4 count ++ (toLE 4 invalid ++ List.replicate 4 0#8))

theorem nat_completionWord_count {m : Mem} (hm : Mem.wf m) (off status count invalid : Nat) :
    Mem.nat (Mem.write m off (completionWord status count invalid)) (off + 4) 4 = count % 256 ^ 4 := by
  simpa [completionWord, leNat_toLE] using
    nat_write hm off (toLE 4 status) (toLE 4 count) (toLE 4 invalid ++ List.replicate 4 0#8)

/-- A completion word in the program's region of the weave store (R276, R354). -/
theorem reedEnds_weave {s : State} {d : ReedDesc} {i : Instance} {off : Nat} (harr : bit (field d.desc 1 1) 2 = false)
    (haddr : shAddr (field d.desc 48 8) = .weave off) (hregion : inRegion i d.loom off 16 = true) (status count invalid : Nat) :
    reedEnds s d i status count invalid = updLoom s d.loom (withBytes off (completionWord status count invalid)) := by
  rw [reedEnds, if_neg (by simp [harr]), completionWord_eq]
  simp only [progWrite, haddr]
  exact if_pos (by rw [completionWord_length]; exact hregion)

/-- A reed whose descriptor has run. -/
def reedFreed (x : Reed) : Reed := { x with running := none }

/-- A descriptor whose accesses no channel holds runs once its reed is free of it (R209, R354). -/
theorem exec_reedComplete_runs {r : Nat} {e : Ecc} {d : ReedDesc} {i : Instance} {s : State} (hrun : (reedOf s r).running = some d)
    (he : e ≠ .uncorrectable) (hheld : reedHeld s d = false) (hinst : AMap.get? s.prog.instances d.inst = some i) :
    exec (.reedComplete r e) s = .next (reedRun (updReed s r reedFreed) d i) := by
  have hrow : (AMap.get? s.prog.instances d.inst).elim (updReed s r reedFreed) (reedRun (updReed s r reedFreed) d) =
      reedRun (updReed s r reedFreed) d i := by rw [hinst, Option.elim_some]
  simp only [exec, execReedComplete, hrun, if_neg he, hheld, Bool.false_eq_true, if_false]
  exact congrArg Host.Outcome.next hrow

theorem reedComplete_selects (r off : Nat) (e : Ecc) (d : ReedDesc) (i : Instance) (s : State) (hrun : (reedOf s r).running = some d)
    (he : e ≠ .uncorrectable) (hheld : reedHeld s d = false) (hinst : AMap.get? s.prog.instances d.inst = some i)
    (hk : field d.desc 0 1 = 2 ∨ field d.desc 4 4 ≠ 0) (hn : field d.desc 8 8 ≠ 0) (hgood : reedBad .any s d i = false)
    (harr : bit (field d.desc 1 1) 2 = false) (haddr : shAddr (field d.desc 48 8) = .weave off)
    (hregion : inRegion i d.loom off 16 = true) (hwf : (loomOf s d.loom).ws.wf) :
    ∃ t, exec (.reedComplete r e) s = .next t ∧ (reedOf t r).running = none ∧ (reedOf t r).queue = (reedOf s r).queue ∧
      Mem.nat (loomOf t d.loom).ws off 4 = (selectionOf s d i).status.toNat ∧
      Mem.nat (loomOf t d.loom).ws (off + 4) 4 = (selectionOf s d i).count.toNat ∧
      (∀ q, q ≠ r → reedOf t q = reedOf s q) ∧ t.sched = s.sched := by
  have hexec := exec_reedComplete_runs hrun he hheld hinst
  obtain ⟨u, ⟨hsched, hreeds, hstores⟩, hends⟩ := reedRun_selects (s := updReed s r reedFreed) hk hn hgood
  rw [hends, reedEnds_weave harr haddr hregion] at hexec
  have hreed : reedOf u r = reedFreed (reedOf s r) := (reedOf_of_reeds hreeds r).trans (reedOf_updReed_same s r _)
  have hstore : (loomOf u d.loom).ws.wf := hstores d.loom hwf
  refine ⟨_, hexec, (congrArg Reed.running hreed :), (congrArg Reed.queue hreed :), ?_, ?_, fun q hq => ?_, hsched⟩
  · rw [loomOf_updLoom_same]
    exact (nat_completionWord_status hstore off _ _ _).trans
      (Nat.mod_eq_of_lt (Nat.lt_trans (selectionOf s d i).status.isLt (by decide)))
  · rw [loomOf_updLoom_same]
    exact (nat_completionWord_count hstore off _ _ _).trans (Nat.mod_eq_of_lt (selectionOf s d i).count.isLt)
  · exact (reedOf_of_reeds hreeds q).trans (reedOf_updReed_other s _ hq)

/-- Settles O41, row by row. -/
theorem arraysAndReedsRun : Obligations.ArraysAndReedsRun :=
  ⟨riseAdmit_begins, riseAdmit_waits, descriptorComplete_idle, reedStart_starts, reedComplete_selects,
    descriptorComplete_uncorrectable, reedComplete_uncorrectable⟩

end Sys2Proof.Laws
end

section
/-! PROOFS. Instructions of shuttles: the registers they read and write, one shuttle or one program changed, and what an instruction
that may issue leaves beside its own work, which is energy counts and the shuttle that issued last (R271-R274, R464). -/

namespace Sys2Proof.Laws
open Sys2Proof Sys2Proof.Machine Sys2Proof.Safety

/-! ### Registers (R274) -/

theorem get?_erase_other {α : Type} (m : AMap α) {i j : Nat} (h : j ≠ i) : AMap.get? (AMap.erase m i) j = AMap.get? m j := by
  induction m with
  | nil => rfl
  | cons e m ih =>
    by_cases hi : e.1 = i
    · have hj : e.1 ≠ j := fun hj => h (hj.symm.trans hi)
      simpa [AMap.erase, AMap.get?, hi, h.symm] using ih
    · by_cases hj : e.1 = j
      · simp [AMap.erase, AMap.get?, hj, h]
      · simpa [AMap.erase, AMap.get?, hi, hj] using ih

theorem getD_put_same {α : Type} [DecidableEq α] (m : AMap α) (i : Nat) (v d : α) : AMap.getD (AMap.put m i v d) i d = v := by
  by_cases h : v = d
  · simp [AMap.put, AMap.getD, h, get?_erase_same]
  · simp [AMap.put, h]

theorem getD_put_other {α : Type} [DecidableEq α] (m : AMap α) {i j : Nat} (v d : α) (h : j ≠ i) :
    AMap.getD (AMap.put m i v d) j d = AMap.getD m j d := by
  by_cases hv : v = d
  · simp [AMap.put, AMap.getD, hv, get?_erase_other m h]
  · simp [AMap.put, AMap.getD, hv, Ne.symm h]

@[simp] theorem setReg_zero (x : Shuttle) (v : BitVec 64) : x.setReg 0 v = x := if_pos rfl

theorem setReg_of_ne {r : Nat} (hr : r ≠ 0) (x : Shuttle) (v : BitVec 64) : x.setReg r v = { x with g := AMap.put x.g r v 0 } :=
  if_neg hr

@[simp] theorem reg_zero (x : Shuttle) : x.reg 0 = 0 := if_pos rfl

theorem reg_setReg_same (x : Shuttle) {r : Nat} (hr : r ≠ 0) (v : BitVec 64) : (x.setReg r v).reg r = v := by
  rw [setReg_of_ne hr, Shuttle.reg, if_neg hr]
  exact getD_put_same x.g r v 0

theorem reg_setReg_other (x : Shuttle) {r q : Nat} (h : q ≠ r) (v : BitVec 64) : (x.setReg r v).reg q = x.reg q := by
  by_cases hr : r = 0
  · rw [hr, setReg_zero]
  · rw [setReg_of_ne hr, Shuttle.reg, Shuttle.reg]
    exact congrArg (ite (q = 0) 0) (getD_put_other x.g v 0 h)

/-! ### One shuttle changed -/

@[simp] theorem shuttleOf_putShuttle_same (s : State) (sh : Nat) (x : Shuttle) : shuttleOf (putShuttle s sh x) sh = x :=
  AMap.getD_insert_same _ _ _ _

theorem shuttleOf_putShuttle_other (s : State) {sh h : Nat} (x : Shuttle) (hne : h ≠ sh) :
    shuttleOf (putShuttle s sh x) h = shuttleOf s h :=
  AMap.getD_insert_other _ _ _ _ _ (Ne.symm hne)

theorem shuttleOf_of_shuttles {s t : State} (h : t.prog.shuttles = s.prog.shuttles) (sh : Nat) : shuttleOf t sh = shuttleOf s sh := by
  rw [shuttleOf, h, shuttleOf]

/-! ### One program changed -/

theorem updInst_of_some {s : State} {no : Nat} {i : Instance} (h : AMap.get? s.prog.instances no = some i) (g : Instance → Instance) :
    updInst s no g = { s with prog := { s.prog with instances := AMap.insert s.prog.instances no (g i) } } := by
  simp only [updInst, h]

theorem get?_updInst_same {s : State} {no : Nat} {i : Instance} (h : AMap.get? s.prog.instances no = some i) (g : Instance → Instance) :
    AMap.get? (updInst s no g).prog.instances no = some (g i) := by
  rw [updInst_of_some h]
  exact AMap.get?_insert_same _ _ _

theorem get?_updInst_other (s : State) {no k : Nat} (h : k ≠ no) (g : Instance → Instance) :
    AMap.get? (updInst s no g).prog.instances k = AMap.get? s.prog.instances k := by
  unfold updInst
  split
  · exact AMap.get?_insert_other _ _ _ _ (Ne.symm h)
  · rfl

/-- A program changed leaves everything but the programs. -/
theorem updInst_kept (s : State) (no : Nat) (g : Instance → Instance) :
    updInst s no g = { s with prog := { s.prog with instances := (updInst s no g).prog.instances } } := by
  unfold updInst
  split <;> rfl

@[simp] theorem updInst_fns (s : State) (no : Nat) (g : Instance → Instance) : (updInst s no g).fns = s.fns := by rw [updInst_kept]

/-! ### Energy counts (R464) -/

/-- A program with other energy counts. -/
def withMeters (m : AMap (Nat × Nat)) (i : Instance) : Instance := { i with meters := m }

/-- Only energy counts and the shuttles that issued last differ (R271, R464). -/
def countsOnly (s t : State) : Prop :=
  t = { s with
    draught := t.draught, prog := { s.prog with lastIssue := t.prog.lastIssue, instances := t.prog.instances } } ∧
  ∀ no, ∃ m, AMap.get? t.prog.instances no = (AMap.get? s.prog.instances no).map (withMeters m)

theorem countsOnly_of_instances {s t : State} (h : t.prog.instances = s.prog.instances)
    (hframe : t = { s with draught := t.draught, prog := { s.prog with lastIssue := t.prog.lastIssue } }) : countsOnly s t := by
  refine ⟨by rw [h]; exact hframe, fun no => ?_⟩
  rw [h]
  cases AMap.get? s.prog.instances no with
  | none => exact ⟨[], rfl⟩
  | some i => exact ⟨i.meters, rfl⟩

theorem countsOnly_refl (s : State) : countsOnly s s := countsOnly_of_instances rfl rfl

theorem countsOnly_trans {s t u : State} (h : countsOnly s t) (h' : countsOnly t u) : countsOnly s u := by
  obtain ⟨hframe, hinst⟩ := h
  obtain ⟨hframe', hinst'⟩ := h'
  refine ⟨by rw [hframe', hframe], fun no => ?_⟩
  obtain ⟨m, hm⟩ := hinst no
  obtain ⟨m', hm'⟩ := hinst' no
  refine ⟨m', ?_⟩
  rw [hm', hm, Option.map_map]
  rfl

theorem countsOnly_issued (s : State) (sh : Nat) : countsOnly s (issued s sh) := countsOnly_of_instances rfl rfl

theorem countsOnly_charge (s : State) (f pj : Nat) (scaled : Bool) : countsOnly s (charge s f pj scaled) :=
  countsOnly_of_instances rfl rfl

theorem countsOnly_updInst (s : State) (no : Nat) {g : Instance → Instance} (hg : ∀ i, ∃ m, g i = withMeters m i) :
    countsOnly s (updInst s no g) := by
  refine ⟨by rw [updInst_kept], fun k => ?_⟩
  by_cases hk : k = no
  · subst hk
    cases hi : AMap.get? s.prog.instances k with
    | none =>
      have hsame : updInst s k g = s := by simp only [updInst, hi]
      exact ⟨[], by rw [hsame, hi]; rfl⟩
    | some i =>
      obtain ⟨m, hm⟩ := hg i
      exact ⟨m, by rw [get?_updInst_same hi, hm]; rfl⟩
  · obtain ⟨-, hsame⟩ := countsOnly_refl s
    obtain ⟨m, hm⟩ := hsame k
    exact ⟨m, (get?_updInst_other s hk g).trans hm⟩

theorem countsOnly_meterTask (s t : State) (no task f : Nat) : countsOnly t (meterTask s t no task f) := by
  unfold meterTask
  split
  · exact countsOnly_refl t
  · refine countsOnly_updInst t no fun i => ?_
    split
    · exact ⟨_, rfl⟩
    · exact ⟨i.meters, rfl⟩

section
variable {s t : State} (h : countsOnly s t)
include h

theorem countsOnly_shuttles : t.prog.shuttles = s.prog.shuttles := by rw [h.1]

theorem countsOnly_knots : t.prog.knots = s.prog.knots := by rw [h.1]

theorem countsOnly_faults : t.prog.faults = s.prog.faults := by rw [h.1]

theorem countsOnly_fns : t.fns = s.fns := by rw [h.1]

theorem countsOnly_space : t.space = s.space := by rw [h.1]

theorem countsOnly_looms : t.looms = s.looms := by rw [h.1]

theorem countsOnly_reeds : t.reeds = s.reeds := by rw [h.1]

theorem countsOnly_sent : t.sent = s.sent := by rw [h.1]

theorem get?_of_countsOnly {no : Nat} {i : Instance} (hi : AMap.get? s.prog.instances no = some i) :
    ∃ m, AMap.get? t.prog.instances no = some (withMeters m i) := by
  obtain ⟨m, hm⟩ := h.2 no
  exact ⟨m, by rw [hm, hi]; rfl⟩

theorem countsOnly_noInstance {no : Nat} (hi : AMap.get? s.prog.instances no = none) : AMap.get? t.prog.instances no = none := by
  obtain ⟨m, hm⟩ := h.2 no
  rw [hm, hi]
  rfl

theorem metersOnly_of_countsOnly : metersOnly s t := by
  intro no j hj
  obtain ⟨m, hm⟩ := h.2 no
  rw [hj] at hm
  obtain ⟨i, hi, rfl⟩ := Option.map_eq_some_iff.1 hm.symm
  exact ⟨i, hi, rfl⟩

end

theorem metersOnly_trans {s t u : State} (h : metersOnly s t) (h' : metersOnly t u) : metersOnly s u := by
  intro no k hk
  obtain ⟨j, hj, hjk⟩ := h' no k hk
  obtain ⟨i, hi, hij⟩ := h no j hj
  exact ⟨i, hi, by rw [hjk, hij]⟩

theorem metersOnly_of_instances {s t : State} (h : t.prog.instances = s.prog.instances) : metersOnly s t :=
  fun no j hj => ⟨j, by rw [← h]; exact hj, rfl⟩

/-! ### The frame of an instruction -/

/-- A shuttle in its turn, with the line of its next word there (R271-R273). -/
def atWord (s : State) (c : ShCtx) : Prop :=
  shuttleOf s c.sh = c.x ∧ (c.x.state = .ready ∨ c.x.state = .waitMem) ∧ c.no = c.x.inst ∧
    AMap.get? s.prog.instances c.no = some c.i ∧ c.m = imageOf s c.i ∧ c.w = (imgWord c.m c.x.pc.toNat).toNat ∧
    c.x.pc.toNat < imgCodeLen c.m ∧ lineHere s c.i.image c.loom c.x.pc.toNat = true ∧ issueTurn s c.sh = true

theorem atInstruction_iff (o : ShOp) (s : State) (c : ShCtx) : atInstruction o s c ↔
    atWord s c ∧ shDecode c.w (c.i.features.getLsbD 17) = some o ∧ blocked c.x (postedWrites s c.sh) o c.w = false := by
  unfold atInstruction atWord
  tauto

/-- The state in which the issue of an instruction has been counted (R271, R464, R466). -/
def issueCounted (s : State) (c : ShCtx) : State := meterTask s (charge (issued s c.sh) c.i.fn 180 true) c.no c.x.task c.i.fn

theorem countsOnly_issueCounted (s : State) (c : ShCtx) : countsOnly s (issueCounted s c) :=
  countsOnly_trans (countsOnly_trans (countsOnly_issued s c.sh) (countsOnly_charge _ c.i.fn 180 true)) (countsOnly_meterTask _ _ _ _ _)

/-- What a row does with the word that is next: an illegal one is FAULT 1, one of another mnemonic is left to its own row (R283). -/
theorem withIns_atWord {s : State} {c : ShCtx} (h : atWord s c) (o : ShOp) (k : ShCtx → State → State) :
    withIns o c.sh s k = (shDecode c.w (c.i.features.getLsbD 17)).elim (.next (c.fault s 1)) (fun o' =>
      if o' != o then .next s
      else if blocked c.x (postedWrites s c.sh) o c.w then .next (c.wait s)
      else .next (meterTask (issueCounted s c) (k c (issueCounted s c)) c.no c.x.task c.i.fn)) := by
  obtain ⟨hx, hstate, hno, hi, hm, hw, hpc, hline, hturn⟩ := h
  obtain ⟨sh, x, no, i, m, w⟩ := c
  dsimp only at *
  subst hno hx hm hw
  have hready : ((shuttleOf s sh).state != .ready && (shuttleOf s sh).state != .waitMem || !issueTurn s sh) = false := by
    rcases hstate with hst | hst <;> simp [hst, hturn]
  have hline' : lineHere s i.image (sh / 128) (shuttleOf s sh).pc.toNat = true := hline
  simp only [withIns, hready, hi, Nat.not_le.2 hpc, ShCtx.loom, hline', Bool.false_eq_true, Bool.not_true, if_false]
  cases shDecode (imgWord (imageOf s i) (shuttleOf s sh).pc.toNat).toNat (i.features.getLsbD 17) <;> rfl

/-- An instruction that may issue does its work once its issue has been counted; its own energy is counted after it. -/
theorem withIns_runs {o : ShOp} {s : State} {c : ShCtx} (h : atInstruction o s c) (k : ShCtx → State → State) :
    ∃ u t, countsOnly s u ∧ countsOnly (k c u) t ∧ withIns o c.sh s k = .next t := by
  obtain ⟨hword, hdec, hfree⟩ := (atInstruction_iff o s c).1 h
  refine ⟨issueCounted s c, _, countsOnly_issueCounted s c, countsOnly_meterTask (issueCounted s c) _ c.no c.x.task c.i.fn, ?_⟩
  rw [withIns_atWord hword, hdec]
  simp only [Option.elim_some, hfree, bne_self_eq_false, Bool.false_eq_true, if_false]

/-- Its shuttle has gone to a code offset, with the shuttles otherwise those of a state. -/
theorem shuttleAt_goto {s u t : State} {c : ShCtx} {y : Shuttle} {pc : Nat} (hu : u.prog.shuttles = s.prog.shuttles)
    (ht : t.prog.shuttles = (c.goto u y pc).prog.shuttles) : shuttleAt s t c y (BitVec.ofNat 32 pc) := by
  refine ⟨⟨_, ?_, (shuttleOf_of_shuttles ht c.sh).trans (shuttleOf_putShuttle_same u c.sh _)⟩, fun h hne => ?_⟩
  · split
    · exact .inl rfl
    · exact .inr rfl
  · rw [shuttleOf_of_shuttles ht, ShCtx.goto, shuttleOf_putShuttle_other u _ hne, shuttleOf_of_shuttles hu]

theorem shuttleOnly_goto {s u t : State} {c : ShCtx} {y : Shuttle} {pc : Nat} (hu : countsOnly s u)
    (ht : countsOnly (c.goto u y pc) t) : shuttleOnly s t c y (BitVec.ofNat 32 pc) := by
  have hknots : (c.goto u y pc).prog.knots = s.prog.knots := (countsOnly_knots hu :)
  have hmeters : metersOnly u (c.goto u y pc) := metersOnly_of_instances rfl
  refine ⟨shuttleAt_goto (countsOnly_shuttles hu) (countsOnly_shuttles ht), ?_, (countsOnly_knots ht).trans hknots,
    metersOnly_trans (metersOnly_of_countsOnly hu) (metersOnly_trans hmeters (metersOnly_of_countsOnly ht))⟩
  rw [ht.1, hu.1]
  rfl

/-- The code offset of the next instruction in order, as the program counter holds it. -/
theorem ofNat_pc_add_four (pc : BitVec 32) : BitVec.ofNat 32 (pc.toNat + 4) = pc + 4 := by
  rw [BitVec.ofNat_add, BitVec.ofNat_toNat, BitVec.setWidth_eq]
  rfl

/-- An instruction whose whole effect is on its shuttle, which goes on to the next in order. -/
theorem withIns_steps {o : ShOp} {s : State} {c : ShCtx} (h : atInstruction o s c) {k : ShCtx → State → State} {y : Shuttle}
    (hk : ∀ u, countsOnly s u → k c u = c.step u y) :
    ∃ t, withIns o c.sh s k = .next t ∧ shuttleOnly s t c y (c.x.pc + 4) := by
  obtain ⟨u, t, hu, ht, hexec⟩ := withIns_runs h k
  rw [hk u hu] at ht
  refine ⟨t, hexec, ?_⟩
  rw [← ofNat_pc_add_four]
  exact shuttleOnly_goto hu ht

/-- An instruction whose whole effect is on its shuttle, which goes to a code offset. -/
theorem withIns_goes {o : ShOp} {s : State} {c : ShCtx} (h : atInstruction o s c) {k : ShCtx → State → State} {y : Shuttle} {pc : Nat}
    (hk : ∀ u, k c u = c.goto u y pc) : ∃ t, withIns o c.sh s k = .next t ∧ shuttleOnly s t c y (BitVec.ofNat 32 pc) := by
  obtain ⟨u, t, hu, ht, hexec⟩ := withIns_runs h k
  rw [hk u] at ht
  exact ⟨t, hexec, shuttleOnly_goto hu ht⟩

end Sys2Proof.Laws
end

section
/-! PROOFS. O32: instructions whose whole effect is one general register (R275, R280, R281, R290). -/

namespace Sys2Proof.Laws
open Sys2Proof Sys2Proof.Machine Sys2Proof.Safety

/-- A row that writes a value computed from its instruction's frame into gd. -/
theorem row_puts {i : Instr} {o : ShOp} {v : ShCtx → BitVec 64} {s : State} {c : ShCtx}
    (hrow : exec i s = withIns o c.sh s (fun c s => c.put s (v c))) (h : atInstruction o s c) :
    ∃ t, exec i s = .next t ∧ shuttleOnly s t c (c.x.setReg (fRd c.w) (v c)) (c.x.pc + 4) := by
  rw [hrow]
  exact withIns_steps h fun _ _ => rfl

/-! ### What an instruction reads of the node -/

theorem specialReg_of_countsOnly {s u : State} (h : countsOnly s u) (c : ShCtx) (n : Nat) : specialReg u c n = specialReg s c n := by
  rw [h.1]
  rfl

/-- A special register is read as it was before the instruction (R275). -/
theorem gets_reads (s : State) (c : ShCtx) (h : atInstruction .gets s c) : ∃ t, exec (.gets c.sh) s = .next t ∧
    shuttleOnly s t c (c.x.setReg (fRd c.w) (specialReg s c (fImm c.w))) (c.x.pc + 4) := by
  simp only [exec]
  exact withIns_steps h fun u hu => congrArg (c.put u) (specialReg_of_countsOnly hu c _)

/-- What KTEST reads: the counter of a knot of the function, 0 for any other (R129, R290). -/
def knotCount (s : State) (c : ShCtx) : BitVec 64 :=
  ((knotOf s (c.ga.toNat % 65536)).filter (fun x => x.fn == c.i.fn)).elim 0 (fun x => x.counter.setWidth 64)

theorem knotOf_of_knots {s u : State} (h : u.prog.knots = s.prog.knots) (k : Nat) : knotOf u k = knotOf s k := by
  rw [knotOf, h, knotOf]

theorem knotCount_of_countsOnly {s u : State} (h : countsOnly s u) (c : ShCtx) : knotCount u c = knotCount s c := by
  rw [knotCount, knotOf_of_knots (countsOnly_knots h), knotCount]

theorem ktest_reads (s : State) (c : ShCtx) (h : atInstruction .ktest s c) : ∃ t, exec (.ktest c.sh) s = .next t ∧
    shuttleOnly s t c (c.x.setReg (fRd c.w) (knotCount s c)) (c.x.pc + 4) := by
  simp only [exec]
  exact withIns_steps h fun u hu => congrArg (c.put u) (knotCount_of_countsOnly hu c)

/-! ### Results -/

theorem signed_14_bounds (v : Nat) : -8192 ≤ signed 14 v ∧ signed 14 v < 8192 := by
  have hlt : v % 2 ^ 14 < 2 ^ 14 := Nat.mod_lt _ (by decide)
  unfold signed
  dsimp only
  split <;> omega

theorem imm_toInt (c : ShCtx) : c.imm.toInt = fImmS c.w := by
  obtain ⟨hlow, hhigh⟩ := signed_14_bounds (fImm c.w)
  rw [ShCtx.imm, BitVec.toInt_ofInt]
  exact Int.bmod_eq_of_le (by rw [fImmS]; omega) (by rw [fImmS]; omega)

/-- SLTI compares signed, with the value of its immediate (R280). -/
theorem slti_compares (s : State) (c : ShCtx) (h : atInstruction .slti s c) : ∃ t, exec (.slti c.sh) s = .next t ∧
    shuttleOnly s t c (c.x.setReg (fRd c.w) (if c.ga.toInt < fImmS c.w then 1 else 0)) (c.x.pc + 4) := by
  have hvalue : b64 (slt64 c.ga c.imm) = if c.ga.toInt < fImmS c.w then 1 else 0 := by simp [b64, slt64, imm_toInt]
  rw [← hvalue]
  exact row_puts (v := fun c => b64 (slt64 c.ga c.imm)) rfl h

/-- Division by zero and signed overflow (R281). -/
theorem aluResult_corners (a : BitVec 64) : aluResult 10 a 0 = BitVec.allOnes 64 ∧ aluResult 11 a 0 = a ∧
    aluResult 12 a 0 = BitVec.allOnes 64 ∧ aluResult 13 a 0 = a ∧ aluResult 12 (BitVec.intMin 64) (-1) = BitVec.intMin 64 ∧
    aluResult 13 (BitVec.intMin 64) (-1) = 0 :=
  ⟨by simp [aluResult], by simp [aluResult], by simp [aluResult, div64], by simp [aluResult, rem64], by decide, by decide⟩

/-- Settles O32, instruction by instruction. -/
theorem registerInstructions : Obligations.RegisterInstructions :=
  ⟨fun _ _ => row_puts (v := fun c => aluResult (fFn c.w) c.ga c.gb) rfl,
    fun _ _ => row_puts (v := fun c => fpuResult (fFn c.w) c.ga c.gb) rfl,
    fun _ _ => row_puts (v := fun c => c.ga + c.imm) rfl,
    fun _ _ => row_puts (v := fun c => c.ga &&& BitVec.ofNat 64 (fImm c.w)) rfl,
    fun _ _ => row_puts (v := fun c => c.ga ||| BitVec.ofNat 64 (fImm c.w)) rfl,
    fun _ _ => row_puts (v := fun c => c.ga ^^^ BitVec.ofNat 64 (fImm c.w)) rfl,
    fun _ _ => row_puts (v := fun c => shiResult c.w c.ga) rfl,
    slti_compares,
    fun _ _ => row_puts (v := fun c => BitVec.ofInt 64 (signed 20 c.w * 2 ^ 14)) rfl,
    gets_reads, ktest_reads,
    fun x v r => ⟨by rw [setReg_zero], reg_zero x, fun hr => reg_setReg_same x hr v⟩, aluResult_corners⟩

end Sys2Proof.Laws
end

section
/-! PROOFS. O33: branches, jumps, FENCE and lane operations (R280, R282, R283, R286, R288). -/

namespace Sys2Proof.Laws
open Sys2Proof Sys2Proof.Machine Sys2Proof.Safety

/-- A target that is a multiple of 4 within the code section is reached (R283). -/
theorem jump_within {c : ShCtx} {target : Int} {pc : Nat} (ht : (pc : Int) = target) (halign : pc % 4 = 0) (hlen : pc < imgCodeLen c.m)
    (s : State) (y : Shuttle) : c.jump s y target = c.goto s y pc := by
  have hin : ¬(((pc : Int) < 0 || (pc : Int) % 4 ≠ 0 || (imgCodeLen c.m : Int) ≤ pc) = true) := by
    simp only [Bool.or_eq_true, decide_eq_true_eq]
    omega
  rw [← ht, ShCtx.jump, if_neg hin, Int.toNat_natCast]

/-! ### Branches -/

/-- The row and the mnemonic of a branch on a shuttle. -/
def branchRow (i : Instr) (o : ShOp) (sh : Nat) : Prop :=
  (i = .beq sh ∧ o = .beq) ∨ (i = .bne sh ∧ o = .bne) ∨ (i = .blt sh ∧ o = .blt) ∨ (i = .bge sh ∧ o = .bge) ∨
    (i = .bltu sh ∧ o = .bltu) ∨ (i = .bgeu sh ∧ o = .bgeu)

theorem exec_branch {i : Instr} {o : ShOp} {sh : Nat} (h : branchRow i o sh) (s : State) :
    exec i s = withIns o sh s (fun c s => c.branch s o) := by
  rcases h with ⟨rfl, rfl⟩ | ⟨rfl, rfl⟩ | ⟨rfl, rfl⟩ | ⟨rfl, rfl⟩ | ⟨rfl, rfl⟩ | ⟨rfl, rfl⟩ <;> rfl

theorem branch_not_taken {c : ShCtx} {o : ShOp} (h : branchTaken o c.gd c.ga = false) (s : State) : c.branch s o = c.step s c.x := by
  rw [ShCtx.branch, if_neg (by simp [h])]

theorem branch_taken {c : ShCtx} {o : ShOp} (h : branchTaken o c.gd c.ga = true) (s : State) :
    c.branch s o = c.jump s c.x (c.x.pc.toNat + 4 * fImmS c.w) := by
  rw [ShCtx.branch, if_pos h]

/-- A branch goes on, or to its target within the code section. -/
theorem branch_goes (i : Instr) (o : ShOp) (s : State) (c : ShCtx) (hrow : branchRow i o c.sh) (h : atInstruction o s c) :
    (branchTaken o c.gd c.ga = false → ∃ t, exec i s = .next t ∧ shuttleOnly s t c c.x (c.x.pc + 4)) ∧
    (∀ pc : Nat, branchTaken o c.gd c.ga = true → (pc : Int) = c.x.pc.toNat + 4 * fImmS c.w → pc % 4 = 0 → pc < imgCodeLen c.m →
      ∃ t, exec i s = .next t ∧ shuttleOnly s t c c.x (BitVec.ofNat 32 pc)) := by
  rw [exec_branch hrow]
  refine ⟨fun hno => withIns_steps h fun u _ => branch_not_taken hno u, fun pc hyes ht halign hlen => withIns_goes h fun u => ?_⟩
  exact (branch_taken hyes u).trans (jump_within ht halign hlen u c.x)

/-- The conditions of the six branches (R280). -/
theorem branchTaken_iff (a b : BitVec 64) : (branchTaken .beq a b = true ↔ a = b) ∧ (branchTaken .bne a b = true ↔ a ≠ b) ∧
    (branchTaken .blt a b = true ↔ a.toInt < b.toInt) ∧ (branchTaken .bge a b = true ↔ b.toInt ≤ a.toInt) ∧
    (branchTaken .bltu a b = true ↔ a.toNat < b.toNat) ∧ (branchTaken .bgeu a b = true ↔ b.toNat ≤ a.toNat) :=
  ⟨beq_iff_eq, bne_iff_ne, decide_eq_true_iff, by simp [branchTaken, slt64], decide_eq_true_iff, decide_eq_true_iff⟩

/-! ### Jumps -/

theorem jal_goes (pc : Nat) (s : State) (c : ShCtx) (h : atInstruction .jal s c) (ht : (pc : Int) = c.x.pc.toNat + 4 * signed 26 c.w)
    (halign : pc % 4 = 0) (hlen : pc < imgCodeLen c.m) : ∃ t, exec (.jal c.sh) s = .next t ∧
      shuttleOnly s t c (c.x.setReg 63 (BitVec.ofNat 64 (c.x.pc.toNat + 4))) (BitVec.ofNat 32 pc) := by
  simp only [exec]
  exact withIns_goes h fun u => jump_within ht halign hlen u _

theorem jalr_goes (s : State) (c : ShCtx) (h : atInstruction .jalr s c) (halign : c.addr % 4 = 0) (hlen : c.addr < imgCodeLen c.m) :
    ∃ t, exec (.jalr c.sh) s = .next t ∧
      shuttleOnly s t c (c.x.setReg (fRd c.w) (BitVec.ofNat 64 (c.x.pc.toNat + 4))) (BitVec.ofNat 32 c.addr) := by
  simp only [exec]
  exact withIns_goes h fun u => jump_within rfl halign hlen u _

/-! ### FENCE and VOP -/

/-- A FENCE that may issue has nothing outstanding (R288). -/
theorem fence_free {x : Shuttle} {posted w : Nat} (h : blocked x posted .fence w = false) : x.pending = [] := by
  unfold blocked at h
  simp only [Bool.or_eq_false_iff] at h
  obtain ⟨⟨hfence, -⟩, -⟩ := h
  exact List.isEmpty_iff.1 (by simpa using (Bool.or_eq_false_iff.1 hfence).1)

theorem fence_goes (s : State) (c : ShCtx) (h : atInstruction .fence s c) :
    c.x.pending = [] ∧ ∃ t, exec (.fence c.sh) s = .next t ∧ shuttleOnly s t c c.x (c.x.pc + 4) := by
  obtain ⟨-, -, hfree⟩ := (atInstruction_iff _ s c).1 h
  refine ⟨fence_free hfree, ?_⟩
  simp only [exec]
  exact withIns_steps h fun _ _ => rfl

theorem vop_goes (s : State) (c : ShCtx) (h : atInstruction .vop s c) : ∃ t, exec (.vop c.sh) s = .next t ∧
    shuttleOnly s t c (c.x.setVec (fVd c.w) (vopResult (fElt c.w) (fVfn c.w) c.va c.vb c.vd c.gb)) (c.x.pc + 4) := by
  simp only [exec]
  exact withIns_steps h fun _ _ => rfl

/-- Settles O33, instruction by instruction. -/
theorem controlInstructions : Obligations.ControlInstructions :=
  ⟨branch_goes, branchTaken_iff, jal_goes, jalr_goes, fence_goes, vop_goes⟩

end Sys2Proof.Laws
end

section
/-! PROOFS. O38: accesses of shuttles to unassigned addresses, which take zero, write nothing and count one violation in each step of
the program (R277). -/

namespace Sys2Proof.Laws
open Sys2Proof Sys2Proof.Machine Sys2Proof.Safety

/-! ### The violation of a step -/

theorem progViolate_kept (s : State) (no : Nat) : progViolate s no =
    { s with fns := (progViolate s no).fns, prog := { s.prog with instances := (progViolate s no).prog.instances } } := by
  unfold progViolate
  split
  · split
    · rfl
    · rw [updInst_kept]
      rfl
  · rfl

@[simp] theorem progViolate_space (s : State) (no : Nat) : (progViolate s no).space = s.space := by rw [progViolate_kept]

@[simp] theorem progViolate_looms (s : State) (no : Nat) : (progViolate s no).looms = s.looms := by rw [progViolate_kept]

@[simp] theorem progViolate_shuttles (s : State) (no : Nat) : (progViolate s no).prog.shuttles = s.prog.shuttles := by
  rw [progViolate_kept]

theorem progViolate_of_violated {s : State} {no : Nat} {i : Instance} (hi : AMap.get? s.prog.instances no = some i)
    (hv : i.violated = true) : progViolate s no = s := by
  simp only [progViolate, hi, hv, if_pos]

theorem progViolate_of_first {s : State} {no : Nat} {i : Instance} (hi : AMap.get? s.prog.instances no = some i)
    (hv : i.violated = false) : progViolate s no = updInst (violate s i.fn 1) no (fun i => { i with violated := true }) := by
  simp only [progViolate, hi, hv, Bool.false_eq_true, if_false]

theorem violate_fns {s u : State} (h : u.fns = s.fns) (f n : Nat) : (violate u f n).fns = (violate s f n).fns := by
  unfold violate updFn setFn fnOf
  rw [h]

/-- What a violation counts does not depend on energy counts. -/
theorem progViolate_fns_of_countsOnly {s u : State} (h : countsOnly s u) (no : Nat) :
    (progViolate u no).fns = (progViolate s no).fns := by
  cases hi : AMap.get? s.prog.instances no with
  | none =>
    simp only [progViolate, hi, countsOnly_noInstance h hi]
    exact countsOnly_fns h
  | some i =>
    obtain ⟨m, hm⟩ := get?_of_countsOnly h hi
    cases hv : i.violated with
    | true =>
      rw [progViolate_of_violated hi hv, progViolate_of_violated hm hv]
      exact countsOnly_fns h
    | false =>
      rw [progViolate_of_first hi hv, progViolate_of_first hm hv, updInst_fns, updInst_fns]
      exact violate_fns (countsOnly_fns h) i.fn 1

/-! ### Unassigned addresses -/

/-- Whether `n` bytes from a shuttle's address are unassigned: beside both spaces, in no object's range, or outside the program's
region of the weave store (R276, R277). -/
def unassignedAt (s : State) (i : Instance) (loom a n : Nat) : Prop :=
  shAddr a = .none ∨ (∃ b, shAddr a = .space b ∧ progPlace s i.fn b = none) ∨ ∃ w, shAddr a = .weave w ∧ inRegion i loom w n = false

theorem unassignedAt_of_space {s u : State} (h : u.space = s.space) {i : Instance} {loom a n : Nat} (ha : unassignedAt s i loom a n) :
    unassignedAt u i loom a n := by
  have hplace (f b : Nat) : progPlace u f b = progPlace s f b := by simp only [progPlace, resolve, h]
  simpa only [unassignedAt, hplace] using ha

theorem resolve_of_noPlace {s : State} {f a : Nat} (h : progPlace s f a = none) : resolve s f a = .unassigned := by
  unfold progPlace at h
  dsimp only at h
  split at h
  · cases h
  · split at h
    · assumption
    · cases h

section
variable {s : State} {i : Instance} {loom a n : Nat} (h : unassignedAt s i loom a n)
include h

theorem progBad_unassigned (m : Bad) : progBad m s i a n = false := by
  rcases h with ha | ⟨b, ha, hb⟩ | ⟨w, ha, -⟩
  · simp only [progBad, ha]
  · simp only [progBad, ha, hb]
  · simp only [progBad, ha]

theorem shHeld_unassigned : shHeld s i a = none := by
  rcases h with ha | ⟨b, ha, hb⟩ | ⟨w, ha, -⟩
  · simp only [shHeld, shPlace, ha, Option.bind_none]
  · simp only [shHeld, shPlace, ha, hb, Option.bind_none]
  · simp only [shHeld, shPlace, ha, Option.bind_none]

theorem progRead_unassigned : progRead s i loom a n = (List.replicate n 0#8, true) := by
  rcases h with ha | ⟨b, ha, hb⟩ | ⟨w, ha, hw⟩
  · simp only [progRead, ha]
  · simp only [progRead, ha, hb]
  · simp only [progRead, ha, hw, Bool.false_eq_true, if_false]

theorem progWrite_unassigned (no : Nat) {bs : List Byte} (hbs : bs.length = n) : progWrite s no i loom a bs = progViolate s no := by
  rcases h with ha | ⟨b, ha, hb⟩ | ⟨w, ha, hw⟩
  · simp only [progWrite, ha]
  · simp only [progWrite, ha, resolve_of_noPlace hb]
  · simp only [progWrite, ha, hbs, hw, Bool.false_eq_true, if_false]

end

theorem leNat_replicate_zero (n : Nat) : leNat (List.replicate n 0#8) = 0 := by
  induction n with
  | zero => rfl
  | succ n ih => simp [List.replicate_succ, leNat, ih]

theorem signed_zero (w : Nat) : signed w 0 = 0 := by simp [signed]

theorem loadValue_zeros (extend : Bool) (n : Nat) : loadValue extend (List.replicate n 0#8) = 0 := by
  cases extend <;> simp [loadValue, leNat_replicate_zero, signed_zero]

/-! ### What the accesses do there -/

/-- An operand that brings zero. -/
def zeroOperand (vector : Bool) (reg a : Nat) (pc : BitVec 32) : Operand :=
  { vector := vector, reg := reg, value := 0, addr := a, pc := pc }

/-- The shuttle of an instruction with an operand on its way. -/
def withOperand (x : Shuttle) (p : Operand) : Shuttle := { x with pending := x.pending ++ [p] }

theorem load_unassigned {s : State} {c : ShCtx} {n : Nat} (h : unassignedAt s c.i c.loom c.addr n) (halign : c.addr % n = 0)
    (hroom : c.x.pending.length < 8) (reg : Nat) (vector extend : Bool) :
    c.load s n reg vector extend = c.step (chargeAccess (progViolate s c.no) c c.addr n)
      (withOperand c.x (zeroOperand vector reg c.addr c.x.pc)) := by
  have hno := unassignedAt_of_space (progViolate_space s c.no) h
  have hfree : ¬8 ≤ c.x.pending.length := by omega
  simp only [ShCtx.load, halign, ne_eq, not_true, if_false, hfree, progBad_unassigned h, Bool.false_eq_true, shHeld_unassigned h,
    progRead_unassigned h, if_true, loadValue_zeros]
  rcases hno with ha | ⟨b, ha, hb⟩ | ⟨w, ha, -⟩
  · simp only [ha]; rfl
  · simp only [ha, hb]; rfl
  · simp only [ha]; rfl

theorem chargeAccess_kept (s : State) (c : ShCtx) (a n : Nat) : chargeAccess s c a n =
    { s with draught := (chargeAccess s c a n).draught } := by
  unfold chargeAccess
  split <;> rfl

theorem countsOnly_chargeAccess (s : State) (c : ShCtx) (a n : Nat) : countsOnly s (chargeAccess s c a n) := by
  rw [chargeAccess_kept]
  exact countsOnly_of_instances rfl rfl

theorem store_unassigned {s : State} {c : ShCtx} {n : Nat} (h : unassignedAt s c.i c.loom c.addr n) (halign : c.addr % n = 0) (v : Nat) :
    c.store s n v = c.step (progViolate (chargeAccess s c c.addr n) c.no) c.x := by
  have hspace := countsOnly_space (countsOnly_chargeAccess s c c.addr n)
  simp only [ShCtx.store, halign, ne_eq, not_true, if_false, shHeld_unassigned h,
    progWrite_unassigned (unassignedAt_of_space hspace h) c.no (toLE_length n v)]

theorem atomic_unassigned {s : State} {c : ShCtx} (h : unassignedAt s c.i c.loom c.ga.toNat 8) (halign : c.ga.toNat % 8 = 0)
    (hroom : c.x.pending.length < 8) :
    c.atomic s = c.step (progViolate s c.no) (withOperand c.x (zeroOperand false (fRd c.w) c.ga.toNat c.x.pc)) := by
  have hfree : ¬8 ≤ c.x.pending.length := by omega
  have hat : atomicAt s c c.ga.toNat = .discard (progViolate s c.no) := by
    rcases h with ha | ⟨b, ha, hb⟩ | ⟨w, ha, hw⟩
    · simp only [atomicAt, ha]
    · simp only [atomicAt, ha, resolve_of_noPlace hb]
    · simp only [atomicAt, ha, hw, Bool.false_eq_true, if_false]
  simp only [ShCtx.atomic, halign, ne_eq, not_true, if_false, hfree, progRead_unassigned h, leNat_replicate_zero, hat,
    BitVec.setWidth_zero]
  rfl

/-- A shuttle has gone on, memory stands, and a violation has been counted where its program's step had none. -/
def violatesOnly (s t : State) (c : ShCtx) (y : Shuttle) : Prop :=
  shuttleAt s t c y (c.x.pc + 4) ∧ t.space = s.space ∧ t.looms = s.looms ∧ t.fns = (progViolate s c.no).fns

theorem violatesOnly_step {s u v t : State} {c : ShCtx} {y : Shuttle} (hu : countsOnly s u) (hv : countsOnly (progViolate u c.no) v)
    (ht : countsOnly (c.step v y) t) : violatesOnly s t c y := by
  have hshuttles : v.prog.shuttles = s.prog.shuttles :=
    (countsOnly_shuttles hv).trans ((progViolate_shuttles u c.no).trans (countsOnly_shuttles hu))
  have hspace : (c.step v y).space = s.space := (countsOnly_space hv).trans ((progViolate_space u c.no).trans (countsOnly_space hu))
  have hlooms : (c.step v y).looms = s.looms := (countsOnly_looms hv).trans ((progViolate_looms u c.no).trans (countsOnly_looms hu))
  have hfns : (c.step v y).fns = (progViolate s c.no).fns := (countsOnly_fns hv).trans (progViolate_fns_of_countsOnly hu c.no)
  refine ⟨?_, (countsOnly_space ht).trans hspace, (countsOnly_looms ht).trans hlooms, (countsOnly_fns ht).trans hfns⟩
  rw [← ofNat_pc_add_four]
  exact shuttleAt_goto hshuttles (countsOnly_shuttles ht)

/-! ### The rows -/

/-- The row, the mnemonic and the bytes of a load on a shuttle. -/
def loadRow (i : Instr) (o : ShOp) (n sh : Nat) : Prop :=
  (i = .ld1 sh ∧ o = .ld1 ∧ n = 1) ∨ (i = .ld2 sh ∧ o = .ld2 ∧ n = 2) ∨ (i = .ld4 sh ∧ o = .ld4 ∧ n = 4) ∨
    (i = .ld8 sh ∧ o = .ld8 ∧ n = 8) ∨ (i = .lds1 sh ∧ o = .lds1 ∧ n = 1) ∨ (i = .lds2 sh ∧ o = .lds2 ∧ n = 2) ∨
    (i = .lds4 sh ∧ o = .lds4 ∧ n = 4) ∨ (i = .vld sh ∧ o = .vld ∧ n = 64)

theorem exec_load {i : Instr} {o : ShOp} {n sh : Nat} (h : loadRow i o n sh) (s : State) :
    ∃ (reg : ShCtx → Nat) (vector extend : Bool), exec i s = withIns o sh s (fun c s => c.load s n (reg c) vector extend) := by
  rcases h with ⟨rfl, rfl, rfl⟩ | ⟨rfl, rfl, rfl⟩ | ⟨rfl, rfl, rfl⟩ | ⟨rfl, rfl, rfl⟩ | ⟨rfl, rfl, rfl⟩ | ⟨rfl, rfl, rfl⟩ |
    ⟨rfl, rfl, rfl⟩ | ⟨rfl, rfl, rfl⟩
  · exact ⟨fun c => fRd c.w, false, false, rfl⟩
  · exact ⟨fun c => fRd c.w, false, false, rfl⟩
  · exact ⟨fun c => fRd c.w, false, false, rfl⟩
  · exact ⟨fun c => fRd c.w, false, false, rfl⟩
  · exact ⟨fun c => fRd c.w, false, true, rfl⟩
  · exact ⟨fun c => fRd c.w, false, true, rfl⟩
  · exact ⟨fun c => fRd c.w, false, true, rfl⟩
  · exact ⟨fun c => fVd c.w, true, false, rfl⟩

/-- The row, the mnemonic and the bytes of a store on a shuttle. -/
def storeRow (i : Instr) (o : ShOp) (n sh : Nat) : Prop :=
  (i = .st1 sh ∧ o = .st1 ∧ n = 1) ∨ (i = .st2 sh ∧ o = .st2 ∧ n = 2) ∨ (i = .st4 sh ∧ o = .st4 ∧ n = 4) ∨
    (i = .st8 sh ∧ o = .st8 ∧ n = 8) ∨ (i = .vst sh ∧ o = .vst ∧ n = 64)

theorem exec_store {i : Instr} {o : ShOp} {n sh : Nat} (h : storeRow i o n sh) (s : State) :
    ∃ v : ShCtx → Nat, exec i s = withIns o sh s (fun c s => c.store s n (v c)) := by
  rcases h with ⟨rfl, rfl, rfl⟩ | ⟨rfl, rfl, rfl⟩ | ⟨rfl, rfl, rfl⟩ | ⟨rfl, rfl, rfl⟩ | ⟨rfl, rfl, rfl⟩
  · exact ⟨fun c => c.gd.toNat, rfl⟩
  · exact ⟨fun c => c.gd.toNat, rfl⟩
  · exact ⟨fun c => c.gd.toNat, rfl⟩
  · exact ⟨fun c => c.gd.toNat, rfl⟩
  · exact ⟨fun c => c.vd.toNat, rfl⟩

theorem load_takes_zero (i : Instr) (o : ShOp) (n : Nat) (s : State) (c : ShCtx) (hrow : loadRow i o n c.sh) (h : atInstruction o s c)
    (halign : c.addr % n = 0) (hroom : c.x.pending.length < 8) (ha : unassignedAt s c.i c.loom c.addr n) :
    ∃ t p, exec i s = .next t ∧ p.value = 0 ∧ violatesOnly s t c (withOperand c.x p) := by
  obtain ⟨reg, vector, extend, hexec⟩ := exec_load hrow s
  obtain ⟨u, t, hu, ht, hrun⟩ := withIns_runs h (fun c s => c.load s n (reg c) vector extend)
  rw [load_unassigned (unassignedAt_of_space (countsOnly_space hu) ha) halign hroom] at ht
  exact ⟨t, _, hexec.trans hrun, rfl, violatesOnly_step hu (countsOnly_chargeAccess _ c _ _) ht⟩

theorem store_discarded (i : Instr) (o : ShOp) (n : Nat) (s : State) (c : ShCtx) (hrow : storeRow i o n c.sh) (h : atInstruction o s c)
    (halign : c.addr % n = 0) (ha : unassignedAt s c.i c.loom c.addr n) : ∃ t, exec i s = .next t ∧ violatesOnly s t c c.x := by
  obtain ⟨v, hexec⟩ := exec_store hrow s
  obtain ⟨u, t, hu, ht, hrun⟩ := withIns_runs h (fun c s => c.store s n (v c))
  have hcharged := countsOnly_trans hu (countsOnly_chargeAccess u c c.addr n)
  rw [store_unassigned (unassignedAt_of_space (countsOnly_space hu) ha) halign] at ht
  exact ⟨t, hexec.trans hrun, violatesOnly_step hcharged (countsOnly_refl _) ht⟩

theorem amo_takes_zero (s : State) (c : ShCtx) (h : atInstruction .amo s c) (halign : c.ga.toNat % 8 = 0)
    (hroom : c.x.pending.length < 8) (ha : unassignedAt s c.i c.loom c.ga.toNat 8) :
    ∃ t p, exec (.amo c.sh) s = .next t ∧ p.value = 0 ∧ violatesOnly s t c (withOperand c.x p) := by
  obtain ⟨u, t, hu, ht, hrun⟩ := withIns_runs h (fun c s => c.atomic s)
  rw [atomic_unassigned (unassignedAt_of_space (countsOnly_space hu) ha) halign hroom] at ht
  exact ⟨t, _, hrun, rfl, violatesOnly_step hu (countsOnly_refl _) ht⟩

/-! ### One violation in each step -/

theorem progViolate_counts {s : State} {no : Nat} {i : Instance} (hi : AMap.get? s.prog.instances no = some i) (hv : i.violated = false)
    (hflr : (fnOf s i.fn).flr = false) :
    (fnOf (progViolate s no) i.fn).violations = satAdd (fnOf s i.fn).violations 1 ∧
      ∃ j, AMap.get? (progViolate s no).prog.instances no = some j ∧ j.violated = true := by
  have hinst : AMap.get? (violate s i.fn 1).prog.instances no = some i := hi
  rw [progViolate_of_first hi hv]
  refine ⟨?_, _, get?_updInst_same hinst _, rfl⟩
  rw [updInst_kept]
  exact congrArg FnState.violations (violate_spec s i.fn 1 hflr)

/-- A program at the beginning of its next step (R302). -/
def stepBegun (s : State) (i : Instance) : Instance := { i with step := i.step + 1, violated := false, slots := repin s i.slots }

theorem boundaryWith_goes_on {arr : State → Nat → State} {s : State} {no : Nat} {i : Instance}
    (h : AMap.get? (freeAll (updInst s no (stepBegun s))).prog.instances no = some i) (hstop : i.stopping = false) :
    boundaryWith arr s no = freeAll (updInst s no (stepBegun s)) := by
  unfold boundaryWith
  dsimp only
  split
  · next j hj =>
    obtain rfl := Option.some.inj (h.symm.trans hj)
    exact if_neg (by simp [hstop])
  · next hnone => exact absurd (h.symm.trans hnone) (by simp)

/-- The next step of a program begins without a violation. -/
theorem boundary_begins {s : State} {no : Nat} {i : Instance} (hi : AMap.get? s.prog.instances no = some i) (hstop : i.stopping = false) :
    ∃ j, AMap.get? (boundary s no).prog.instances no = some j ∧ j.violated = false ∧ j.step = i.step + 1 := by
  have hj : AMap.get? (freeAll (updInst s no (stepBegun s))).prog.instances no = some (stepBegun s i) := by
    obtain ⟨space, flash, hfree⟩ := freeAll_changes (updInst s no (stepBegun s))
    rw [hfree]
    exact get?_updInst_same hi _
  refine ⟨stepBegun s i, ?_, rfl, rfl⟩
  rw [boundary, boundaryWith_goes_on hj hstop]
  exact hj

/-- Settles O38, access by access. -/
theorem unassignedAccessesDoNotFault : Obligations.UnassignedAccessesDoNotFault :=
  ⟨load_takes_zero, store_discarded, amo_takes_zero,
    fun _ _ _ hi => ⟨progViolate_counts hi, progViolate_of_violated hi, boundary_begins hi⟩⟩

end Sys2Proof.Laws
end

section
/-! PROOFS. The end of a program (R303): nothing leaves the node, no fault is counted beside its own, and no shuttle appears,
whatever chain of arrivals and step boundaries it sets off. -/

namespace Sys2Proof.Laws
open Sys2Proof Sys2Proof.Machine Sys2Proof.Safety

/-! ### Writes into objects leave nothing on the way out -/

@[simp] theorem updObj_sent (s : State) (oid : Nat) (g : Obj → Obj) : (updObj s oid g).sent = s.sent := by
  obtain ⟨space, h⟩ := updObj_changes s oid g
  rw [h]

@[simp] theorem updFrame_sent (s : State) (oid ver g : Nat) (k : Frame → Frame) : (updFrame s oid ver g k).sent = s.sent :=
  updObj_sent s oid _

@[simp] theorem dropCached_sent (s : State) (c : Nat) : (dropCached s c).sent = s.sent := by
  unfold dropCached
  split
  · rfl
  · split
    · rfl
    · exact updObj_sent s _ _

@[simp] theorem putBytes_sent (s : State) (oid off : Nat) (bs : List Byte) : (putBytes s oid off bs).sent = s.sent := by
  unfold putBytes touchRange
  split <;> exact updObj_sent s oid _

@[simp] theorem readRest_sent (s : State) (oid : Nat) (fr : Frame) (at' n : Nat) : (readRest s oid fr at' n).sent = s.sent := by
  unfold readRest
  split <;> rfl

theorem rewrite_sent {s t : State} {oid g at' n : Nat} {cid : Option Nat} (h : rewrite s oid g at' n cid = some t) :
    t.sent = s.sent := by
  unfold rewrite at h
  split at h
  · cases h
    rfl
  · simp only at h
    split_ifs at h <;> cases h <;> simp

@[simp] theorem storeGranule_sent (s : State) (f oid off : Nat) (bs : List Byte) : (storeGranule s f oid off bs).sent = s.sent := by
  unfold storeGranule
  split
  · rfl
  · split
    · rfl
    · dsimp only
      split
      · exact putBytes_sent s _ _ _
      · split_ifs
        · simp
        · simp
        · exact (updObj_sent _ _ _).trans (by simp)
        · split
          · next h => exact (putBytes_sent _ _ _ _).trans (rewrite_sent h)
          · simp
        · simp

/-- What every step of a fold keeps of a state, the fold keeps. -/
theorem foldl_keeps {α β : Type} {p : State → β} {g : State → α → State} (h : ∀ s x, p (g s x) = p s) (xs : List α) (s : State) :
    p (xs.foldl g s) = p s := by
  induction xs generalizing s with
  | nil => rfl
  | cons x xs ih => exact (ih (g s x)).trans (h s x)

@[simp] theorem serveWrite_sent (s : State) (f addr : Nat) (bs : List Byte) : (serveWrite s f addr bs).sent = s.sent := by
  unfold serveWrite
  split
  · rfl
  · rfl
  · unfold writeObject
    split
    · rfl
    · split
      · rfl
      · exact foldl_keeps (p := State.sent) (fun u p => storeGranule_sent u _ _ _ _) _ s

@[simp] theorem writeExit_sent (s : State) (i : Instance) (e : ExitInfo) : (writeExit s i e).sent = s.sent := by
  unfold writeExit
  split
  · rfl
  · split
    · refine foldl_keeps (p := State.sent) (fun u p => ?_) _ s
      dsimp only
      split
      · rfl
      · exact storeGranule_sent u _ _ _ _
    · rfl

@[simp] theorem observeTasks_sent (s : State) (i : Instance) (ts : List Nat) : (observeTasks s i ts).sent = s.sent := by
  refine foldl_keeps (p := State.sent) (fun u t => ?_) ts s
  split
  · obtain ⟨draught, h⟩ := observePhase_changes u (.program i.fn i.image i.plan t) _ _
    rw [h]
  · rfl

/-! ### Shuttles by their number -/

theorem get?_eq_none_iff {α : Type} (m : AMap α) (i : Nat) : AMap.get? m i = none ↔ i ∉ m.map (·.1) := by
  induction m with
  | nil => simp
  | cons e m ih =>
    by_cases h : e.1 = i
    · simp [AMap.get?, h]
    · simp [AMap.get?, h, Ne.symm h, ih]

/-- Of a map whose keys rise, an entry that a filter drops is the only one of its key. -/
theorem not_mem_filter_keys {α : Type} {m : AMap α} (hm : m.Pairwise (fun a b => a.1 < b.1)) {p : Nat × α → Bool} {i : Nat}
    (h : ∀ v, AMap.get? m i = some v → p (i, v) = false) : i ∉ (m.filter p).map (·.1) := by
  induction m with
  | nil => simp
  | cons e m ih =>
    obtain ⟨k, v⟩ := e
    obtain ⟨hk, hm⟩ := List.pairwise_cons.1 hm
    by_cases hi : k = i
    · subst hi
      have hdrop : p (k, v) = false := h v (by simp [AMap.get?])
      rw [List.filter_cons_of_neg (by simp [hdrop])]
      intro hmem
      obtain ⟨e, he, hek⟩ := List.mem_map.1 hmem
      exact absurd (hk e (List.mem_filter.1 he).1) (by omega)
    · have hrest := ih hm (fun w hw => h w (by simpa [AMap.get?, hi] using hw))
      rw [List.filter_cons]
      split
      · simpa [Ne.symm hi] using hrest
      · exact hrest

/-! ### Quiet work -/

/-- Nothing has left the node, no fault has been counted, and no shuttle has appeared. -/
def quietly (s t : State) : Prop :=
  t.sent = s.sent ∧ t.prog.faults = s.prog.faults ∧ t.prog.shuttles.map (·.1) ⊆ s.prog.shuttles.map (·.1)

theorem quietly_of_same {s t : State} (hsent : t.sent = s.sent) (hfaults : t.prog.faults = s.prog.faults)
    (hshuttles : t.prog.shuttles = s.prog.shuttles) : quietly s t :=
  ⟨hsent, hfaults, by rw [hshuttles]; exact List.Subset.refl _⟩

theorem quietly_refl (s : State) : quietly s s := quietly_of_same rfl rfl rfl

theorem quietly_trans {s t u : State} (h : quietly s t) (h' : quietly t u) : quietly s u := by
  obtain ⟨hsent, hfaults, hkeys⟩ := h
  obtain ⟨hsent', hfaults', hkeys'⟩ := h'
  exact ⟨hsent'.trans hsent, hfaults'.trans hfaults, List.Subset.trans hkeys' hkeys⟩

theorem quietly_foldl {α : Type} {g : State → α → State} (h : ∀ s x, quietly s (g s x)) (xs : List α) (s : State) :
    quietly s (xs.foldl g s) := by
  induction xs generalizing s with
  | nil => exact quietly_refl s
  | cons x xs ih => exact quietly_trans (h s x) (ih _)

theorem quietly_ite {p : Prop} {_ : Decidable p} {s t u : State} (ht : quietly s t) (hu : quietly s u) :
    quietly s (if p then t else u) := by
  split
  · exact ht
  · exact hu

theorem quietly_elim {α : Type} {o : Option α} {s : State} {g : α → State} (h : ∀ x, quietly s (g x)) : quietly s (o.elim s g) := by
  cases o with
  | none => exact quietly_refl s
  | some x => exact h x

/-! ### The work of a program stops -/

/-- What has left the node, the faults counted, and the shuttles. -/
def outside (s : State) : List Emission × BitVec 32 × AMap Shuttle := (s.sent, s.prog.faults, s.prog.shuttles)

theorem outside_of_arraysMoved {s t : State} (h : arraysMoved s t) : outside t = outside s := by
  obtain ⟨hframe, -⟩ := h
  rw [hframe]
  rfl

theorem outside_of_worksKept {s t : State} (h : worksKept s t) (hsent : t.sent = s.sent) : outside t = outside s := by
  obtain ⟨-, -, -, hprog⟩ := h
  rw [outside, hsent, hprog, outside]

theorem outside_stopArrays (s : State) (no : Nat) : outside (stopArrays s no) = outside s := by
  refine foldl_keeps (p := outside) (fun u l => (outside_of_arraysMoved (arraysMoved_dropDescs _ l _)).trans ?_) _ s
  split <;> rfl

theorem outside_progViolate (s : State) (no : Nat) : outside (progViolate s no) = outside s := by
  rw [progViolate_kept]
  rfl

theorem outside_progWrite (s : State) (no : Nat) (i : Instance) (loom a : Nat) (bs : List Byte) :
    outside (progWrite s no i loom a bs) = outside s := by
  unfold progWrite
  split
  · split
    · rfl
    · exact outside_progViolate s no
  · exact outside_progViolate s no
  · split
    · exact outside_progViolate s no
    · rfl
    · exact outside_of_worksKept (worksKept_serveWrite s _ _ _) (serveWrite_sent s _ _ _)

theorem outside_stopSelections (s : State) (no : Nat) : outside (stopSelections s no) = outside s := by
  unfold stopSelections
  dsimp only
  cases AMap.get? s.prog.instances no with
  | none => rfl
  | some i => exact foldl_keeps (p := outside) (fun u d => outside_progWrite u no i _ _ _) _ (selectionsGone s no)

/-- A shuttle once a program has stopped. -/
def stoppedIn (no : Nat) (e : Nat × Shuttle) : Nat × Shuttle :=
  if e.2.inst = no then (e.1, { e.2 with state := .stopped, pending := [] }) else e

theorem outside_stopWork (s : State) (no : Nat) :
    outside (stopWork s no) = (s.sent, s.prog.faults, s.prog.shuttles.map (stoppedIn no)) := by
  have hstop : outside (stopSelections (stopArrays s no) no) = outside s :=
    (outside_stopSelections _ no).trans (outside_stopArrays s no)
  exact congrArg (fun o => (o.1, o.2.1, o.2.2.map (stoppedIn no))) hstop

/-- The shuttles left once those of a program have stopped and gone. -/
theorem filter_stoppedIn (no : Nat) (m : AMap Shuttle) :
    (m.map (stoppedIn no)).filter (fun e => e.2.inst != no) = m.filter (fun e => e.2.inst != no) := by
  induction m with
  | nil => rfl
  | cons e m ih =>
    by_cases h : e.2.inst = no
    · simpa [stoppedIn, h] using ih
    · simpa [stoppedIn, h] using ih

/-- A program that has gone has taken its shuttles with it and counted its own fault (R303). -/
theorem outside_instanceGone (s : State) (no : Nat) (i : Instance) (e : ExitInfo) : outside (instanceGone s no i e) =
    (s.sent, if 2 ≤ e.code && e.code ≤ 4 then satAdd s.prog.faults 1 else s.prog.faults,
      s.prog.shuttles.filter (fun x => x.2.inst != no)) := by
  have hexit : outside (observeTasks (writeExit (stopWork s no) i e) i (i.meters.map (·.1))) = outside (stopWork s no) :=
    (outside_of_worksKept (worksKept_observeTasks _ i _) (observeTasks_sent _ i _)).trans
      (outside_of_worksKept (worksKept_writeExit _ i e) (writeExit_sent _ i e))
  rw [outside_stopWork] at hexit
  rw [← filter_stoppedIn]
  exact congrArg (fun o => (o.1, if 2 ≤ e.code && e.code ≤ 4 then satAdd o.2.1 1 else o.2.1,
    o.2.2.filter (fun x => x.2.inst != no))) hexit

/-! ### What follows -/

theorem quietly_freeAll (s : State) : quietly s (freeAll s) := by
  obtain ⟨space, flash, h⟩ := freeAll_changes s
  rw [h]
  exact quietly_of_same rfl rfl rfl

theorem quietly_causeSnap (s : State) (n : Nat) : quietly s (causeSnap s n) := by
  rw [causeSnap_kept]
  exact quietly_of_same rfl rfl rfl

theorem quietly_updInst (s : State) (no : Nat) (g : Instance → Instance) : quietly s (updInst s no g) := by
  rw [updInst_kept]
  exact quietly_of_same rfl rfl rfl

/-- Waiters are released in place (R290, R292). -/
theorem quietly_releaseWaiters (s : State) (k : Nat) (outcome : BitVec 64) (st : Byte) : quietly s (releaseWaiters s k outcome st) := by
  have hkeys : (releaseWaiters s k outcome st).prog.shuttles.map (·.1) = s.prog.shuttles.map (·.1) := by
    refine (List.map_map ..).trans (List.map_congr_left fun e _ => ?_)
    simp only [Function.comp_apply]
    split <;> rfl
  exact ⟨rfl, rfl, by rw [hkeys]; exact List.Subset.refl _⟩

theorem quietly_freeKnot (s : State) (k : Nat) : quietly s (freeKnot s k) :=
  quietly_trans (quietly_of_same rfl rfl rfl) (quietly_releaseWaiters _ k 1 stNoObject)

/-- What follows once a program has gone is quiet, where its arrivals are. -/
theorem quietly_afterGone {arr : State → Nat → State} (harr : ∀ u k, quietly u (arr u k)) {s : State} {no : Nat} {i : Instance}
    (hi : AMap.get? s.prog.instances no = some i) (e : ExitInfo) : quietly (instanceGone s no i e) (endInstance arr s no e) := by
  have hmine (u : State) (k : Nat) : quietly u (if (knotOf u k).any (fun x => x.fn == i.fn) then arr u k else u) :=
    quietly_ite (harr u k) (quietly_refl u)
  unfold endInstance
  rw [hi]
  dsimp only
  refine quietly_trans ?_ (quietly_freeAll _)
  refine quietly_trans ?_ (quietly_of_same rfl rfl rfl)
  refine quietly_trans ?_ (quietly_ite (quietly_causeSnap _ 5) (quietly_refl _))
  refine quietly_trans ?_ (quietly_foldl quietly_freeKnot _ _)
  refine quietly_trans ?_ (quietly_elim fun k => hmine _ k)
  exact quietly_foldl hmine _ _

/-- A program that ends by no fault does so quietly. -/
theorem quietly_endInstance {arr : State → Nat → State} (harr : ∀ u k, quietly u (arr u k)) (s : State) (no : Nat) {e : ExitInfo}
    (he : (2 ≤ e.code && e.code ≤ 4) = false) : quietly s (endInstance arr s no e) := by
  cases hi : AMap.get? s.prog.instances no with
  | none =>
    have hsame : endInstance arr s no e = s := by simp only [endInstance, hi]
    rw [hsame]
    exact quietly_refl s
  | some i =>
    have hgone := outside_instanceGone s no i e
    rw [he, outside, Prod.mk.injEq, Prod.mk.injEq] at hgone
    obtain ⟨hsent, hfaults, hshuttles⟩ := hgone
    refine quietly_trans ⟨hsent, hfaults, ?_⟩ (quietly_afterGone harr hi e)
    rw [hshuttles]
    exact (List.filter_sublist.map _).subset

theorem quietly_boundaryWith {arr : State → Nat → State} (harr : ∀ u k, quietly u (arr u k)) (s : State) (no : Nat) :
    quietly s (boundaryWith arr s no) := by
  have hstep (g : Instance → Instance) : quietly s (freeAll (updInst s no g)) :=
    quietly_trans (quietly_updInst s no g) (quietly_freeAll _)
  unfold boundaryWith
  dsimp only
  split
  · exact quietly_ite (quietly_trans (hstep _) (quietly_endInstance harr _ no rfl)) (hstep _)
  · exact hstep _

theorem quietly_noteKnot (s : State) (x : Knot) : quietly s (noteKnot s x) := by
  refine quietly_elim fun no => ?_
  unfold noteMay
  split
  · exact quietly_refl s
  · exact quietly_updInst s no _

/-- A knot counted, and its waiters released where that satisfies it (R290). -/
theorem quietly_knotCounted (s : State) (k : Nat) (x : Knot) : quietly s (charge (putKnot s k x) x.fn 30 true) :=
  quietly_of_same rfl rfl rfl

theorem quietly_knotReleased (s : State) (k : Nat) (x : Knot) :
    quietly s (noteKnot (releaseWaiters (charge (putKnot s k x) x.fn 30 true) k 0 stOk) x) :=
  quietly_trans (quietly_trans (quietly_knotCounted s k x) (quietly_releaseWaiters _ k 0 stOk)) (quietly_noteKnot _ x)

theorem quietly_arriveN (n : Nat) (s : State) (k amount : Nat) : quietly s (arriveN n s k amount) := by
  induction n generalizing s k amount with
  | zero =>
    unfold arriveN
    split
    · exact quietly_refl s
    · next x _ =>
      exact quietly_ite (quietly_knotCounted s k { x with counter := satAdd x.counter amount })
        (quietly_knotReleased s k { x with counter := satAdd x.counter amount })
  | succ n ih =>
    unfold arriveN
    split
    · exact quietly_refl s
    · next x _ =>
      have hreleased := quietly_knotReleased s k { x with counter := satAdd x.counter amount }
      refine quietly_ite (quietly_knotCounted s k { x with counter := satAdd x.counter amount }) ?_
      cases (if x.boundary then x.inst else none) with
      | none => exact hreleased
      | some no => exact quietly_trans hreleased (quietly_boundaryWith (fun u k => ih u k 1) _ no)

theorem quietly_arrive (s : State) (k : Nat) : quietly s (arrive s k 1) := quietly_arriveN _ s k 1

end Sys2Proof.Laws
end

section
/-! PROOFS. O39: faults of shuttle instructions (R283). A program without descriptors, selections or an exit knot that ends sets off
no arrival, so that its event is the only one. -/

namespace Sys2Proof.Laws
open Sys2Proof Sys2Proof.Machine Sys2Proof.Safety

/-! ### A program ends without arrivals -/

theorem mem_vals_of_get? {α : Type} {m : AMap α} {k : Nat} {v : α} (h : AMap.get? m k = some v) : v ∈ AMap.vals m := by
  induction m with
  | nil => cases h
  | cons e m ih =>
    by_cases he : e.1 = k
    · simp_all [AMap.get?, AMap.vals]
    · simp only [AMap.get?, he, if_false] at h
      exact List.mem_cons_of_mem _ (ih h)

/-- Where no loom has a descriptor of the program, its array work is no work to stop. -/
theorem stopArrays_of_none {s : State} {no : Nat} (h : instDescs s no = []) : stopArrays s no = s := by
  have hloom (l : Nat) : (loomOf s l).dq.filter (fun d => d.inst == no && d.pick.isNone) = [] := by
    cases hl : AMap.get? s.looms.looms l with
    | none => simp [loomOf, AMap.getD, hl]
    | some x =>
      have hx : loomOf s l = x := by simp [loomOf, AMap.getD, hl]
      rw [hx]
      exact List.flatMap_eq_nil_iff.1 h x (mem_vals_of_get? hl)
  refine List.foldl_fixed' (fun l => ?_) _
  have hkeep : (loomOf s l).dq.all (fun d => d.inst != no || d.pick.isSome) = true := by
    refine List.all_eq_true.2 fun d hd => ?_
    have hnot := List.filter_eq_nil_iff.1 (hloom l) d hd
    cases hp : d.pick <;> simp_all
  simp only [hloom, List.isEmpty_nil, if_true, dropDescs, hkeep]

theorem stopSelections_of_none {s : State} {no : Nat} (h : instSelections s no = []) : stopSelections s no = selectionsGone s no := by
  unfold stopSelections
  dsimp only
  rw [h]
  cases AMap.get? s.prog.instances no <;> rfl

theorem writeExit_of_noArgument {i : Instance} (h : i.argObj = 0) (s : State) (e : ExitInfo) : writeExit s i e = s := by
  unfold writeExit
  split
  · rfl
  · exact if_neg (by simp [h])

theorem observeTasks_fns (s : State) (i : Instance) (ts : List Nat) : (observeTasks s i ts).fns = s.fns := by
  refine foldl_keeps (p := State.fns) (fun u t => ?_) ts s
  split
  · obtain ⟨draught, h⟩ := observePhase_changes u (.program i.fn i.image i.plan t) _ _
    rw [h]
  · rfl

section
variable {s : State} {no : Nat} {i : Instance} (hdescs : instDescs s no = []) (hsel : instSelections s no = []) (harg : i.argObj = 0)
include hdescs hsel harg

theorem instanceGone_fns (e : ExitInfo) : (instanceGone s no i e).fns = s.fns := by
  refine (observeTasks_fns _ i _).trans ?_
  rw [writeExit_of_noArgument harg, stopWork, stopArrays_of_none hdescs, stopSelections_of_none hsel]
  rfl

/-- The functions see of its end only the event (R303, R520). -/
theorem endInstance_fns (hi : AMap.get? s.prog.instances no = some i) (hexit : i.exitKnot = none) (arr : State → Nat → State)
    (e : ExitInfo) : ∃ u, u.fns = s.fns ∧ (endInstance arr s no e).fns =
      (postEvent u i.fn 1 (BitVec.ofNat 32 no) (BitVec.ofNat 32 (e.code + 256 * e.fault)) i.step).fns := by
  have hsnap (u : State) : (if e.code = 2 then causeSnap u 5 else u).fns = u.fns := by
    split
    · rw [causeSnap_kept]
    · rfl
  have hfreed (u : State) : (freeAll u).fns = u.fns := by
    obtain ⟨space, flash, h⟩ := freeAll_changes u
    rw [h]
  have hknots : (i.knots.foldl freeKnot (instanceGone s no i e)).fns = s.fns :=
    (foldl_keeps (p := State.fns) (g := freeKnot) (fun _ _ => rfl) i.knots _).trans (instanceGone_fns hdescs hsel harg e)
  refine ⟨_, (hsnap (i.knots.foldl freeKnot (instanceGone s no i e))).trans hknots, ?_⟩
  simp only [endInstance, hi, hdescs, hsel, hexit, List.filter_nil, List.map_nil, List.append_nil, List.foldl_nil, Option.elim_none,
    hfreed]
  rfl

end

/-! ### Faults -/

/-- A program with its event to come, and nothing of it that an arrival could follow (R303, R520). -/
def endsAlone (s : State) (no : Nat) (i : Instance) : Prop :=
  AMap.get? s.prog.instances no = some i ∧ i.exitKnot = none ∧ i.argObj = 0 ∧ instDescs s no = [] ∧ instSelections s no = [] ∧
    (fnOf s i.fn).featActive.getLsbD 29 = true ∧ (fnOf s i.fn).events.length < 64

/-- The program has ended with end code 2, and its event, the only one, says so (R283, R303). -/
def endedByFault (s t : State) (no f : Nat) : Prop :=
  ∃ e, AMap.get? t.prog.instances no = none ∧ t.prog.faults = satAdd s.prog.faults 1 ∧
    (fnOf t f).events = (fnOf s f).events ++ [e] ∧ e.code = 1 ∧ e.arg0 = BitVec.ofNat 32 no ∧ e.arg1.toNat % 256 = 2 ∧ t.sent = s.sent

theorem endsAlone_of_countsOnly {s u : State} (h : countsOnly s u) {no : Nat} {i : Instance} (hs : endsAlone s no i) :
    ∃ m, endsAlone u no (withMeters m i) := by
  obtain ⟨hi, hexit, harg, hdescs, hsel, hfeat, hroom⟩ := hs
  obtain ⟨m, hm⟩ := get?_of_countsOnly h hi
  refine ⟨m, hm, hexit, harg, ?_, ?_, ?_, ?_⟩
  · rw [instDescs, countsOnly_looms h]
    exact hdescs
  · rw [instSelections, countsOnly_reeds h]
    exact hsel
  · rw [fnOf_of_fns (countsOnly_fns h)]
    exact hfeat
  · rw [fnOf_of_fns (countsOnly_fns h)]
    exact hroom

theorem endedByFault_of_counts {s u v t : State} {no f : Nat} (hu : countsOnly s u) (ht : countsOnly v t) (h : endedByFault u v no f) :
    endedByFault s t no f := by
  obtain ⟨e, hnone, hfaults, hevents, hcode, harg0, harg1, hsent⟩ := h
  refine ⟨e, countsOnly_noInstance ht hnone, ?_, ?_, hcode, harg0, harg1, (countsOnly_sent ht).trans (hsent.trans (countsOnly_sent hu))⟩
  · rw [countsOnly_faults ht, hfaults, countsOnly_faults hu]
  · rw [fnOf_of_fns (countsOnly_fns ht), hevents, fnOf_of_fns (countsOnly_fns hu)]

/-- What an end with code 2 does. -/
theorem instanceEnds_byFault {s : State} {no : Nat} {i : Instance} (h : endsAlone s no i) {e : ExitInfo} (he : e.code = 2) :
    endedByFault s (instanceEnds s no e) no i.fn := by
  obtain ⟨hi, hexit, harg, hdescs, hsel, hfeat, hroom⟩ := h
  obtain ⟨-, hnone⟩ := instanceEnds_ends s no e
  have hgone := outside_instanceGone s no i e
  rw [he, outside, Prod.mk.injEq, Prod.mk.injEq] at hgone
  obtain ⟨hsent, hfaults, -⟩ := hgone
  obtain ⟨hsent', hfaults', -⟩ := quietly_afterGone quietly_arrive hi e
  obtain ⟨u, hu, hfns⟩ := endInstance_fns hdescs hsel harg hi hexit (fun s k => arrive s k 1) e
  have hheld := postEvent_held u i.fn 1 (BitVec.ofNat 32 no) (BitVec.ofNat 32 (e.code + 256 * e.fault)) i.step
    (by rw [fnOf_of_fns hu]; exact hfeat) (by rw [fnOf_of_fns hu]; exact hroom)
  refine ⟨⟨1, BitVec.ofNat 32 no, BitVec.ofNat 32 (e.code + 256 * e.fault), i.step⟩, hnone, hfaults'.trans hfaults, ?_, rfl, rfl, ?_,
    hsent'.trans hsent⟩
  · rw [instanceEnds, fnOf_of_fns hfns, hheld, fnOf_of_fns hu]
  · rw [he, BitVec.toNat_ofNat]
    omega

/-- A row that, once it may issue, does nothing but fault. -/
theorem row_faults {i : Instr} {o : ShOp} {s : State} {c : ShCtx} {k : ShCtx → State → State} {n : Nat} (h : atInstruction o s c)
    (hrow : exec i s = withIns o c.sh s k) (hk : ∀ u, k c u = c.fault u n) (hs : endsAlone s c.no c.i) :
    ∃ t, exec i s = .next t ∧ endedByFault s t c.no c.i.fn := by
  obtain ⟨u, t, hu, ht, hexec⟩ := withIns_runs h k
  obtain ⟨m, hm⟩ := endsAlone_of_countsOnly hu hs
  rw [hk u] at ht
  exact ⟨t, hrow.trans hexec, endedByFault_of_counts hu ht (instanceEnds_byFault hm rfl)⟩

/-! ### The faults of the rows -/

theorem load_misaligned {c : ShCtx} {n : Nat} (h : c.addr % n ≠ 0) (s : State) (reg : Nat) (vector extend : Bool) :
    c.load s n reg vector extend = c.fault s 2 := if_pos h

theorem store_misaligned {c : ShCtx} {n : Nat} (h : c.addr % n ≠ 0) (s : State) (v : Nat) : c.store s n v = c.fault s 2 := if_pos h

theorem atomic_misaligned {c : ShCtx} (h : c.ga.toNat % 8 ≠ 0) (s : State) : c.atomic s = c.fault s 2 := if_pos h

/-- A target that is no multiple of 4 or lies outside the code section is FAULT 3. -/
theorem jump_outside {c : ShCtx} {target : Int} (h : target % 4 ≠ 0 ∨ target < 0 ∨ (imgCodeLen c.m : Int) ≤ target) (s : State)
    (y : Shuttle) : c.jump s y target = c.fault s 3 := by
  refine if_pos ?_
  simp only [Bool.or_eq_true, decide_eq_true_eq]
  tauto

/-- The row and the mnemonic of a load or store of more than one byte, with its bytes. -/
def wideRow (i : Instr) (o : ShOp) (n sh : Nat) : Prop :=
  i = .ld2 sh ∧ o = .ld2 ∧ n = 2 ∨ i = .ld4 sh ∧ o = .ld4 ∧ n = 4 ∨ i = .ld8 sh ∧ o = .ld8 ∧ n = 8 ∨
    i = .lds2 sh ∧ o = .lds2 ∧ n = 2 ∨ i = .lds4 sh ∧ o = .lds4 ∧ n = 4 ∨ i = .st2 sh ∧ o = .st2 ∧ n = 2 ∨
    i = .st4 sh ∧ o = .st4 ∧ n = 4 ∨ i = .st8 sh ∧ o = .st8 ∧ n = 8 ∨ i = .vld sh ∧ o = .vld ∧ n = 64 ∨ i = .vst sh ∧ o = .vst ∧ n = 64

theorem loadRow_or_storeRow {i : Instr} {o : ShOp} {n sh : Nat} (h : wideRow i o n sh) : loadRow i o n sh ∨ storeRow i o n sh := by
  rcases h with h | h | h | h | h | h | h | h | h | h
  · exact .inl (.inr (.inl h))
  · exact .inl (.inr (.inr (.inl h)))
  · exact .inl (.inr (.inr (.inr (.inl h))))
  · exact .inl (.inr (.inr (.inr (.inr (.inr (.inl h))))))
  · exact .inl (.inr (.inr (.inr (.inr (.inr (.inr (.inl h)))))))
  · exact .inr (.inr (.inl h))
  · exact .inr (.inr (.inr (.inl h)))
  · exact .inr (.inr (.inr (.inr (.inl h))))
  · exact .inl (.inr (.inr (.inr (.inr (.inr (.inr (.inr h)))))))
  · exact .inr (.inr (.inr (.inr (.inr h))))

section
variable {i : Instr} {o : ShOp} {n : Nat} {s : State} {c : ShCtx} (h : atInstruction o s c) (hs : endsAlone s c.no c.i)
include h hs

theorem access_faults (hrow : wideRow i o n c.sh) (hmis : c.addr % n ≠ 0) : ∃ t, exec i s = .next t ∧ endedByFault s t c.no c.i.fn := by
  rcases loadRow_or_storeRow hrow with hload | hstore
  · obtain ⟨reg, vector, extend, hexec⟩ := exec_load hload s
    exact row_faults h hexec (fun u => load_misaligned hmis u _ _ _) hs
  · obtain ⟨v, hexec⟩ := exec_store hstore s
    exact row_faults h hexec (fun u => store_misaligned hmis u _) hs

theorem branch_faults (hrow : branchRow i o c.sh) (htaken : branchTaken o c.gd c.ga = true)
    (hout : (c.x.pc.toNat + 4 * fImmS c.w) % 4 ≠ 0 ∨ (c.x.pc.toNat : Int) + 4 * fImmS c.w < 0 ∨
      (imgCodeLen c.m : Int) ≤ c.x.pc.toNat + 4 * fImmS c.w) : ∃ t, exec i s = .next t ∧ endedByFault s t c.no c.i.fn :=
  row_faults h (exec_branch hrow s) (fun u => (branch_taken htaken u).trans (jump_outside hout u c.x)) hs

end

theorem jalr_faults {s : State} {c : ShCtx} (h : atInstruction .jalr s c) (hs : endsAlone s c.no c.i)
    (hout : c.addr % 4 ≠ 0 ∨ imgCodeLen c.m ≤ c.addr) : ∃ t, exec (.jalr c.sh) s = .next t ∧ endedByFault s t c.no c.i.fn := by
  have hout' : (c.addr : Int) % 4 ≠ 0 ∨ (c.addr : Int) < 0 ∨ (imgCodeLen c.m : Int) ≤ c.addr := by omega
  exact row_faults (k := fun c s => c.jump s (c.x.setReg (fRd c.w) (BitVec.ofNat 64 (c.x.pc.toNat + 4))) (c.addr : Int)) h rfl
    (fun u => jump_outside hout' u _) hs

theorem amo_faults {s : State} {c : ShCtx} (h : atInstruction .amo s c) (hs : endsAlone s c.no c.i) (hmis : c.ga.toNat % 8 ≠ 0) :
    ∃ t, exec (.amo c.sh) s = .next t ∧ endedByFault s t c.no c.i.fn :=
  row_faults (k := fun c s => c.atomic s) h rfl (fun u => atomic_misaligned hmis u) hs

theorem illegal_faults {s : State} {c : ShCtx} (h : atWord s c) (hdec : shDecode c.w (c.i.features.getLsbD 17) = none)
    (hs : endsAlone s c.no c.i) : ∃ t, exec (.alu c.sh) s = .next t ∧ endedByFault s t c.no c.i.fn :=
  ⟨c.fault s 1, (withIns_atWord h .alu (fun c s => c.put s (aluResult (fFn c.w) c.ga c.gb))).trans (by rw [hdec]; rfl),
    instanceEnds_byFault hs rfl⟩

/-- Settles O39, fault by fault. -/
theorem faultsEndInstances : Obligations.FaultsEndInstances := by
  intro i s c hx hstate hturn hno hi hm hw hpc hline hexit hfeat hroom harg hdescs hsel hcase
  have hword : atWord s c := ⟨hx, .inl hstate, hno, hi, hm, hw, hpc, hline, hturn⟩
  have hs : endsAlone s c.no c.i := ⟨hi, hexit, harg, hdescs, hsel, hfeat, hroom⟩
  suffices hend : ∃ t, exec i s = .next t ∧ endedByFault s t c.no c.i.fn by
    obtain ⟨t, hexec, e, he⟩ := hend
    exact ⟨t, e, hexec, he⟩
  rcases hcase with ⟨rfl, hdec⟩ | ⟨o, n, hrow, hdec, hfree, hmis⟩ | ⟨rfl, hdec, hfree, hmis⟩ | ⟨rfl, hdec, hfree, hout⟩ |
    ⟨o, hrow, hdec, hfree, htaken, hout⟩
  · exact illegal_faults hword hdec hs
  · exact access_faults ((atInstruction_iff _ s c).2 ⟨hword, hdec, hfree⟩) hs hrow hmis
  · exact amo_faults ((atInstruction_iff _ s c).2 ⟨hword, hdec, hfree⟩) hs hmis
  · exact jalr_faults ((atInstruction_iff _ s c).2 ⟨hword, hdec, hfree⟩) hs hout
  · exact branch_faults ((atInstruction_iff _ s c).2 ⟨hword, hdec, hfree⟩) hs hrow htaken hout

end Sys2Proof.Laws
end

section
/-! PROOFS. O35, the instructions of knots (R288, R290, R291): an arrival that satisfies nothing, a wait, and a knot set anew. -/

namespace Sys2Proof.Laws
open Sys2Proof Sys2Proof.Machine Sys2Proof.Safety

/-! ### The frame of a row that does more than change its shuttle -/

theorem shuttleAt_step {s u t : State} {c : ShCtx} {y : Shuttle} (hu : u.prog.shuttles = s.prog.shuttles)
    (ht : t.prog.shuttles = (c.step u y).prog.shuttles) : shuttleAt s t c y (c.x.pc + 4) := by
  rw [← ofNat_pc_add_four]
  exact shuttleAt_goto hu ht

/-- Between two states whose energy counts apart are those of an instruction's work, what the work does to the instances stands. -/
theorem metersOnly_through {s u v t : State} (hu : countsOnly s u) (ht : countsOnly v t) (hv : v.prog.instances = u.prog.instances) :
    metersOnly s t :=
  metersOnly_trans (metersOnly_of_countsOnly hu) (metersOnly_trans (metersOnly_of_instances hv) (metersOnly_of_countsOnly ht))

/-- Only programs and the energy counted differ. -/
def programsOnly (s t : State) : Prop := t = { s with prog := t.prog, draught := t.draught }

theorem programsOnly_trans {s t u : State} (h : programsOnly s t) (h' : programsOnly t u) : programsOnly s u := by
  rw [programsOnly] at h h' ⊢
  rw [h', h]

theorem programsOnly_of_countsOnly {s t : State} (h : countsOnly s t) : programsOnly s t := by
  rw [programsOnly, h.1]

theorem programsOnly_through {s u v t : State} (hu : countsOnly s u) (ht : countsOnly v t)
    (hv : v = { u with prog := v.prog, draught := v.draught }) : programsOnly s t :=
  programsOnly_trans (programsOnly_of_countsOnly hu) (programsOnly_trans hv (programsOnly_of_countsOnly ht))

/-! ### Knots -/

@[simp] theorem knotOf_putKnot_same (s : State) (k : Nat) (x : Knot) : knotOf (putKnot s k x) k = some x :=
  AMap.get?_insert_same _ _ _

theorem knotOf_putKnot_other (s : State) {k j : Nat} (x : Knot) (h : j ≠ k) : knotOf (putKnot s k x) j = knotOf s j :=
  AMap.get?_insert_other _ _ _ _ (Ne.symm h)

/-- A knot with arrivals counted. -/
def raised (x : Knot) (n : Nat) : Knot := { x with counter := x.counter + BitVec.ofNat 32 n }

theorem raised_below {x : Knot} {n : Nat} (h : x.counter.toNat + n < x.target.toNat) :
    { x with counter := satAdd x.counter n } = raised x n ∧ (raised x n).satisfied = false := by
  have htarget := x.target.isLt
  have hn : n % 2 ^ 32 = n := Nat.mod_eq_of_lt (by omega)
  have hsum : (x.counter.toNat + n) % 2 ^ 32 = x.counter.toNat + n := Nat.mod_eq_of_lt (by omega)
  have hsat : satAdd x.counter n = x.counter + BitVec.ofNat 32 n := if_pos (by omega)
  refine ⟨by rw [hsat, raised], ?_⟩
  rw [Knot.satisfied, raised, BitVec.toNat_add, BitVec.toNat_ofNat, hn, hsum]
  exact decide_eq_false (Nat.not_le.2 h)

/-- An arrival below the target is counted and releases nothing (R290). -/
theorem arriveFor_below {s : State} {k n : Nat} {x : Knot} (hx : knotOf s k = some x) (hn : x.counter.toNat + n < x.target.toNat) :
    arriveFor s x.fn k n = charge (putKnot s k (raised x n)) x.fn 30 true := by
  obtain ⟨hcount, hno⟩ := raised_below hn
  rw [arriveFor, if_pos (by simp [hx]), arrive]
  unfold arriveN
  simp only [hx, hcount, hno, Bool.not_false, Bool.or_true, if_true]

theorem karr_counts (k : Nat) (x : Knot) (s : State) (c : ShCtx) (h : atInstruction .karr s c) (hk : k = c.ga.toNat % 65536)
    (hx : knotOf s k = some x) (hfn : x.fn = c.i.fn) (hn : x.counter.toNat + fImm c.w < x.target.toNat) :
    ∃ t, exec (.karr c.sh) s = .next t ∧ shuttleAt s t c c.x (c.x.pc + 4) ∧ metersOnly s t ∧
      knotOf t k = some (raised x (fImm c.w)) ∧ (∀ j, j ≠ k → knotOf t j = knotOf s j) ∧ programsOnly s t := by
  obtain ⟨u, t, hu, ht, hexec⟩ := withIns_runs h
    (fun c s => arriveFor (c.step s c.x) c.i.fn (c.ga.toNat % 65536) (fImm c.w))
  have hx' : knotOf (c.step u c.x) k = some x := (knotOf_of_knots (countsOnly_knots hu) k).trans hx
  rw [← hk, ← hfn, arriveFor_below hx' hn] at ht
  have hknots := countsOnly_knots ht
  refine ⟨t, hexec, shuttleAt_step (countsOnly_shuttles hu) (countsOnly_shuttles ht :), metersOnly_through hu ht rfl, ?_, fun j hj => ?_,
    programsOnly_through hu ht rfl⟩
  · exact (knotOf_of_knots hknots k).trans (knotOf_putKnot_same _ k _)
  · refine (knotOf_of_knots hknots j).trans ((knotOf_putKnot_other (c.step u c.x) _ hj).trans ?_)
    exact knotOf_of_knots (s := s) (countsOnly_knots hu) j

/-! ### KWAIT -/

/-- What KWAIT does on shuttle `sh`. -/
def waitOn (sh : Nat) (c : ShCtx) (s : State) : State :=
  match knotOf s (c.ga.toNat % 65536) with
  | none => c.put s 1
  | some x =>
    if x.fn != c.i.fn || x.satisfied then c.put s 0
    else updShuttle (c.step s c.x) sh (fun y => { y with state := .waitKnot (c.ga.toNat % 65536), waitReg := fRd c.w })

theorem exec_kwait (sh : Nat) (s : State) : exec (.kwait sh) s = withIns .kwait sh s (waitOn sh) := rfl

theorem waitOn_satisfied {s : State} {c : ShCtx} {x : Knot} (hx : knotOf s (c.ga.toNat % 65536) = some x) (hsat : x.satisfied = true)
    (sh : Nat) : waitOn sh c s = c.put s 0 := by
  simp only [waitOn, hx, hsat, Bool.or_true, if_true]

theorem waitOn_unsatisfied {s : State} {c : ShCtx} {x : Knot} (hx : knotOf s (c.ga.toNat % 65536) = some x) (hfn : x.fn = c.i.fn)
    (hsat : x.satisfied = false) (sh : Nat) : waitOn sh c s =
    updShuttle (c.step s c.x) sh (fun y => { y with state := .waitKnot (c.ga.toNat % 65536), waitReg := fRd c.w }) := by
  simp only [waitOn, hx, hfn, hsat, bne_self_eq_false, Bool.or_false, Bool.false_eq_true, if_false]

theorem kwait_waits (k : Nat) (x : Knot) (s : State) (c : ShCtx) (h : atInstruction .kwait s c) (hk : k = c.ga.toNat % 65536)
    (hx : knotOf s k = some x) (hfn : x.fn = c.i.fn) :
    (x.satisfied = true → ∃ t, exec (.kwait c.sh) s = .next t ∧ shuttleOnly s t c (c.x.setReg (fRd c.w) 0) (c.x.pc + 4)) ∧
    (x.satisfied = false → ∃ t, exec (.kwait c.sh) s = .next t ∧
      shuttleOf t c.sh = { c.x with pc := c.x.pc + 4, state := .waitKnot k, waitReg := fRd c.w } ∧
      programsOnly s t ∧ t.prog.knots = s.prog.knots ∧ metersOnly s t) := by
  subst hk
  rw [exec_kwait]
  have hx' {u : State} (hu : countsOnly s u) : knotOf u (c.ga.toNat % 65536) = some x :=
    (knotOf_of_knots (countsOnly_knots hu) _).trans hx
  refine ⟨fun hsat => withIns_steps h fun u hu => waitOn_satisfied (hx' hu) hsat c.sh, fun hsat => ?_⟩
  obtain ⟨u, t, hu, ht, hexec⟩ := withIns_runs h (waitOn c.sh)
  rw [waitOn_unsatisfied (hx' hu) hfn hsat] at ht
  refine ⟨t, hexec, ?_, programsOnly_through hu ht rfl, (countsOnly_knots ht).trans (countsOnly_knots (s := s) hu :),
    metersOnly_through hu ht rfl⟩
  rw [shuttleOf_of_shuttles (countsOnly_shuttles ht), updShuttle, shuttleOf_putShuttle_same, ShCtx.step, ShCtx.goto,
    shuttleOf_putShuttle_same, ofNat_pc_add_four]

/-! ### KSET -/

theorem startsOnly_trans {s t u : State} (h : startsOnly s t) (h' : startsOnly t u) : startsOnly s u := by
  intro no k hk
  obtain ⟨j, hj, hjk⟩ := h' no k hk
  obtain ⟨i, hi, hij⟩ := h no j hj
  exact ⟨i, hi, by rw [hjk, hij]⟩

theorem startsOnly_of_metersOnly {s t : State} (h : metersOnly s t) : startsOnly s t := by
  intro no j hj
  obtain ⟨i, hi, hij⟩ := h no j hj
  exact ⟨i, hi, by rw [hij]⟩

theorem noteKnot_kept (s : State) (x : Knot) :
    noteKnot s x = { s with prog := { s.prog with instances := (noteKnot s x).prog.instances } } := by
  unfold noteKnot
  cases x.inst with
  | none => rfl
  | some no =>
    rw [Option.elim_some]
    unfold noteMay
    split
    · rfl
    · exact updInst_kept s no _

/-- Only the moments from which tasks may start are noted (R297). -/
theorem startsOnly_noteKnot (s : State) (x : Knot) : startsOnly s (noteKnot s x) := by
  have hkeep : startsOnly s s := fun no j hj => ⟨j, hj, rfl⟩
  unfold noteKnot
  cases x.inst with
  | none => exact hkeep
  | some no =>
    rw [Option.elim_some]
    unfold noteMay
    split
    · exact hkeep
    · next i hi =>
      intro k j hj
      by_cases hk : k = no
      · subst hk
        rw [get?_updInst_same hi] at hj
        obtain rfl := Option.some.inj hj
        exact ⟨i, hi, rfl⟩
      · rw [get?_updInst_other s hk] at hj
        exact ⟨j, hj, rfl⟩

/-- A knot set to no arrivals and a target. -/
def setAnew (x : Knot) (target : BitVec 32) : Knot := { x with counter := 0, target := target }

/-- A knot set to a target above 0 is not satisfied and releases nothing (R291). -/
theorem setKnot_unsatisfied {s : State} {k : Nat} {x : Knot} (hx : knotOf s k = some x) {target : BitVec 32} (ht : 0 < target.toNat) :
    setKnot s k 0 target = noteKnot (putKnot s k (setAnew x target)) (setAnew x target) := by
  have hno : (setAnew x target).satisfied = false := decide_eq_false (Nat.not_le.2 ht)
  have hnot : Knot.satisfied { x with counter := 0, target := target } = false := hno
  simp only [setKnot, hx, hnot, Bool.not_false, if_true]
  rfl

/-- What KSET does. -/
def setOwn (c : ShCtx) (s : State) : State :=
  if (knotOf (c.step s c.x) (c.ga.toNat % 65536)).any (fun x => x.fn == c.i.fn) then
    setKnot (charge (c.step s c.x) c.i.fn 30 true) (c.ga.toNat % 65536) 0 (c.gb.setWidth 32)
  else c.step s c.x

theorem kset_sets (k : Nat) (x : Knot) (s : State) (c : ShCtx) (h : atInstruction .kset s c) (hk : k = c.ga.toNat % 65536)
    (hx : knotOf s k = some x) (hfn : x.fn = c.i.fn) (htarget : 0 < (c.gb.setWidth 32).toNat) :
    ∃ t, exec (.kset c.sh) s = .next t ∧ shuttleAt s t c c.x (c.x.pc + 4) ∧ startsOnly s t ∧
      knotOf t k = some (setAnew x (c.gb.setWidth 32)) ∧ (∀ j, j ≠ k → knotOf t j = knotOf s j) ∧ programsOnly s t := by
  subst hk
  obtain ⟨u, t, hu, ht, hexec⟩ := withIns_runs h setOwn
  have hx' : knotOf (c.step u c.x) (c.ga.toNat % 65536) = some x := (knotOf_of_knots (countsOnly_knots hu) _).trans hx
  have hset : setOwn c u = noteKnot (putKnot (charge (c.step u c.x) c.i.fn 30 true) (c.ga.toNat % 65536)
      (setAnew x (c.gb.setWidth 32))) (setAnew x (c.gb.setWidth 32)) := by
    rw [setOwn, if_pos (by simp [hx', hfn])]
    exact setKnot_unsatisfied (s := charge (c.step u c.x) c.i.fn 30 true) hx' htarget
  have hnoted := noteKnot_kept (putKnot (charge (c.step u c.x) c.i.fn 30 true) (c.ga.toNat % 65536) (setAnew x (c.gb.setWidth 32)))
    (setAnew x (c.gb.setWidth 32))
  have hknots : (setOwn c u).prog.knots = (putKnot (c.step u c.x) (c.ga.toNat % 65536) (setAnew x (c.gb.setWidth 32))).prog.knots := by
    rw [hset, hnoted]
    rfl
  refine ⟨t, hexec, shuttleAt_step (countsOnly_shuttles hu) ?_, ?_, ?_, fun j hj => ?_, programsOnly_through hu ht ?_⟩
  · rw [countsOnly_shuttles ht, hset, hnoted]
    rfl
  · rw [hset] at ht
    refine startsOnly_trans (startsOnly_of_metersOnly (metersOnly_of_countsOnly hu)) (startsOnly_trans ?_
      (startsOnly_of_metersOnly (metersOnly_of_countsOnly ht)))
    exact startsOnly_trans (startsOnly_of_metersOnly (metersOnly_of_instances rfl)) (startsOnly_noteKnot _ _)
  · exact (knotOf_of_knots ((countsOnly_knots ht).trans hknots) _).trans (knotOf_putKnot_same _ _ _)
  · refine (knotOf_of_knots ((countsOnly_knots ht).trans hknots) j).trans ((knotOf_putKnot_other (c.step u c.x) _ hj).trans ?_)
    exact knotOf_of_knots (s := s) (countsOnly_knots hu) j
  · rw [hset, hnoted]
    rfl

end Sys2Proof.Laws
end

section
/-! PROOFS. O35, ISSUE, IRQ, HALT and EXIT (R284, R285, R301, R303): descriptors that join a queue, a vector raised, and the ends of
shuttles and instances. -/

namespace Sys2Proof.Laws
open Sys2Proof Sys2Proof.Machine Sys2Proof.Safety

/-! ### A descriptor joins a loom's queue (R238) -/

/-- A descriptor that its arrays may have taken up, the same in all else. -/
def takenUp (d e : ArrayDesc) : Prop := e = { d with started := e.started, bank := e.bank }

theorem takenUp_refl (d : ArrayDesc) : takenUp d d := rfl

theorem nothing_takenUp (ds : List ArrayDesc) : ∃ g, (∀ d, takenUp d (g d)) ∧ ds = ds.modifyHead g := by
  refine ⟨id, takenUp_refl, ?_⟩
  cases ds <;> rfl

theorem startHead_dq (s : State) (loom : Nat) : ∃ g, (∀ d, takenUp d (g d)) ∧
    (loomOf (startHead s loom) loom).dq = (loomOf s loom).dq.modifyHead g := by
  unfold startHead
  dsimp only
  split
  · exact nothing_takenUp _
  · next d rest hdq =>
    split
    · exact nothing_takenUp _
    · rw [loomOf_updLoom_same, hdq]
      exact ⟨fun e => { e with
        started := true
        bank := (loomOf s loom).ws.filter (fun c => decide ((arrOf d.desc).qry ≤ c.1) &&
          decide (c.1 < (arrOf d.desc).qry + (arrOf d.desc).qryBytes)) }, fun _ => rfl, rfl⟩

theorem dq_of_phasesOnly {l k : Loom} (h : phasesOnly l k) : k.dq = l.dq := by rw [h]

/-- Of a queue only the head may be taken up as it takes its arrays. -/
theorem beginHead_dq (s : State) (loom : Nat) : ∃ g, (∀ d, takenUp d (g d)) ∧
    (loomOf (beginHead s loom) loom).dq = (loomOf s loom).dq.modifyHead g := by
  have hstart (u : State) (hu : (loomOf u loom).dq = (loomOf s loom).dq) : ∃ g, (∀ d, takenUp d (g d)) ∧
      (loomOf (startHead u loom) loom).dq = (loomOf s loom).dq.modifyHead g := hu ▸ startHead_dq u loom
  unfold beginHead
  dsimp only
  split
  · exact nothing_takenUp _
  · split
    · exact nothing_takenUp _
    · refine hstart _ ?_
      rw [loomOf_updLoom_same]
      refine dq_of_phasesOnly (phasesOnly_trans (k := { loomOf s loom with waitRise := _ }) rfl (phasesOnly_foldl (fun k a => ?_) _ _))
      split
      · exact phasesOnly_setPhaseOf k _ _
      · rfl

theorem beginHead_of_atWork {s : State} {loom : Nat} (h : headAtWork s loom) : beginHead s loom = s := by
  obtain ⟨d, rest, hdq, hstarted⟩ := h
  simp only [beginHead, hdq, hstarted, Bool.true_or, if_true]

/-- The descriptor that enters a queue, with the source version it reads (R238). -/
def entering (s : State) (f no : Nat) (task : Option Nat) (bad : Bool) (desc : List Byte) : ArrayDesc :=
  { desc := desc, fn := f, inst := no, task := task, bad := bad
    ver := if (arrOf desc).ver ≠ 0 then (arrOf desc).ver else (objOf s (arrOf desc).src).elim 0 (·.current) }

/-- A loom with a descriptor behind those queued. -/
def withBehind (d : ArrayDesc) (l : Loom) : Loom := { l with dq := l.dq ++ [d] }

theorem enqueueDesc_eq (s : State) (loom f no : Nat) (task : Option Nat) (bad : Bool) (desc : List Byte) :
    enqueueDesc s loom f no task bad desc = beginHead (updLoom s loom (withBehind (entering s f no task bad desc))) loom := rfl

/-- The last of a queue whose head alone may be taken up. -/
theorem getLast?_modifyHead (g : ArrayDesc → ArrayDesc) (hg : ∀ d, takenUp d (g d)) (ds : List ArrayDesc) (d : ArrayDesc) :
    ∃ e, takenUp d e ∧ ((ds ++ [d]).modifyHead g).getLast? = some e := by
  cases ds with
  | nil => exact ⟨g d, hg d, rfl⟩
  | cons a ds => exact ⟨d, takenUp_refl d, by simp [List.getLast?_cons, List.getLast?_append]⟩

/-- A descriptor issued joins the queue behind those there; of the node only arrays, flash queues and violation counters may differ. -/
theorem enqueueDesc_queues (s : State) (loom f no : Nat) (task : Option Nat) (bad : Bool) (desc : List Byte) :
    ∃ d, takenUp (entering s f no task bad desc) d ∧ queuedBehind s (enqueueDesc s loom f no task bad desc) loom d ∧
      arraysMoved s (enqueueDesc s loom f no task bad desc) := by
  obtain ⟨-, hdescs, -, -⟩ := loomStands_beginHead (updLoom s loom (withBehind (entering s f no task bad desc))) loom
  obtain ⟨g, hg, hdq⟩ := beginHead_dq (updLoom s loom (withBehind (entering s f no task bad desc))) loom
  obtain ⟨e, he, hlast⟩ := getLast?_modifyHead g hg (loomOf s loom).dq (entering s f no task bad desc)
  rw [loomOf_updLoom_same] at hdescs hdq
  rw [enqueueDesc_eq]
  refine ⟨e, he, ⟨?_, ?_, fun l hl => ?_⟩, arraysMoved_trans (arraysMoved_of_loomsFlash s _ s.flash) (arraysMoved_beginHead _ loom)⟩
  · rw [hdescs, withBehind, List.map_append, he]
    rfl
  · rw [hdq]
    exact hlast
  · rw [loomOf_beginHead_other _ hl, loomOf_updLoom_other _ _ hl]

theorem enqueueDesc_of_atWork {s : State} {loom : Nat} (h : headAtWork s loom) (f no : Nat) (task : Option Nat) (bad : Bool)
    (desc : List Byte) : enqueueDesc s loom f no task bad desc = updLoom s loom (withBehind (entering s f no task bad desc)) := by
  obtain ⟨d, rest, hdq, hstarted⟩ := h
  rw [enqueueDesc_eq]
  refine beginHead_of_atWork ⟨d, rest ++ [entering s f no task bad desc], ?_, hstarted⟩
  rw [loomOf_updLoom_same, withBehind, hdq]
  rfl

/-! ### ISSUE (R284) -/

theorem issue_array {u : State} {c : ShCtx} (hv : fVfn c.w = 0) (hroom : (loomOf u c.loom).dq.length < 16) :
    c.issue u = enqueueDesc (c.put u 0) c.loom c.i.fn c.no none false c.desc := by
  simp only [ShCtx.issue, hv, if_neg (Nat.not_le.2 hroom)]

theorem issue_queues (s : State) (c : ShCtx) (h : atInstruction .issue s c) (hv : fVfn c.w = 0)
    (hroom : (loomOf s c.loom).dq.length < 16) :
    ∃ t d, exec (.issue c.sh) s = .next t ∧ shuttleAt s t c (c.x.setReg (fRd c.w) 0) (c.x.pc + 4) ∧ metersOnly s t ∧
      queuedBehind s t c.loom d ∧ d.desc = c.desc ∧ d.fn = c.i.fn ∧ d.inst = c.no ∧ d.task = none ∧ d.bad = false ∧
      t = { s with prog := t.prog, draught := t.draught, looms := t.looms, flash := t.flash, fns := t.fns } ∧
      (headAtWork s c.loom → (loomOf t c.loom).dq = (loomOf s c.loom).dq ++ [d] ∧
        t = { s with prog := t.prog, draught := t.draught, looms := t.looms }) := by
  obtain ⟨u, t, hu, ht, hexec⟩ := withIns_runs h (fun c s => c.issue s)
  have hloom (l : Nat) : loomOf (c.put u 0) l = loomOf s l := loomOf_of_looms (countsOnly_looms hu) l
  rw [issue_array hv (by rw [loomOf_of_looms (countsOnly_looms hu)]; exact hroom)] at ht
  obtain ⟨d, hd, ⟨hdescs, hlast, hothers⟩, hmoved, -⟩ := enqueueDesc_queues (c.put u 0) c.loom c.i.fn c.no none false c.desc
  have htloom (l : Nat) := loomOf_of_looms (countsOnly_looms ht) l
  have hprog : (enqueueDesc (c.put u 0) c.loom c.i.fn c.no none false c.desc).prog = (c.put u 0).prog := by rw [hmoved]
  refine ⟨t, d, hexec, shuttleAt_step (countsOnly_shuttles hu) ?_, metersOnly_through hu ht ?_, ⟨?_, ?_, fun l hl => ?_⟩,
    by rw [hd]; rfl, by rw [hd]; rfl, by rw [hd]; rfl, by rw [hd]; rfl, by rw [hd]; rfl, ?_, fun hwork => ?_⟩
  · rw [countsOnly_shuttles ht, hprog]
    rfl
  · rw [hprog]
    rfl
  · rw [htloom, hdescs, hloom]
  · rw [htloom]
    exact hlast
  · rw [htloom, hothers l hl, hloom]
  · rw [ht.1, hmoved, ShCtx.put, ShCtx.step, ShCtx.goto, hu.1]
    rfl
  · have hwork' : headAtWork (c.put u 0) c.loom := by
      obtain ⟨e, rest, hdq, hstarted⟩ := hwork
      exact ⟨e, rest, (congrArg Loom.dq (hloom c.loom)).trans hdq, hstarted⟩
    have heq := enqueueDesc_of_atWork hwork' c.i.fn c.no none false c.desc
    rw [heq] at ht hlast htloom
    have hdq : (loomOf t c.loom).dq = (loomOf s c.loom).dq ++ [entering (c.put u 0) c.i.fn c.no none false c.desc] := by
      rw [htloom, loomOf_updLoom_same, hloom]
      rfl
    rw [← htloom, hdq, List.getLast?_concat, Option.some.injEq] at hlast
    refine ⟨hlast ▸ hdq, ?_⟩
    rw [ht.1, ShCtx.put, ShCtx.step, ShCtx.goto, hu.1]
    rfl

theorem reedRejects_of_countsOnly {s u : State} (h : countsOnly s u) (i : Instance) (loom r : Nat) (feats : BitVec 128) (d : List Byte) :
    reedRejects u i loom r feats d = reedRejects s i loom r feats d := by
  rw [h.1]
  rfl

/-- A reed with a selection behind those queued. -/
def withSelection (d : ReedDesc) (x : Reed) : Reed := { x with queue := x.queue ++ [d] }

theorem issue_rejected {u : State} {c : ShCtx} (hv : fVfn c.w = 1)
    (hrej : reedRejects u c.i c.loom (c.loom / 8) c.i.features c.desc = true) :
    c.issue u = c.put u 1 := by
  simp only [ShCtx.issue, hv, hrej, if_true]

theorem issue_selection {u : State} {c : ShCtx} (hv : fVfn c.w = 1)
    (hrej : reedRejects u c.i c.loom (c.loom / 8) c.i.features c.desc = false) (hroom : (reedOf u (c.loom / 8)).queue.length < 16) :
    c.issue u = updReed (c.put u 0) (c.loom / 8) (withSelection { desc := c.desc, fn := c.i.fn, inst := c.no, loom := c.loom }) := by
  simp only [ShCtx.issue, hv, hrej, Bool.false_eq_true, if_false, if_neg (Nat.not_le.2 hroom)]
  rfl

theorem issue_selects (r : Nat) (s : State) (c : ShCtx) (h : atInstruction .issue s c) (hv : fVfn c.w = 1) (hr : r = c.loom / 8) :
    (reedRejects s c.i c.loom r c.i.features c.desc = true → ∃ t, exec (.issue c.sh) s = .next t ∧
      shuttleOnly s t c (c.x.setReg (fRd c.w) 1) (c.x.pc + 4)) ∧
    (reedRejects s c.i c.loom r c.i.features c.desc = false → (reedOf s r).queue.length < 16 →
      ∃ t, exec (.issue c.sh) s = .next t ∧ shuttleAt s t c (c.x.setReg (fRd c.w) 0) (c.x.pc + 4) ∧ metersOnly s t ∧
      (reedOf t r).queue = (reedOf s r).queue ++ [{ desc := c.desc, fn := c.i.fn, inst := c.no, loom := c.loom }] ∧
      (∀ k, k ≠ r → reedOf t k = reedOf s k) ∧ t = { s with prog := t.prog, draught := t.draught, reeds := t.reeds }) := by
  subst hr
  have hrow : exec (.issue c.sh) s = withIns .issue c.sh s (fun c s => c.issue s) := rfl
  rw [hrow]
  refine ⟨fun hrej => withIns_steps h fun u hu => issue_rejected hv ((reedRejects_of_countsOnly hu _ _ _ _ _).trans hrej),
    fun hrej hroom => ?_⟩
  obtain ⟨u, t, hu, ht, hexec⟩ := withIns_runs h (fun c s => c.issue s)
  have hreed (k : Nat) : reedOf (c.put u 0) k = reedOf s k := reedOf_of_reeds (congrArg Reeds.reeds (countsOnly_reeds hu)) k
  rw [issue_selection hv ((reedRejects_of_countsOnly hu _ _ _ _ _).trans hrej) (by
    rw [reedOf_of_reeds (congrArg Reeds.reeds (countsOnly_reeds hu))]; exact hroom)] at ht
  have htreed (k : Nat) := reedOf_of_reeds (congrArg Reeds.reeds (countsOnly_reeds ht)) k
  refine ⟨t, hexec, shuttleAt_step (countsOnly_shuttles hu) (countsOnly_shuttles ht :), metersOnly_through hu ht rfl, ?_,
    fun k hk => ?_, ?_⟩
  · rw [htreed, reedOf_updReed_same, hreed]
    rfl
  · rw [htreed, reedOf_updReed_other _ _ hk, hreed]
  · rw [ht.1, ShCtx.put, ShCtx.step, ShCtx.goto, hu.1]
    rfl

/-! ### IRQ (R285) -/

/-- What IRQ does. -/
def raiseVector (c : ShCtx) (s : State) : State :=
  if c.i.features.getLsbD 15 then raise (c.step s c.x) c.i.fn (fImm c.w) else c.step s c.x

theorem raise_sends {s : State} {f v : Nat} (h : canSend s f v = true) :
    raise s f v = emit s (.msix f v (AMap.getD (fnOf s f).msix v {}).addr (AMap.getD (fnOf s f).msix v {}).data) := if_pos h

theorem irq_sends (s : State) (c : ShCtx) (h : atInstruction .irq s c) (hfeat : c.i.features.getLsbD 15 = true)
    (hsend : canSend s c.i.fn (fImm c.w) = true) :
    ∃ t, exec (.irq c.sh) s = .next t ∧ shuttleAt s t c c.x (c.x.pc + 4) ∧
      t.sent = s.sent ++ [.msix c.i.fn (fImm c.w) (AMap.getD (fnOf s c.i.fn).msix (fImm c.w) {}).addr
        (AMap.getD (fnOf s c.i.fn).msix (fImm c.w) {}).data] ∧ t.fns = s.fns ∧ t.space = s.space ∧ t.prog.knots = s.prog.knots := by
  obtain ⟨u, t, hu, ht, hexec⟩ := withIns_runs h raiseVector
  have hsend' : canSend (c.step u c.x) c.i.fn (fImm c.w) = true := by
    rw [← hsend, ShCtx.step, ShCtx.goto, hu.1]
    rfl
  have hfn : fnOf (c.step u c.x) c.i.fn = fnOf s c.i.fn := fnOf_of_fns (countsOnly_fns hu) _
  rw [raiseVector, if_pos hfeat, raise_sends hsend', hfn] at ht
  refine ⟨t, hexec, shuttleAt_step (countsOnly_shuttles hu) (countsOnly_shuttles ht :), ?_,
    (countsOnly_fns ht).trans (countsOnly_fns hu :),
    (countsOnly_space ht).trans (countsOnly_space hu :), (countsOnly_knots ht).trans (countsOnly_knots hu :)⟩
  rw [countsOnly_sent ht, ← countsOnly_sent hu]
  rfl

/-! ### HALT (R301) -/

theorem taskPart_leaves {s : State} {no task n : Nat} {i : Instance} (hi : AMap.get? s.prog.instances no = some i)
    (hn : AMap.get? i.running task = some n) (h1 : 1 < n) :
    taskPart s no task = updInst s no (fun i => { i with running := AMap.insert i.running task (n - 1) }) := by
  simp only [taskPart, hi, hn, if_neg (Nat.not_le.2 h1)]

theorem halt_idles (n : Nat) (s : State) (c : ShCtx) (h : atInstruction .halt s c) (hn : AMap.get? c.i.running c.x.task = some n)
    (h1 : 1 < n) : ∃ t j, exec (.halt c.sh) s = .next t ∧ shuttleOf t c.sh = { state := .idle, inst := c.no } ∧
      AMap.get? t.prog.instances c.no = some j ∧ j.running = AMap.insert c.i.running c.x.task (n - 1) ∧
      (∀ h, h ≠ c.sh → shuttleOf t h = shuttleOf s h) ∧ t.prog.knots = s.prog.knots ∧ t.space = s.space ∧ t.fns = s.fns := by
  have hrow : exec (.halt c.sh) s = withIns .halt c.sh s
    (fun d s => taskPart (putShuttle s c.sh { state := .idle, inst := d.no }) d.no d.x.task) := rfl
  obtain ⟨u, t, hu, ht, hexec⟩ := withIns_runs h
    (fun d s => taskPart (putShuttle s c.sh { state := .idle, inst := d.no }) d.no d.x.task)
  obtain ⟨-, -, -, hi, -⟩ := h
  obtain ⟨m, hm⟩ := get?_of_countsOnly hu hi
  have hidle : AMap.get? (putShuttle u c.sh { state := .idle, inst := c.no }).prog.instances c.no = some (withMeters m c.i) := hm
  rw [taskPart_leaves hidle hn h1] at ht
  obtain ⟨m', hm'⟩ := get?_of_countsOnly ht (get?_updInst_same hidle _)
  rw [updInst_kept] at ht
  have hshuttle (k : Nat) : shuttleOf t k = shuttleOf (putShuttle u c.sh { state := .idle, inst := c.no }) k :=
    shuttleOf_of_shuttles (countsOnly_shuttles ht :) k
  refine ⟨t, _, hrow.trans hexec, ?_, hm', rfl, fun k hk => ?_, (countsOnly_knots ht).trans (countsOnly_knots hu :),
    (countsOnly_space ht).trans (countsOnly_space hu :), (countsOnly_fns ht).trans (countsOnly_fns hu :)⟩
  · rw [hshuttle, shuttleOf_putShuttle_same]
  · rw [hshuttle, shuttleOf_putShuttle_other _ _ hk, shuttleOf_of_shuttles (countsOnly_shuttles hu)]

/-! ### EXIT (R303) -/

/-- A program that ends takes its shuttles with it. -/
theorem instanceEnds_shuttles {s : State} {no : Nat} {i : Instance} (hi : AMap.get? s.prog.instances no = some i)
    (hrising : s.prog.shuttles.Pairwise (fun a b => a.1 < b.1)) (e : ExitInfo) {k : Nat} (hk : (shuttleOf s k).inst = no) :
    AMap.get? (instanceEnds s no e).prog.shuttles k = none := by
  obtain ⟨-, -, hkeys⟩ := quietly_afterGone quietly_arrive hi e
  have hgone := outside_instanceGone s no i e
  rw [outside, Prod.mk.injEq, Prod.mk.injEq] at hgone
  obtain ⟨-, -, hshuttles⟩ := hgone
  rw [hshuttles] at hkeys
  refine (get?_eq_none_iff _ _).2 fun hmem => not_mem_filter_keys hrising (fun x hx => ?_) (hkeys hmem)
  have hx' : shuttleOf s k = x := by rw [shuttleOf, AMap.getD, hx, Option.getD_some]
  rw [← hx', hk, bne_self_eq_false]

theorem exit_ends (s : State) (c : ShCtx) (h : atInstruction .exit s c) (hrising : s.prog.shuttles.Pairwise (fun a b => a.1 < b.1)) :
    ∃ t, exec (.exit c.sh) s = .next t ∧ AMap.get? t.prog.instances c.no = none ∧
      (∀ h, (shuttleOf s h).inst = c.no → AMap.get? t.prog.shuttles h = none) ∧ t.prog.faults = s.prog.faults ∧ t.sent = s.sent := by
  have hrow : exec (.exit c.sh) s =
    withIns .exit c.sh s (fun d s => instanceEnds s d.no (faultInfo s c.sh 5 0 d.x.pc d.ga)) := rfl
  obtain ⟨u, t, hu, ht, hexec⟩ := withIns_runs h (fun d s => instanceEnds s d.no (faultInfo s c.sh 5 0 d.x.pc d.ga))
  obtain ⟨-, -, -, hi, -⟩ := h
  obtain ⟨m, hm⟩ := get?_of_countsOnly hu hi
  obtain ⟨-, hnone⟩ := instanceEnds_ends u c.no (faultInfo u c.sh 5 0 c.x.pc c.ga)
  obtain ⟨hsent, hfaults, -⟩ := quietly_endInstance quietly_arrive u c.no (e := faultInfo u c.sh 5 0 c.x.pc c.ga) rfl
  refine ⟨t, hrow.trans hexec, countsOnly_noInstance ht hnone, fun k hk => ?_, ?_, ?_⟩
  · rw [countsOnly_shuttles ht]
    refine instanceEnds_shuttles hm ?_ _ ?_
    · rw [countsOnly_shuttles hu]
      exact hrising
    · rw [shuttleOf_of_shuttles (countsOnly_shuttles hu)]
      exact hk
  · exact (countsOnly_faults ht).trans (hfaults.trans (countsOnly_faults hu))
  · exact (countsOnly_sent ht).trans (hsent.trans (countsOnly_sent hu))

end Sys2Proof.Laws
end

section
/-! PROOFS. O35, the events of shuttles: a line fills the instruction buffer (R273), and an operand arrives, with the errors it met
(R286, R287, R516). -/

namespace Sys2Proof.Laws
open Sys2Proof Sys2Proof.Machine Sys2Proof.Safety

/-! ### FETCH_COMPLETE -/

/-- A loom whose instruction buffer has a line, in place of the one there longest where it is full. -/
def withLine (line : Nat × Nat) (l : Loom) : Loom :=
  if l.lines.contains line then l else { l with lines := (if 256 ≤ l.lines.length then l.lines.drop 1 else l.lines) ++ [line] }

theorem withLine_contains (line : Nat × Nat) (l : Loom) : (withLine line l).lines.contains line = true := by
  unfold withLine
  split
  · assumption
  · simp

theorem fetchComplete_readies (sh : Nat) (i : Instance) (s : State) (hwait : (shuttleOf s sh).state = .waitFetch)
    (hi : AMap.get? s.prog.instances (shuttleOf s sh).inst = some i) :
    ∃ t, exec (.fetchComplete sh) s = .next t ∧ lineHere t i.image (sh / 128) (shuttleOf s sh).pc.toNat = true ∧
      shuttleOf t sh = { shuttleOf s sh with state := .ready } ∧ (∀ h, h ≠ sh → shuttleOf t h = shuttleOf s h) ∧
      t = { s with prog := t.prog, looms := t.looms } := by
  have hexec : exec (.fetchComplete sh) s = .next (putShuttle
      (updLoom s (sh / 128) (withLine (i.image, (shuttleOf s sh).pc.toNat / 256))) sh { shuttleOf s sh with state := .ready }) := by
    simp only [exec, execFetchComplete, hwait, hi]
    rfl
  have hloom : loomOf (putShuttle (updLoom s (sh / 128) (withLine (i.image, (shuttleOf s sh).pc.toNat / 256))) sh
      { shuttleOf s sh with state := .ready }) (sh / 128) = withLine (i.image, (shuttleOf s sh).pc.toNat / 256) (loomOf s (sh / 128)) :=
    loomOf_updLoom_same s _ _
  refine ⟨_, hexec, ?_, shuttleOf_putShuttle_same _ sh _, fun h hne => shuttleOf_putShuttle_other _ _ hne, rfl⟩
  rw [lineHere, hloom]
  exact withLine_contains _ _

/-! ### Errors that are corrected (R516) -/

/-- A byte of a granule that is not lost has its frame. -/
theorem frame_kept {o : Obj} {ver off : Nat} {v : Version} {fr : Frame} (hv : verOf o ver = some v)
    (hfr : frameOf o v (off / granule) = some fr) (h : lostRange o ver off 1 = false) : fr.lost = false := by
  have hfirst : 0 ∈ List.range (granules (off + 1) - off / granule) := by
    rw [List.mem_range, granules, ceilDiv, granule]
    omega
  simp only [lostRange, hv, ne_eq, one_ne_zero, not_false_eq_true, decide_true, Bool.true_and] at h
  simpa [hfr] using List.any_eq_false.1 h 0 hfirst

/-- At most corrected errors have been counted, of a clean read none. -/
def onlyCorrected (e : Ecc) (s u : State) : Prop :=
  u = { s with looms := u.looms, service := u.service, stk := u.stk } ∧ (e = .clean → u = s)

theorem onlyCorrected_refl (e : Ecc) (s : State) : onlyCorrected e s s := ⟨rfl, fun _ => rfl⟩

theorem onlyCorrected_weaveError {e : Ecc} (he : e ≠ .uncorrectable) (s : State) (loom no : Nat) :
    onlyCorrected e s (weaveError s loom no e) := by
  cases e with
  | clean => exact onlyCorrected_refl _ s
  | corrected => exact ⟨rfl, fun h => Ecc.noConfusion h⟩
  | uncorrectable => exact absurd rfl he

theorem onlyCorrected_countEcc {e : Ecc} (he : e ≠ .uncorrectable) (s : State) (stack : Nat) :
    onlyCorrected e s (countEcc s stack e) := by
  cases e with
  | clean => exact onlyCorrected_refl _ s
  | corrected => exact ⟨rfl, fun h => Ecc.noConfusion h⟩
  | uncorrectable => exact absurd rfl he

/-- A load that met no uncorrectable error, and whose granule is not lost, returns its value. -/
theorem loadError_returns {s : State} {sh : Nat} {p : Operand} {e : Ecc} (he : e ≠ .uncorrectable)
    (hgood : ∀ i, AMap.get? s.prog.instances (shuttleOf s sh).inst = some i → progBad .lost s i p.addr 1 = false) :
    ∃ u, loadError s sh p e = (u, true) ∧ onlyCorrected e s u := by
  have hreturn : (e != .uncorrectable) = true := by simpa using he
  unfold loadError
  dsimp only
  split
  · exact ⟨_, by rw [hreturn], onlyCorrected_weaveError he s _ _⟩
  · next addr i haddr hi =>
    split
    · next oid off hplace =>
      split
      · exact ⟨s, rfl, onlyCorrected_refl e s⟩
      · next fr hfr =>
        obtain ⟨o, ho, hbind⟩ := Option.bind_eq_some_iff.1 hfr
        obtain ⟨v, hv, hframe⟩ := Option.bind_eq_some_iff.1 hbind
        have hlost : lostRange o (progVersion i oid o) off 1 = false := by
          simpa only [progBad, haddr, hplace, ho, Option.any_some, rangeBad, Bool.or_false] using hgood i hi
        have hkept := frame_kept hv hframe hlost
        split
        · exact ⟨s, by rw [hkept]; rfl, onlyCorrected_refl e s⟩
        · exact ⟨_, rfl, onlyCorrected_countEcc he s _⟩
    · exact ⟨s, rfl, onlyCorrected_refl e s⟩
  · exact ⟨s, rfl, onlyCorrected_refl e s⟩

/-! ### OPERAND_ARRIVE -/

/-- A shuttle whose operand has reached its register (R286). -/
def operandTaken (x : Shuttle) (p : Operand) : Shuttle :=
  let y := if p.vector then x.setVec p.reg p.value else x.setReg p.reg (p.value.setWidth 64)
  { y with pending := x.pending.erase p, state := if x.state = .waitMem then .ready else x.state }

theorem exec_operandArrive {sh : Nat} {e : Ecc} {p : Operand} {s : State}
    (hp : (shuttleOf s sh).pending.find? (fun q => !q.held) = some p) :
    exec (.operandArrive sh e) s = .next (if (loadError s sh p e).2 then
      putShuttle (loadError s sh p e).1 sh (operandTaken (shuttleOf s sh) p) else (loadError s sh p e).1) := by
  simp only [exec, execOperandArrive, hp]
  cases (loadError s sh p e).2 <;> rfl

theorem operandArrive_fills (sh : Nat) (e : Ecc) (p : Operand) (s : State)
    (hp : (shuttleOf s sh).pending.find? (fun q => !q.held) = some p) (hscalar : p.vector = false) (hreg : p.reg ≠ 0)
    (he : e ≠ .uncorrectable)
    (hgood : ∀ i, AMap.get? s.prog.instances (shuttleOf s sh).inst = some i → progBad .lost s i p.addr 1 = false) :
    ∃ t, exec (.operandArrive sh e) s = .next t ∧ (shuttleOf t sh).reg p.reg = p.value.setWidth 64 ∧
      (∀ r, r ≠ p.reg → (shuttleOf t sh).reg r = (shuttleOf s sh).reg r) ∧ (shuttleOf t sh).pending = (shuttleOf s sh).pending.erase p ∧
      (∀ h, h ≠ sh → shuttleOf t h = shuttleOf s h) ∧
      t = { s with prog := t.prog, looms := t.looms, service := t.service, stk := t.stk } ∧
      (e = .clean → t = { s with prog := t.prog }) := by
  obtain ⟨u, hu, hframe, hclean⟩ := loadError_returns he hgood
  have hexec := exec_operandArrive (e := e) hp
  rw [hu, if_pos rfl] at hexec
  have hreg' (r : Nat) : (operandTaken (shuttleOf s sh) p).reg r = ((shuttleOf s sh).setReg p.reg (p.value.setWidth 64)).reg r := by
    simp only [operandTaken, hscalar, Bool.false_eq_true, if_false]
    rfl
  refine ⟨_, hexec, ?_, fun r hr => ?_, ?_, fun h hne => ?_, ?_, fun hc => ?_⟩
  · rw [shuttleOf_putShuttle_same, hreg', reg_setReg_same _ hreg]
  · rw [shuttleOf_putShuttle_same, hreg', reg_setReg_other _ hr]
  · rw [shuttleOf_putShuttle_same]
    rfl
  · rw [shuttleOf_putShuttle_other _ _ hne, hframe]
    rfl
  · rw [hframe]
    rfl
  · rw [hclean hc]
    rfl

/-- An uncorrectable error of a weave store takes the loom out of service and ends the program that met it (R516). -/
theorem operandArrive_uncorrectable (sh off : Nat) (p : Operand) (s : State)
    (hp : (shuttleOf s sh).pending.find? (fun q => !q.held) = some p) (haddr : shAddr p.addr = .weave off) :
    ∃ t, exec (.operandArrive sh .uncorrectable) s = .next t ∧ (loomOf t (sh / 128)).out = true ∧
      (loomOf t (sh / 128)).ue = satAdd (loomOf s (sh / 128)).ue 1 ∧ AMap.get? t.prog.instances (shuttleOf s sh).inst = none := by
  have herror : loadError s sh p .uncorrectable =
      (instanceEnds (updLoom s (sh / 128) loomOut) (shuttleOf s sh).inst { code := 1 }, false) := by
    simp only [loadError, haddr]
    rfl
  have hexec := exec_operandArrive (e := .uncorrectable) hp
  rw [herror] at hexec
  obtain ⟨⟨-, hmarks, -⟩, hnone⟩ := instanceEnds_ends (updLoom s (sh / 128) loomOut) (shuttleOf s sh).inst { code := 1 }
  obtain ⟨hout, hue⟩ := hmarks (sh / 128)
  rw [loomOf_updLoom_same] at hout hue
  exact ⟨_, hexec, hout, hue, hnone⟩

/-- Settles O35, instruction by instruction and event by event. -/
theorem shuttlesAndKnots : Obligations.ShuttlesAndKnots :=
  ⟨karr_counts, kwait_waits, kset_sets, issue_queues, issue_selects, irq_sends, halt_idles,
    fun s c h hrising _ => exit_ends s c h hrising, fetchComplete_readies, operandArrive_fills, operandArrive_uncorrectable⟩

end Sys2Proof.Laws
end

section
/-! PROOFS. O52: the duplicate window of R395 and R430, and the rows that bring packets, each with what it does on a duplicate
and without its key. -/

namespace Sys2Proof.Laws
open Sys2Proof Sys2Proof.Machine Sys2Proof.Safety

/-! ### Extended sequence numbers -/

/-- The extended number of SEQ is congruent to it (R430). -/
theorem extend_mod (high : Nat) {q : Nat} (hq : q < 2 ^ 32) : extend high q % 2 ^ 32 = q := by
  unfold extend
  dsimp only
  split_ifs with h h' <;> simp only [Bool.and_eq_true, decide_eq_true_eq] at h <;> omega

/-- Of the number at the top of what was accepted, the extended number is that number. -/
theorem extend_of_mod {high q : Nat} (h : high % 2 ^ 32 = q) : extend high q = high := by
  unfold extend
  dsimp only
  have hv : high / 2 ^ 32 * 2 ^ 32 + q = high := by omega
  rw [hv, if_neg (by simp), if_neg (by omega)]

/-- Once a number is accepted, its SEQ stands for it again. -/
theorem extend_accepted (high : Nat) {q : Nat} (hq : q < 2 ^ 32) : extend (max (extend high q) high) q = extend high q := by
  rcases Nat.le_total high (extend high q) with h | h
  · rw [Nat.max_eq_left h, extend_of_mod (extend_mod high hq)]
  · rw [Nat.max_eq_right h]

/-! ### The window of a source -/

/-- The number that SEQ from a source stands for (R430). -/
def extendedSeq (s : State) (f key src : Nat) (seq : BitVec 32) : Nat := extend ((highOf s f key src).getD 0) seq.toNat

/-- The numbers in the window of a source, none before one is accepted under the key (R395, R430). -/
def seenFrom (s : State) (f key src : Nat) : List Nat :=
  if (highOf s f key src).isSome then AMap.getD s.fabric.recv src [] else []

/-- A number is refused: it is in the window, or it lies below it (R395). -/
def refused (w : List Nat) (n : Nat) : Bool := w.contains n || decide (n + 4096 ≤ w.foldl max 0)

/-- The state that has taken in a number of a source. -/
def numberTaken (s : State) (f key src n : Nat) : State :=
  { s with fabric := { s.fabric with
    recv := AMap.insert s.fabric.recv src (windowWith (seenFrom s f key src) n)
    recvKeys := s.fabric.recvKeys.filter (fun e => !(e.1 == f && e.2.1 == key && e.2.2.1 == src)) ++
      [(f, key, src, max n ((highOf s f key src).getD 0))] } }

theorem takeSeq_eq (s : State) (f key src : Nat) (seq : BitVec 32) :
    takeSeq s f key src seq = if refused (seenFrom s f key src) (extendedSeq s f key src seq) then none
      else some (numberTaken s f key src (extendedSeq s f key src seq)) := by
  unfold takeSeq numberTaken extendedSeq seenFrom refused
  cases highOf s f key src <;> rfl

theorem takeSeq_isSome (s : State) (f key src : Nat) (seq : BitVec 32) :
    (takeSeq s f key src seq).isSome = !refused (seenFrom s f key src) (extendedSeq s f key src seq) := by
  rw [takeSeq_eq]
  cases refused (seenFrom s f key src) (extendedSeq s f key src seq) <;> rfl

theorem takeSeq_eq_some {s t : State} {f key src : Nat} {seq : BitVec 32} (h : takeSeq s f key src seq = some t) :
    refused (seenFrom s f key src) (extendedSeq s f key src seq) = false ∧
      t = numberTaken s f key src (extendedSeq s f key src seq) := by
  rw [takeSeq_eq] at h
  split at h
  · cases h
  · exact ⟨Bool.not_eq_true _ ▸ ‹_›, (Option.some.inj h).symm⟩

theorem highOf_numberTaken_same (s : State) (f key src n : Nat) :
    highOf (numberTaken s f key src n) f key src = some (max n ((highOf s f key src).getD 0)) := by
  have hgone : (s.fabric.recvKeys.filter (fun e => !(e.1 == f && e.2.1 == key && e.2.2.1 == src))).find?
      (fun e => e.1 == f && e.2.1 == key && e.2.2.1 == src) = none :=
    List.find?_eq_none.2 (fun e he => by simpa only [Bool.not_eq_true', Bool.not_eq_true] using (List.mem_filter.1 he).2)
  rw [highOf, numberTaken, List.find?_append, hgone]
  simp

theorem highOf_numberTaken_other (s : State) (f key src n g key' : Nat) {src' : Nat} (h : src' ≠ src) :
    highOf (numberTaken s f key src n) g key' src' = highOf s g key' src' := by
  have hnew : [(f, key, src, max n ((highOf s f key src).getD 0))].find?
      (fun e => e.1 == g && e.2.1 == key' && e.2.2.1 == src') = none := by simp [Ne.symm h]
  have hkept : (s.fabric.recvKeys.filter (fun e => !(e.1 == f && e.2.1 == key && e.2.2.1 == src))).find?
      (fun e => e.1 == g && e.2.1 == key' && e.2.2.1 == src') =
      s.fabric.recvKeys.find? (fun e => e.1 == g && e.2.1 == key' && e.2.2.1 == src') := by
    rw [List.find?_filter]
    refine congrArg (List.find? · _) (funext fun e => ?_)
    rw [Bool.eq_iff_iff, decide_eq_true_eq]
    refine and_iff_right_of_imp (fun he => ?_)
    simp only [Bool.and_eq_true, beq_iff_eq] at he
    simp [he, h]
  rw [highOf, numberTaken, List.find?_append, hkept, hnew, Option.or_none, highOf]

theorem seenFrom_numberTaken_same (s : State) (f key src n : Nat) :
    seenFrom (numberTaken s f key src n) f key src = windowWith (seenFrom s f key src) n := by
  rw [seenFrom, highOf_numberTaken_same]
  exact AMap.getD_insert_same _ _ _ _

theorem seenFrom_numberTaken_other (s : State) (f key src n g key' : Nat) {src' : Nat} (h : src' ≠ src) :
    seenFrom (numberTaken s f key src n) g key' src' = seenFrom s g key' src' := by
  rw [seenFrom, highOf_numberTaken_other s f key src n g key' h]
  exact congrArg (ite _ · _) (AMap.getD_insert_other _ _ _ _ _ (Ne.symm h))

theorem refused_eq_false_iff (w : List Nat) (n : Nat) : refused w n = false ↔ n ∉ w ∧ w.foldl max 0 < n + 4096 := by
  simp [refused]

theorem refused_of_mem {w : List Nat} {n : Nat} (h : n ∈ w) : refused w n = true := by
  simp [refused, h]

theorem mem_windowWith_iff (w : List Nat) (n x : Nat) :
    x ∈ windowWith w n ↔ x ∈ n :: w ∧ (n :: w).foldl max 0 < x + 4096 := by
  simp only [windowWith, List.mem_filter, decide_eq_true_eq]

theorem extendedSeq_numberTaken_same (s : State) (f key src : Nat) (seq : BitVec 32) :
    extendedSeq (numberTaken s f key src (extendedSeq s f key src seq)) f key src seq = extendedSeq s f key src seq := by
  have hhigh := highOf_numberTaken_same s f key src (extendedSeq s f key src seq)
  have haccepted := extend_accepted ((highOf s f key src).getD 0) seq.isLt
  rw [← extendedSeq] at haccepted
  rw [extendedSeq, hhigh, Option.getD_some]
  exact haccepted

/-- A number that was not refused is in the window with it. -/
theorem mem_windowWith {w : List Nat} {n : Nat} (h : refused w n = false) : n ∈ windowWith w n := by
  obtain ⟨-, htop⟩ := (refused_eq_false_iff w n).1 h
  have hmax : (n :: w).foldl max 0 = max n (w.foldl max 0) := by
    rw [List.foldl_cons, Nat.max_comm, List.foldl_assoc]
  rw [mem_windowWith_iff, hmax]
  exact ⟨List.mem_cons_self, by omega⟩

/-- A number accepted from a source is not accepted again (R395). -/
theorem takeSeq_once (f key src : Nat) (q : BitVec 32) (s t : State) (h : takeSeq s f key src q = some t) :
    takeSeq t f key src q = none := by
  obtain ⟨hfresh, rfl⟩ := takeSeq_eq_some h
  have hrefused : refused (windowWith (seenFrom s f key src) (extendedSeq s f key src q)) (extendedSeq s f key src q) = true :=
    refused_of_mem (mem_windowWith hfresh)
  rw [takeSeq_eq, extendedSeq_numberTaken_same, seenFrom_numberTaken_same, if_pos hrefused]

/-- A number taken in from a source is nothing to another source. -/
theorem takeSeq_other_source (f key src g key' src' : Nat) (q q' : BitVec 32) (s t : State)
    (h : takeSeq s f key src q = some t) (hne : src' ≠ src) :
    (takeSeq t g key' src' q').isSome = (takeSeq s g key' src' q').isSome := by
  obtain ⟨-, rfl⟩ := takeSeq_eq_some h
  rw [takeSeq_isSome, takeSeq_isSome, seenFrom_numberTaken_other _ _ _ _ _ _ _ hne, extendedSeq,
    highOf_numberTaken_other _ _ _ _ _ _ _ hne, extendedSeq]

/-! ### The three ways in -/

section
variable {s : State} {p : Packet} {compressible room : Bool} {act : State → State}

theorem withPacket_unnumbered (hnode : s.fabric.node = 0xFFFF) : withPacket s p compressible room act = .next s := if_pos hnode

theorem withPacket_keyless (hnode : s.fabric.node ≠ 0xFFFF) (hkey : (fnOf s p.fn).rxKeys.any (·.1 == p.keyId) = false) :
    withPacket s p compressible room act = .next (updPort s p.port (fun x => { x with tagDrops := satAdd x.tagDrops 1 })) := by
  rw [withPacket, if_neg hnode, if_pos (by rw [hkey]; rfl)]

theorem withPacket_duplicate (hnode : s.fabric.node ≠ 0xFFFF) (hkey : (fnOf s p.fn).rxKeys.any (·.1 == p.keyId) = true)
    (hplain : p.compressed = false) (hseq : takeSeq s p.fn p.keyId p.src p.seq = none) :
    withPacket s p compressible room act = .next (ackPacket s p.src p.fn p.seq) := by
  rw [withPacket, if_neg hnode, if_neg (by simp [hkey, hplain]), hseq]

end

section
variable {s : State} {src : Nat} {q : BitVec 32} {act : State → State}

theorem withNodePacket_duplicate (hnode : s.fabric.node ≠ 0xFFFF) (hkey : s.glaesh.nodeKey.isSome = true)
    (hseq : takeSeq s nodeKeyFn 0 src q = none) : withNodePacket s src q act = .next (ackPacket s src 0 q) := by
  rw [withNodePacket, if_neg (by simpa [Option.isSome_iff_ne_none.1 hkey] using hnode), hseq]

theorem withComposition_keyless (hkey : s.glaesh.compKey = none) : withComposition s src q act = .next s :=
  if_pos (by rw [hkey]; rfl)

theorem withComposition_duplicate (hkey : s.glaesh.compKey.isSome = true) (hseq : takeSeq s compKeyFn 0 src q = none) :
    withComposition s src q act = .next (ackPacket s src 0 q) := by
  rw [withComposition, if_neg (by simp [Option.isSome_iff_ne_none.1 hkey]), hseq]

end

/-! ### The rows -/

/-- The rows of packets under a function's key share one way in (R394, R429). -/
theorem exec_packetRow {c : Instr} {p : Packet} {us member : Nat} {fs : ReplyFields} {ms : List Nat}
    (hc : c = .request p us ∨ c = .reply p fs ∨ c = .contribution p ms member ∨ c = .delivery p ms ∨ c = .push p) (s : State) :
    ∃ compressible room act, exec c s = withPacket s p compressible room act := by
  rcases hc with rfl | rfl | rfl | rfl | rfl
  all_goals
    simp only [exec, execRequest, execReply, execContribution, execDelivery, execPush]
    exact ⟨_, _, _, rfl⟩

/-- The rows of composition packets share another (R397, R429). -/
theorem exec_compositionRow {c : Instr} {src fn first : Nat} {q cseq features domain epoch ms : BitVec 32} {a b m : BitVec 16}
    {g : Option Nat}
    (hc : c = .node src q cseq a b ms ∨ c = .route src q cseq a b m ∨ c = .tenant src q cseq fn features ∨
      c = .epoch src q cseq first domain epoch a ∨ c = .drain src q cseq g ∨ c = .undrain src q cseq g) (s : State) :
    ∃ act, exec c s = withComposition s src q act := by
  rcases hc with rfl | rfl | rfl | rfl | rfl | rfl
  all_goals
    simp only [exec]
    exact ⟨_, rfl⟩

theorem exec_moved_duplicate (src fn domain : Nat) (q epoch : BitVec 32) (node : BitVec 16) (s : State)
    (hnode : s.fabric.node ≠ 0xFFFF) (hkey : s.glaesh.nodeKey.isSome = true) (hseq : takeSeq s nodeKeyFn 0 src q = none) :
    exec (.moved src q fn domain epoch node) s = .next (ackPacket s src 0 q) := by
  simp only [exec]
  exact withNodePacket_duplicate hnode hkey hseq

/-- Settles O52, by the window and by each row's way in. -/
theorem packetsArriveOnce : Obligations.PacketsArriveOnce := by
  refine ⟨takeSeq_once, takeSeq_other_source, fun c p us member fs ms s hc hnode hkey hplain hseq => ?_,
    fun c p us member fs ms s hc => ?_, exec_moved_duplicate,
    fun c src fn first q cseq features domain epoch ms a b m g s hc => ?_⟩
  · obtain ⟨_, _, _, hrow⟩ := exec_packetRow hc s
    rw [hrow, withPacket_duplicate hnode hkey hplain hseq]
  · obtain ⟨_, _, _, hrow⟩ := exec_packetRow hc s
    rw [hrow]
    exact ⟨fun hnode => withPacket_unnumbered hnode, fun hnode hkey => withPacket_keyless hnode hkey⟩
  · obtain ⟨_, hrow⟩ := exec_compositionRow hc s
    rw [hrow]
    exact ⟨fun hkey => withComposition_keyless hkey, fun hkey hseq => withComposition_duplicate hkey hseq⟩

end Sys2Proof.Laws
end

section
/-! PROOFS. O54: what traffic keeps of the fabric, then each composition action behind its sequence. -/

namespace Sys2Proof.Laws
open Sys2Proof Sys2Proof.Machine Sys2Proof.Safety

/-! ### Traffic -/

/-- Of a fabric, only what traffic moves differs: ports, the numbers sent and taken in, and the packets kept. -/
def trafficIn (x y : Fabric) : Prop :=
  y = { x with ports := y.ports, sendSeq := y.sendSeq, recv := y.recv, recvKeys := y.recvKeys, retained := y.retained }

/-- Packets have been taken in, have gone out or have come to wait. -/
def trafficOnly (s t : State) : Prop := sendsOnly s t ∧ trafficIn s.fabric t.fabric

theorem trafficOnly_refl (s : State) : trafficOnly s s := ⟨sendsOnly_refl s, rfl⟩

theorem trafficIn_trans {x y z : Fabric} (h : trafficIn x y) (h' : trafficIn y z) : trafficIn x z := by
  unfold trafficIn at *
  rw [h', h]

theorem trafficOnly_trans {s t u : State} (h : trafficOnly s t) (h' : trafficOnly t u) : trafficOnly s u :=
  ⟨sendsOnly_trans h.1 h'.1, trafficIn_trans h.2 h'.2⟩

theorem trafficOnly_foldl {α : Type} {g : State → α → State} (h : ∀ s x, trafficOnly s (g s x)) (xs : List α) (s : State) :
    trafficOnly s (xs.foldl g s) := by
  induction xs generalizing s with
  | nil => exact trafficOnly_refl s
  | cons x xs ih => exact trafficOnly_trans (h s x) (ih _)

section
variable {s t : State} (h : trafficOnly s t)
include h

theorem trafficOnly_fns : t.fns = s.fns := (congrArg State.fns h.1 :)
theorem trafficOnly_sched : t.sched = s.sched := (congrArg State.sched h.1 :)
theorem trafficOnly_space : t.space = s.space := (congrArg State.space h.1 :)
theorem trafficOnly_node : t.fabric.node = s.fabric.node := (congrArg Fabric.node h.2 :)
theorem trafficOnly_cseq : t.fabric.cseq = s.fabric.cseq := (congrArg Fabric.cseq h.2 :)
theorem trafficOnly_routes : t.fabric.routes = s.fabric.routes := (congrArg Fabric.routes h.2 :)
theorem trafficOnly_unreachable : t.fabric.unreachable = s.fabric.unreachable := (congrArg Fabric.unreachable h.2 :)
theorem trafficOnly_domains : t.fabric.domains = s.fabric.domains := (congrArg Fabric.domains h.2 :)

theorem trafficOnly_fnOf (f : Nat) : fnOf t f = fnOf s f := fnOf_of_fns (trafficOnly_fns h) f

/-- Traffic moves no domain to another epoch. -/
theorem trafficOnly_domainEpoch (f id : Nat) : domainEpoch t f id = domainEpoch s f id := by
  unfold domainEpoch domainOf objOf
  rw [trafficOnly_fnOf h, trafficOnly_space h, trafficOnly_domains h]

/-- A function's record changed after traffic is the record before it, changed; the others are as they were. -/
theorem fnOf_updFn_of_traffic (f : Nat) (k : FnState → FnState) :
    fnOf (updFn t f k) f = k (fnOf s f) ∧ ∀ g, g ≠ f → fnOf (updFn t f k) g = fnOf s g := by
  refine ⟨?_, fun g hg => ?_⟩
  · rw [fnOf_updFn_same, trafficOnly_fnOf h]
  · rw [fnOf_updFn_other t f g k (Ne.symm hg), trafficOnly_fnOf h]

end

theorem trafficOnly_retained (s : State) (rs : List Retained) :
    trafficOnly s { s with fabric := { s.fabric with retained := rs } } := ⟨rfl, rfl⟩

theorem trafficOnly_sendSeq (s : State) (seqs : AMap (BitVec 64)) :
    trafficOnly s { s with fabric := { s.fabric with sendSeq := seqs } } := ⟨rfl, rfl⟩

theorem trafficOnly_chargeEgress (s : State) (p : Nat) (r : Retained) : trafficOnly s (chargeEgress s p r) := by
  unfold chargeEgress
  split <;> exact ⟨rfl, rfl⟩

theorem trafficOnly_wakeEgress (s : State) (p : Nat) (r : Retained) : trafficOnly s (wakeEgress s p r) := by
  unfold wakeEgress
  split <;> exact ⟨rfl, rfl⟩

theorem trafficOnly_launch (s : State) (r : Retained) (p : Nat) : trafficOnly s (launch s r p) := by
  unfold launch
  dsimp only
  refine trafficOnly_trans (trafficOnly_chargeEgress s p r) ?_
  generalize chargeEgress s p r = u
  split <;> exact ⟨rfl, rfl⟩

theorem trafficOnly_pump (n : Nat) (s : State) (p : Nat) : trafficOnly s (pump n s p) := by
  induction n generalizing s with
  | zero => exact trafficOnly_refl s
  | succ n ih =>
    unfold pump
    split
    · exact trafficOnly_refl s
    · split
      · exact trafficOnly_trans (trafficOnly_launch s _ p) (ih _)
      · exact trafficOnly_refl s

theorem trafficOnly_enqueuePacket (s : State) (r : Retained) : trafficOnly s (enqueuePacket s r) :=
  trafficOnly_trans (trafficOnly_wakeEgress s r.port r) (trafficOnly_trans (trafficOnly_retained _ _) (trafficOnly_pump _ _ r.port))

theorem trafficOnly_sendPacket (s : State) (kind dst f : Nat) (epoch : Word) (ctx offset : Nat) (last comp : Bool)
    (extra : List Nat) (data : List Byte) :
    trafficOnly s (sendPacket s kind dst f epoch ctx offset last comp extra data) := by
  unfold sendPacket
  split
  · exact trafficOnly_refl s
  · split
    · exact trafficOnly_refl s
    · exact trafficOnly_trans (trafficOnly_sendSeq s _) (trafficOnly_enqueuePacket _ _)

/-- A member's contributions go out again (R404, R407). -/
theorem trafficOnly_sendParts (s : State) (c : Coll) : trafficOnly s (sendParts s c) :=
  trafficOnly_foldl (fun _ _ => trafficOnly_foldl (fun _ _ => trafficOnly_sendPacket _ _ _ _ _ _ _ _ _ _ _) _ _) _ s

theorem trafficOnly_takeSeq {s t : State} {f key src : Nat} {q : BitVec 32} (h : takeSeq s f key src q = some t) :
    trafficOnly s t := by
  obtain ⟨-, rfl⟩ := takeSeq_eq_some h
  exact ⟨rfl, rfl⟩

/-- A packet is taken in and acknowledged (R395). -/
theorem trafficOnly_acknowledged {s t : State} {f key src g : Nat} {q : BitVec 32} (h : takeSeq s f key src q = some t) :
    trafficOnly s (ackPacket t src g q) :=
  trafficOnly_trans (trafficOnly_takeSeq h) (trafficOnly_sendPacket _ _ _ _ _ _ _ _ _ _ _)

/-! ### The sequence of the run-time (R397) -/

theorem withComposition_accepted {s s' : State} {src : Nat} {q : BitVec 32} {act : State → State}
    (hkey : s.glaesh.compKey.isSome = true) (hseq : takeSeq s compKeyFn 0 src q = some s') :
    withComposition s src q act = .next (act (ackPacket s' src 0 q)) := by
  rw [withComposition, if_neg (by simp [Option.isSome_iff_ne_none.1 hkey]), hseq]

theorem composed_later {s : State} {cseq : BitVec 32} {ok : Bool} {act : State → State} (hok : ok = true)
    (hlater : s.fabric.cseq.toNat < cseq.toNat) : composed s cseq ok act = setCseq (act s) cseq false :=
  if_pos (by rw [hok, cseqOk, decide_eq_true hlater]; rfl)

theorem composed_not_later {s : State} {cseq : BitVec 32} {ok : Bool} {act : State → State}
    (hold : cseq.toNat ≤ s.fabric.cseq.toNat) : composed s cseq ok act = s :=
  if_neg (by simp [cseqOk, Nat.not_lt.2 hold])

theorem fnOf_setCseq (s : State) (cseq : BitVec 32) (f : Nat) : fnOf (setCseq s cseq false) f = fnOf s f := rfl

section
variable {c : Instr} {src : Nat} {q cseq : BitVec 32} {ok : Bool} {act : State → State} {s s' : State}
  (hrow : exec c s = withComposition s src q (fun u => composed u cseq ok act))
  (hkey : s.glaesh.compKey.isSome = true) (hseq : takeSeq s compKeyFn 0 src q = some s')
include hrow hkey hseq

/-- A message of a later sequence acts on the state that has acknowledged it, and its sequence is the last applied. -/
theorem exec_of_later (hok : ok = true) (hlater : s.fabric.cseq.toNat < cseq.toNat) :
    ∃ u, trafficOnly s u ∧ exec c s = .next (setCseq (act u) cseq false) := by
  have hu := trafficOnly_acknowledged (g := 0) hseq
  refine ⟨_, hu, ?_⟩
  rw [hrow, withComposition_accepted hkey hseq, composed_later hok (by rwa [trafficOnly_cseq hu])]

/-- A message that is not later is acknowledged alone. -/
theorem exec_of_not_later (hold : cseq.toNat ≤ s.fabric.cseq.toNat) : exec c s = .next (ackPacket s' src 0 q) := by
  have hu := trafficOnly_acknowledged (g := 0) hseq
  rw [hrow, withComposition_accepted hkey hseq, composed_not_later (by rwa [trafficOnly_cseq hu])]

end

/-! ### NODE, TENANT, DRAIN and UNDRAIN -/

theorem exec_node (src : Nat) (q cseq ms : BitVec 32) (n rt : BitVec 16) (s : State) :
    exec (.node src q cseq n rt ms) s = withComposition s src q (fun u =>
      composed u cseq (n.toNat ≤ 4095 && 10 ≤ ms.toNat && ms.toNat ≤ 10000) (applyNode · n rt ms)) := by
  simp only [exec, execNode]

theorem exec_tenant (src fn : Nat) (q cseq features : BitVec 32) (s : State) :
    exec (.tenant src q cseq fn features) s =
      withComposition s src q (fun u => composed u cseq true (applyTenant · fn features)) := by
  simp only [exec, execTenant]

theorem exec_drains {c : Instr} {on : Bool} {src : Nat} {q cseq : BitVec 32} {g : Option Nat}
    (hc : (c = .drain src q cseq g ∧ on = true) ∨ (c = .undrain src q cseq g ∧ on = false)) (s : State) :
    exec c s = withComposition s src q (fun u => composed u cseq true (applyDrain · g on)) := by
  rcases hc with ⟨rfl, rfl⟩ | ⟨rfl, rfl⟩
  · simp only [exec, execDrain]
  · simp only [exec, execUndrain]

theorem node_applies (src : Nat) (q cseq ms : BitVec 32) (n rt : BitVec 16) (s s' : State)
    (hkey : s.glaesh.compKey.isSome = true) (hseq : takeSeq s compKeyFn 0 src q = some s')
    (hlater : s.fabric.cseq.toNat < cseq.toNat) (hn : n.toNat ≤ 4095) (hlow : 10 ≤ ms.toNat) (hhigh : ms.toNat ≤ 10000) :
    ∃ t, exec (.node src q cseq n rt ms) s = .next t ∧ t.fabric.node = n ∧ t.fabric.runtime = rt ∧ t.fabric.reportMs = ms ∧
      t.fabric.cseq = cseq ∧ t.fabric.routes = s.fabric.routes ∧ t.fns = s.fns ∧ t.sched = s.sched ∧ t.space = s.space := by
  obtain ⟨u, hu, hexec⟩ := exec_of_later (exec_node src q cseq ms n rt s) hkey hseq (by simp [hn, hlow, hhigh]) hlater
  exact ⟨_, hexec, rfl, rfl, rfl, rfl, (trafficOnly_routes hu :), (trafficOnly_fns hu :), (trafficOnly_sched hu :),
    (trafficOnly_space hu :)⟩

theorem tenant_applies (src fn : Nat) (q cseq features : BitVec 32) (s s' : State) (hkey : s.glaesh.compKey.isSome = true)
    (hseq : takeSeq s compKeyFn 0 src q = some s') (hlater : s.fabric.cseq.toNat < cseq.toNat) :
    ∃ t, exec (.tenant src q cseq fn features) s = .next t ∧ fnOf t fn = { fnOf s fn with tenant := some features } ∧
      (∀ g, g ≠ fn → fnOf t g = fnOf s g) ∧ t.fabric.cseq = cseq := by
  obtain ⟨u, hu, hexec⟩ := exec_of_later (exec_tenant src fn q cseq features s) hkey hseq rfl hlater
  obtain ⟨hsame, hother⟩ := fnOf_updFn_of_traffic hu fn (fun x => { x with tenant := some features })
  exact ⟨_, hexec, (fnOf_setCseq _ cseq fn).trans hsame, fun g hg => (fnOf_setCseq _ cseq g).trans (hother g hg), rfl⟩

theorem drain_applies (c : Instr) (on : Bool) (src fn : Nat) (q cseq : BitVec 32) (s s' : State)
    (hc : (c = .drain src q cseq (some fn) ∧ on = true) ∨ (c = .undrain src q cseq (some fn) ∧ on = false))
    (hkey : s.glaesh.compKey.isSome = true) (hseq : takeSeq s compKeyFn 0 src q = some s')
    (hlater : s.fabric.cseq.toNat < cseq.toNat) :
    ∃ t, exec c s = .next t ∧ fnOf t fn = { fnOf s fn with drained := on } ∧ (∀ g, g ≠ fn → fnOf t g = fnOf s g) ∧
      t.fabric.cseq = cseq ∧ t.sched = s.sched := by
  obtain ⟨u, hu, hexec⟩ := exec_of_later (exec_drains hc s) hkey hseq rfl hlater
  obtain ⟨hsame, hother⟩ := fnOf_updFn_of_traffic hu fn (fun x => { x with drained := on })
  exact ⟨_, hexec, (fnOf_setCseq _ cseq fn).trans hsame, fun g hg => (fnOf_setCseq _ cseq g).trans (hother g hg), rfl,
    (trafficOnly_sched hu :)⟩

theorem drainAll_applies (c : Instr) (on : Bool) (src f : Nat) (q cseq : BitVec 32) (s s' : State)
    (hc : (c = .drain src q cseq none ∧ on = true) ∨ (c = .undrain src q cseq none ∧ on = false)) (hf : f < 256)
    (hkey : s.glaesh.compKey.isSome = true) (hseq : takeSeq s compKeyFn 0 src q = some s')
    (hlater : s.fabric.cseq.toNat < cseq.toNat) :
    ∃ t, exec c s = .next t ∧ fnOf t f = { fnOf s f with drained := on } ∧ t.fabric.cseq = cseq := by
  obtain ⟨u, hu, hexec⟩ := exec_of_later (exec_drains hc s) hkey hseq rfl hlater
  have hmap := fnOf_mapFns hf u (fun _ x => { x with drained := on })
  rw [trafficOnly_fnOf hu] at hmap
  exact ⟨_, hexec, (fnOf_setCseq _ cseq f).trans hmap, rfl⟩

/-! ### ROUTE (R399) -/

theorem exec_route (src : Nat) (q cseq : BitVec 32) (first count mask : BitVec 16) (s : State) :
    exec (.route src q cseq first count mask) s = withComposition s src q (fun u =>
      composed u cseq (1 ≤ count.toNat && count.toNat ≤ 4096 && first.toNat + count.toNat ≤ 4096 && mask.toNat < 4096)
        (applyRoute · first.toNat count.toNat mask)) := by
  simp only [exec, execRoute]

/-- The destinations of a ROUTE. -/
theorem mem_routeRange_iff (first count d : Nat) :
    d ∈ (List.range count).map (· + first) ↔ first ≤ d ∧ d < first + count := by
  rw [List.mem_map]
  constructor
  · rintro ⟨i, hi, rfl⟩
    have hlt := List.mem_range.1 hi
    omega
  · rintro ⟨hle, hlt⟩
    exact ⟨d - first, List.mem_range.2 (by omega), by omega⟩

/-- One value put at many keys is read at those keys. -/
theorem getD_foldl_insert {α : Type} (ds : List Nat) (v e : α) (m : AMap α) (d : Nat) :
    AMap.getD (ds.foldl (fun m d => AMap.insert m d v) m) d e = if d ∈ ds then v else AMap.getD m d e := by
  induction ds generalizing m with
  | nil => rfl
  | cons x ds ih =>
    rw [List.foldl_cons, ih]
    by_cases hd : d ∈ ds
    · rw [if_pos hd, if_pos (List.mem_cons_of_mem x hd)]
    · by_cases hx : x = d
      · subst hx
        rw [if_neg hd, if_pos List.mem_cons_self, AMap.getD_insert_same]
      · rw [if_neg hd, if_neg (by simp [hd, Ne.symm hx]), AMap.getD_insert_other m x d v e hx]

theorem getD_routes_applyRoute (s : State) (first count : Nat) (mask : BitVec 16) (d : Nat) :
    AMap.getD (applyRoute s first count mask).fabric.routes d 0 =
      if first ≤ d ∧ d < first + count then mask else AMap.getD s.fabric.routes d 0 :=
  (getD_foldl_insert _ mask 0 s.fabric.routes d).trans (if_congr (mem_routeRange_iff first count d) rfl rfl)

/-- A destination of the ROUTE that a live port now serves is reachable again (R396). -/
theorem mem_unreachable_applyRoute (s : State) (first count : Nat) (mask : BitVec 16) (d : Nat) :
    d ∈ (applyRoute s first count mask).fabric.unreachable ↔ d ∈ s.fabric.unreachable ∧
      ¬((first ≤ d ∧ d < first + count) ∧ routePorts (applyRoute s first count mask) d ≠ []) := by
  have hkept : d ∈ (applyRoute s first count mask).fabric.unreachable ↔ d ∈ s.fabric.unreachable ∧
      (!(((List.range count).map (· + first)).contains d && !(routePorts (applyRoute s first count mask) d).isEmpty)) = true :=
    List.mem_filter
  rw [hkept, ← mem_routeRange_iff]
  generalize (List.range count).map (· + first) = ds
  simp [imp_iff_not_or]

theorem route_applies (src : Nat) (q cseq : BitVec 32) (first count mask : BitVec 16) (s s' : State)
    (hkey : s.glaesh.compKey.isSome = true) (hseq : takeSeq s compKeyFn 0 src q = some s')
    (hlater : s.fabric.cseq.toNat < cseq.toNat) (hone : 1 ≤ count.toNat) (hcount : count.toNat ≤ 4096)
    (hend : first.toNat + count.toNat ≤ 4096) (hmask : mask.toNat < 4096) :
    ∃ t, exec (.route src q cseq first count mask) s = .next t ∧ t.fabric.cseq = cseq ∧
      (∀ d, AMap.getD t.fabric.routes d 0 =
        if first.toNat ≤ d ∧ d < first.toNat + count.toNat then mask else AMap.getD s.fabric.routes d 0) ∧
      (∀ d, d ∈ t.fabric.unreachable ↔ d ∈ s.fabric.unreachable ∧
        ¬(first.toNat ≤ d ∧ d < first.toNat + count.toNat ∧ routePorts t d ≠ [])) ∧
      t.fabric.node = s.fabric.node ∧ t.fns = s.fns ∧ t.sched = s.sched ∧ t.space = s.space := by
  obtain ⟨u, hu, hexec⟩ := exec_of_later (exec_route src q cseq first count mask s) hkey hseq
    (by simp [hone, hcount, hend, hmask]) hlater
  refine ⟨_, hexec, rfl, fun d => ?_, fun d => ?_, (trafficOnly_node hu :), (trafficOnly_fns hu :),
    (trafficOnly_sched hu :), (trafficOnly_space hu :)⟩
  · exact (getD_routes_applyRoute u _ _ mask d).trans (by rw [trafficOnly_routes hu])
  · rw [← trafficOnly_unreachable hu, ← and_assoc (a := first.toNat ≤ d)]
    exact mem_unreachable_applyRoute u _ _ mask d

/-! ### EPOCH (R398, R410) -/

/-- The record of a domain's move that is owed a report (R410, R411). -/
def movedTo (s : State) (f id : Nat) (epoch : BitVec 32) (node : BitVec 16) : Domain :=
  { fn := f, id := id, epoch := epoch, node := node, old := domainEpoch s f id, learned := now s, owed := true }

theorem domainOf_noteDomain (s : State) (f id : Nat) (epoch : BitVec 32) (node : BitVec 16) :
    domainOf (noteDomain s f id epoch node (domainEpoch s f id)) f id = some (movedTo s f id epoch node) := by
  have hgone : (s.fabric.domains.filter (fun d => !(d.fn == f && d.id == id))).find? (fun d => d.fn == f && d.id == id) = none :=
    List.find?_eq_none.2 (fun d hd => by simpa only [Bool.not_eq_true', Bool.not_eq_true] using (List.mem_filter.1 hd).2)
  rw [domainOf, noteDomain, List.find?_append, hgone]
  simp [movedTo]

/-- No domain moves to an epoch that is not later. -/
theorem learnEpoch_not_later {s : State} {f id : Nat} {epoch : BitVec 32} (h : epoch.toNat ≤ (domainEpoch s f id).toNat)
    (node : BitVec 16) : learnEpoch s f id epoch node = s := if_pos h

/-- A later epoch is noted; beyond that only traffic moves in the fabric: the contributions that go out again (R407). -/
theorem learnEpoch_later {s : State} {f id : Nat} {epoch : BitVec 32} (h : (domainEpoch s f id).toNat < epoch.toNat)
    (node : BitVec 16) :
    trafficIn (noteDomain s f id epoch node (domainEpoch s f id)).fabric (learnEpoch s f id epoch node).fabric := by
  unfold learnEpoch
  dsimp only
  rw [if_neg (Nat.not_le.2 h)]
  split
  · exact (trafficOnly_foldl trafficOnly_sendParts _ _).2
  · obtain ⟨space, hobj⟩ := updObj_changes (reissue (noteDomain s f id epoch node (domainEpoch s f id)) f id) id
      (fun o => { o with epoch := epoch })
    rw [hobj]
    rfl

/-- What the fabric knows of a domain after an epoch of it was told. -/
theorem learnEpoch_learns (s : State) (f id : Nat) (epoch : BitVec 32) (node : BitVec 16) :
    (learnEpoch s f id epoch node).fabric.cseq = s.fabric.cseq ∧
    ((domainEpoch s f id).toNat < epoch.toNat →
      domainOf (learnEpoch s f id epoch node) f id = some (movedTo s f id epoch node)) ∧
    (epoch.toNat ≤ (domainEpoch s f id).toNat → (learnEpoch s f id epoch node).fabric.domains = s.fabric.domains) := by
  refine ⟨?_, fun h => ?_, fun h => by rw [learnEpoch_not_later h]⟩
  · rcases Nat.lt_or_ge (domainEpoch s f id).toNat epoch.toNat with h | h
    · exact (congrArg Fabric.cseq (learnEpoch_later h node) :)
    · rw [learnEpoch_not_later h]
  · rw [← domainOf_noteDomain, domainOf, domainOf, (congrArg Fabric.domains (learnEpoch_later h node) :)]

theorem exec_epoch_later (src fn : Nat) {q cseq domain e : BitVec 32} {node : BitVec 16} (hcseq : cseq ≠ 0) (s : State) :
    exec (.epoch src q cseq fn domain e node) s =
      withComposition s src q (fun u => composed u cseq true (learnEpoch · fn domain.toNat e node)) := by
  simp only [exec, execEpoch, if_neg hcseq]

/-- An EPOCH acts on the state that has acknowledged it; one of sequence 0 leaves the last-applied sequence alone. -/
theorem exec_epoch {src : Nat} {q cseq : BitVec 32} {s s' : State} (fn : Nat) (domain e : BitVec 32) (node : BitVec 16)
    (hkey : s.glaesh.compKey.isSome = true) (hseq : takeSeq s compKeyFn 0 src q = some s')
    (hlater : cseq = 0 ∨ s.fabric.cseq.toNat < cseq.toNat) :
    ∃ u, trafficOnly s u ∧ exec (.epoch src q cseq fn domain e node) s = .next
      (if cseq = 0 then learnEpoch u fn domain.toNat e node else setCseq (learnEpoch u fn domain.toNat e node) cseq false) := by
  by_cases hcseq : cseq = 0
  · refine ⟨_, trafficOnly_acknowledged (g := 0) hseq, ?_⟩
    simp only [exec, execEpoch, if_pos hcseq]
    exact withComposition_accepted hkey hseq
  · simp only [if_neg hcseq]
    exact exec_of_later (exec_epoch_later src fn hcseq s) hkey hseq rfl (hlater.resolve_left hcseq)

theorem epoch_applies (src fn : Nat) (q cseq domain e : BitVec 32) (node : BitVec 16) (s s' : State)
    (hkey : s.glaesh.compKey.isSome = true) (hseq : takeSeq s compKeyFn 0 src q = some s')
    (hlater : cseq = 0 ∨ s.fabric.cseq.toNat < cseq.toNat) :
    ∃ t, exec (.epoch src q cseq fn domain e node) s = .next t ∧
      t.fabric.cseq = (if cseq = 0 then s.fabric.cseq else cseq) ∧
      ((domainEpoch s fn domain.toNat).toNat < e.toNat →
        ∃ d, domainOf t fn domain.toNat = some d ∧ d.epoch = e ∧ d.node = node ∧ d.owed = true) ∧
      (e.toNat ≤ (domainEpoch s fn domain.toNat).toNat → t.fabric.domains = s.fabric.domains) := by
  obtain ⟨u, hu, hexec⟩ := exec_epoch fn domain e node hkey hseq hlater
  obtain ⟨hcseq, hmoves, hstays⟩ := learnEpoch_learns u fn domain.toNat e node
  rw [trafficOnly_domainEpoch hu] at hmoves hstays
  rw [trafficOnly_domains hu] at hstays
  rw [trafficOnly_cseq hu] at hcseq
  refine ⟨_, hexec, ?_, fun h => ⟨movedTo u fn domain.toNat e node, ?_, rfl, rfl, rfl⟩,
    fun h => ?_⟩
  · split
    · exact hcseq
    · rfl
  · rw [← hmoves h]
    split <;> rfl
  · rw [← hstays h]
    split <;> rfl

/-! ### Messages that are not later -/

/-- Every composition row with a sequence to test tests it in one way. -/
theorem exec_sequencedRow {c : Instr} {src fn : Nat} {q cseq features domain e ms : BitVec 32} {a b m : BitVec 16}
    {g : Option Nat}
    (hc : c = .node src q cseq a b ms ∨ c = .route src q cseq a b m ∨ c = .tenant src q cseq fn features ∨
      (c = .epoch src q cseq fn domain e a ∧ cseq ≠ 0) ∨ c = .drain src q cseq g ∨ c = .undrain src q cseq g) (s : State) :
    ∃ ok act, exec c s = withComposition s src q (fun u => composed u cseq ok act) := by
  rcases hc with rfl | rfl | rfl | ⟨rfl, hcseq⟩ | rfl | rfl
  · exact ⟨_, _, exec_node src q cseq ms a b s⟩
  · exact ⟨_, _, exec_route src q cseq a b m s⟩
  · exact ⟨_, _, exec_tenant src fn q cseq features s⟩
  · exact ⟨_, _, exec_epoch_later src fn hcseq s⟩
  · exact ⟨_, _, exec_drains (.inl ⟨rfl, rfl⟩) s⟩
  · exact ⟨_, _, exec_drains (.inr ⟨rfl, rfl⟩) s⟩

theorem not_later_ignored (c : Instr) (src fn : Nat) (q cseq features domain e ms : BitVec 32) (a b m : BitVec 16)
    (g : Option Nat) (s s' : State)
    (hc : c = .node src q cseq a b ms ∨ c = .route src q cseq a b m ∨ c = .tenant src q cseq fn features ∨
      (c = .epoch src q cseq fn domain e a ∧ cseq ≠ 0) ∨ c = .drain src q cseq g ∨ c = .undrain src q cseq g)
    (hkey : s.glaesh.compKey.isSome = true) (hseq : takeSeq s compKeyFn 0 src q = some s')
    (hold : cseq.toNat ≤ s.fabric.cseq.toNat) : exec c s = .next (ackPacket s' src 0 q) := by
  obtain ⟨_, _, hrow⟩ := exec_sequencedRow hc s
  exact exec_of_not_later hrow hkey hseq hold

/-- Settles O54, action by action. -/
theorem compositionApplies : Obligations.CompositionApplies :=
  ⟨node_applies, route_applies, tenant_applies, epoch_applies, drain_applies, drainAll_applies, not_later_ignored⟩

end Sys2Proof.Laws
end

section
/-! PROOFS. O51 does not hold: it is stated of every state, also of one where a ranking reduce carries the number of a command that
waits for a Reply (no step makes one: the command of a reduce is a RANK, which waits for its members). When a port goes Down, that
command ends with INTERNAL, and the reduce, which goes on, then ends it a second time with its own result. -/

namespace Sys2Proof.Laws
open Sys2Proof Sys2Proof.Machine Sys2Proof.Safety

/-- FABRIC_REQUEST as command 1, sent to node 4. -/
def requestWaiting : Adm :=
  { cmd := ⟨1, 0, .host 0, lay 64 [(0, 2, 0x603)], 0, none⟩, seq := 1, admitted := 0, features := 0, phase := .waitReply 4 }

/-- A reduce under the number of that command, whose only member is this node. -/
def reduceOfRequest : Coll :=
  { fn := 0, members := [3], seq := 1, kind := 5, root := 0, len := 32, k := 0, begun := true, cid := some 1 }

/-- Node 3 with both, on the only port behind which node 4 lies, whose lanes are being equalised. -/
def onlyPortTrains : State :=
  { State.reset with
    sched := { admitted := [requestWaiting] }
    fabric := { node := 3, ports := [(0, { state := .equalise })], routes := [(4, 1)], colls := [reduceOfRequest] } }

/-- The port goes Down for want of a lane, and the command has the result of the reduce: no entry found. -/
theorem phaseAfter_equaliseEnd :
    phaseAfter (exec (.equaliseEnd 0 0) onlyPortTrains) 1 = some (.done {}) := by
  decide +kernel

/-- No Active port leads to a node. -/
def unserved (o : Out) (dst : Nat) : Bool :=
  match o with
  | .next t => (routePorts t dst).isEmpty
  | _ => false

theorem unserved_equaliseEnd : unserved (exec (.equaliseEnd 0 0) onlyPortTrains) 4 = true := by
  decide +kernel

/-- Refutes O51: lane 0 of the only port to node 4 does not pass, and the request to node 4 does not end with INTERNAL. -/
theorem not_portsTrainAndCarryFlits : ¬ Obligations.PortsTrainAndCarryFlits := by
  rintro ⟨-, -, hdown, -⟩
  obtain ⟨t, hexec, -, -, -, -, -, -, hends⟩ := hdown 0 0 onlyPortTrains rfl rfl
  have hafter := phaseAfter_equaliseEnd
  have hnone := unserved_equaliseEnd
  rw [hexec] at hafter hnone
  obtain ⟨b, r, hfind, hphase, rfl⟩ := hends 4 1 requestWaiting rfl (List.isEmpty_iff.1 hnone) rfl rfl
  have hdone : some b.phase = some (.done {}) := (congrArg (Option.map Adm.phase) hfind).symm.trans hafter
  rw [hphase] at hdone
  exact absurd hdone (by decide)

end Sys2Proof.Laws
end

section
/-! PROOFS. O2 and O5. No operation but those of a reset, of the keys and of the start touches what Glaesh holds: one lemma for each,
in the order of the model's files. So every row of the table goes on, and all but the one that reaches service-ready keep MIN_SVN. -/

namespace Sys2Proof.Laws
open Sys2Proof Sys2Proof.Machine Sys2Proof.Safety

/-- MIN_SVN after a row, where the row goes on. -/
def svnAfter : Out → Option (BitVec 32)
  | .next t => some t.glaesh.minSvn
  | .fault _ | .refused _ => none

section
variable (s : State)

@[simp] theorem svnAfter_next : svnAfter (.next s) = some s.glaesh.minSvn := rfl

@[simp] theorem svnAfter_ite (c : Prop) {_ : Decidable c} (o o' : Out) :
    svnAfter (if c then o else o') = if c then svnAfter o else svnAfter o' := apply_ite svnAfter c o o'

@[simp] theorem glaesh_ite (c : Prop) {_ : Decidable c} (t : State) :
    (if c then s else t).glaesh = if c then s.glaesh else t.glaesh := apply_ite State.glaesh c s t

@[simp] theorem minSvn_ite (c : Prop) {_ : Decidable c} (g g' : Glaesh) :
    (if c then g else g').minSvn = if c then g.minSvn else g'.minSvn := apply_ite Glaesh.minSvn c g g'

@[simp] theorem foldl_glaesh {α : Type} (g : State → α → State) (h : ∀ s x, (g s x).glaesh = s.glaesh) (xs : List α)
    (s : State) : (xs.foldl g s).glaesh = s.glaesh := by
  induction xs generalizing s with
  | nil => rfl
  | cons x xs ih => rw [List.foldl_cons, ih, h]

@[simp] theorem foldl_fst_glaesh {α β : Type} (g : State × β → α → State × β)
    (h : ∀ p x, (g p x).1.glaesh = p.1.glaesh) (xs : List α) (p : State × β) : (xs.foldl g p).1.glaesh = p.1.glaesh := by
  induction xs generalizing p with
  | nil => rfl
  | cons x xs ih => rw [List.foldl_cons, ih, h]

@[simp] theorem elim_glaesh {α : Type} (o : Option α) (s : State) (g : α → State) (h : ∀ x, (g x).glaesh = s.glaesh) :
    (o.elim s g).glaesh = s.glaesh := by
  cases o with
  | none => rfl
  | some x => exact h x

/-! ### Ops -/

@[simp] theorem observePhase_glaesh (k : PhaseKey) (energy counts : Nat) :
    (observePhase s k energy counts).glaesh = s.glaesh := by unfold observePhase; split <;> rfl
@[simp] theorem raise_glaesh (f v : Nat) : (raise s f v).glaesh = s.glaesh := by simp [raise]
@[simp] theorem flushPba_glaesh (f : Nat) : (flushPba s f).glaesh = s.glaesh := by simp [flushPba]
@[simp] theorem announce_glaesh (f : Nat) : (announce s f).glaesh = s.glaesh := by simp [announce]
@[simp] theorem recordWritten_glaesh (f : Nat) (irqNow : Bool) : (recordWritten s f irqNow).glaesh = s.glaesh := by
  simp [recordWritten]
@[simp] theorem logUncorrectable_glaesh (f b : Nat) : (logUncorrectable s f b).glaesh = s.glaesh := by simp [logUncorrectable]
@[simp] theorem logCorrectable_glaesh (f b : Nat) : (logCorrectable s f b).glaesh = s.glaesh := by simp [logCorrectable]
@[simp] theorem meterCmd_glaesh (s t : State) (cid f : Nat) : (meterCmd s t cid f).glaesh = t.glaesh := by rw [meterCmd_kept]

/-! ### Space -/

@[simp] theorem updObj_glaesh (oid : Nat) (g : Obj → Obj) : (updObj s oid g).glaesh = s.glaesh := by
  unfold updObj; split <;> rfl
@[simp] theorem countRejected_glaesh (f id : Nat) : (countRejected s f id).glaesh = s.glaesh := by rfl
@[simp] theorem touchRange_glaesh (oid ver off n : Nat) : (touchRange s oid ver off n).glaesh = s.glaesh := by
  unfold touchRange; split <;> rfl
@[simp] theorem streamRange_glaesh (oid ver off n : Nat) : (streamRange s oid ver off n).glaesh = s.glaesh := by
  unfold streamRange; split <;> simp
@[simp] theorem dropCached_glaesh (c : Nat) : (dropCached s c).glaesh = s.glaesh := by
  unfold dropCached; (repeat' split) <;> simp

theorem placeOne_glaesh {s t : State} {oid ver g : Nat} {full : Bool} {cid : Option Nat}
    (h : placeOne s oid ver g full cid = some t) : t.glaesh = s.glaesh := by
  unfold placeOne at h
  split at h
  · cases h
  · split at h
    · cases h
    · cases h
      simp

theorem placeAll_glaesh {s t : State} {oid ver : Nat} {cid : Option Nat} {gs : List (Nat × Bool)}
    (h : placeAll s oid ver cid gs = some t) : t.glaesh = s.glaesh := by
  induction gs generalizing s with
  | nil => cases h; rfl
  | cons g gs ih =>
    unfold placeAll at h
    split at h
    · next hone => rw [ih h, placeOne_glaesh hone]
    · cases h

@[simp] theorem reviewHint_glaesh (oid : Nat) : (reviewHint s oid).glaesh = s.glaesh := by simp [reviewHint]
@[simp] theorem updFrame_glaesh (oid ver g : Nat) (k : Frame → Frame) : (updFrame s oid ver g k).glaesh = s.glaesh := by
  simp [updFrame]
@[simp] theorem holdRequest_glaesh (c : Nat) (h : Held) : (holdRequest s c h).glaesh = s.glaesh := by rfl
@[simp] theorem queueRead_glaesh (client : FlashClient) (oid : Nat) (fr : Frame) (deadline : Option Nat) :
    (queueRead s client oid fr deadline).glaesh = s.glaesh := by rfl
@[simp] theorem queueRange_glaesh (client : FlashClient) (oid ver off len : Nat) (deadline : Option Nat) :
    (queueRange s client oid ver off len deadline).glaesh = s.glaesh := by unfold queueRange; split <;> simp
@[simp] theorem countEcc_glaesh (stack : Nat) (e : Ecc) : (countEcc s stack e).glaesh = s.glaesh := by
  unfold countEcc; split <;> rfl
@[simp] theorem spoil_glaesh (oid ver g : Nat) (bs : List Nat) : (spoil s oid ver g bs).glaesh = s.glaesh := by simp [spoil]
@[simp] theorem freeVersions_glaesh (oid : Nat) : (freeVersions s oid).glaesh = s.glaesh := by
  unfold freeVersions; split <;> simp
@[simp] theorem freeAll_glaesh : (freeAll s).glaesh = s.glaesh := by simp [freeAll]
@[simp] theorem switchTo_glaesh (oid ver : Nat) : (switchTo s oid ver).glaesh = s.glaesh := by
  unfold switchTo; (repeat' split) <;> simp

theorem makeVersion_glaesh {s t : State} {oid base n : Nat} {bytes : Mem} {size : Nat} {written : List Nat} {full : FullTest}
    {cid : Option Nat} (h : makeVersion s oid base bytes size written full cid = some (t, n)) : t.glaesh = s.glaesh := by
  unfold makeVersion at h
  split at h
  · cases h
  · split at h
    · cases h
    · split_ifs at h
      obtain ⟨u, hu, ht⟩ := Option.map_eq_some_iff.1 h
      cases ht
      rw [reviewHint_glaesh, placeAll_glaesh hu, putObj_glaesh]

theorem placeBuild_glaesh {s t : State} {oid tag size : Nat} {full : FullTest} {cid : Option Nat}
    (h : placeBuild s oid tag size full cid = some t) : t.glaesh = s.glaesh := placeAll_glaesh h
@[simp] theorem numberBuild_glaesh (oid tag : Nat) (bytes : Mem) (size : Nat) :
    (numberBuild s oid tag bytes size).1.glaesh = s.glaesh := by unfold numberBuild; split <;> rfl
@[simp] theorem dropBuild_glaesh (oid tag : Nat) : (dropBuild s oid tag).glaesh = s.glaesh := by unfold dropBuild; split <;> rfl
@[simp] theorem readRest_glaesh (oid : Nat) (fr : Frame) (at' n : Nat) : (readRest s oid fr at' n).glaesh = s.glaesh := by
  unfold readRest; split <;> rfl

theorem rewrite_glaesh {s t : State} {oid g n k : Nat} {cid : Option Nat} (h : rewrite s oid g n k cid = some t) :
    t.glaesh = s.glaesh := by
  unfold rewrite at h
  split at h
  · cases h; rfl
  · simp only at h
    split_ifs at h <;> cases h <;> simp

@[simp] theorem putBytes_glaesh (oid off : Nat) (bs : List Byte) : (putBytes s oid off bs).glaesh = s.glaesh := by
  simp [putBytes]

theorem createObj_glaesh {s t : State} {f oid : Nat} {kind : ObjKind} {hint : BitVec 8} {bytes : Mem} {size : Nat}
    {full : FullTest} {cid : Option Nat} (h : createObj s f kind hint bytes size full cid = some (t, oid)) :
    t.glaesh = s.glaesh := by
  unfold createObj at h
  split at h
  · cases h
  · split at h
    · cases h
    · obtain ⟨u, hu, ht⟩ := Option.map_eq_some_iff.1 h
      cases ht
      exact (placeAll_glaesh (Option.filter_eq_some_iff.1 hu).1).trans (by simp)

@[simp] theorem eraseObjects_glaesh (f : Nat) : (eraseObjects s f).glaesh = s.glaesh := by rfl
@[simp] theorem destroyObj_glaesh (oid : Nat) : (destroyObj s oid).glaesh = s.glaesh := by simp [destroyObj]

/-! ### Operands -/

/-- A row of a command goes on and keeps MIN_SVN where the command's work does. -/
@[simp] theorem withCmd_svn (cid op : Nat) (k : Adm → State) (h : ∀ a, (k a).glaesh = s.glaesh) :
    svnAfter (withCmd s cid op k) = some s.glaesh.minSvn := by
  unfold withCmd
  split
  · rw [svnAfter_next, meterCmd_glaesh, h]
  · rfl

@[simp] theorem leaveWindows_glaesh (gone : List Nat) : (leaveWindows s gone).glaesh = s.glaesh := by rfl

/-! ### Reset -/

@[simp] theorem lose_svn : (lose s).glaesh.minSvn = s.glaesh.minSvn := by rfl
@[simp] theorem abandonHost_glaesh (fs : Nat → Bool) : (abandonHost s fs).glaesh = s.glaesh := by simp [abandonHost]
@[simp] theorem hostReset_glaesh (fs : Nat → Bool) (ev : LastReset) : (hostReset s fs ev).glaesh = s.glaesh := by
  simp [hostReset]
@[simp] theorem hotResetAll_glaesh (ev : LastReset) : (hotResetAll s ev).glaesh = s.glaesh := by simp [hotResetAll]

/-! ### CfgSpace -/

@[simp] theorem vfOff_glaesh : (vfOff s).glaesh = s.glaesh := by simp [vfOff]
@[simp] theorem vfOn_glaesh : (vfOn s).glaesh = s.glaesh := by simp [vfOn]
@[simp] theorem setPower_glaesh (f v : Nat) : (setPower s f v).glaesh = s.glaesh := by simp [setPower]
@[simp] theorem updCfg_glaesh (f : Nat) (g : CfgRegs → CfgRegs) : (updCfg s f g).glaesh = s.glaesh := by rfl
@[simp] theorem cfgWrite_glaesh (f v : Nat) (fld : CfgField) : (cfgWrite s f v fld).glaesh = s.glaesh := by
  unfold cfgWrite; split <;> simp

/-! ### FabricOps -/

@[simp] theorem updPort_glaesh (p : Nat) (g : Port → Port) : (updPort s p g).glaesh = s.glaesh := by rfl
@[simp] theorem wakeEgress_glaesh (p : Nat) (r : Retained) : (wakeEgress s p r).glaesh = s.glaesh := by simp [wakeEgress]
@[simp] theorem chargeEgress_glaesh (p : Nat) (r : Retained) : (chargeEgress s p r).glaesh = s.glaesh := by simp [chargeEgress]
@[simp] theorem updRetained_glaesh (r : Retained) (g : Retained → Retained) : (updRetained s r g).glaesh = s.glaesh := by rfl
@[simp] theorem launch_glaesh (r : Retained) (p : Nat) : (launch s r p).glaesh = s.glaesh := by simp [launch]

@[simp] theorem pump_glaesh (n : Nat) (p : Nat) : (pump n s p).glaesh = s.glaesh := by
  induction n generalizing s with
  | zero => rfl
  | succ n ih =>
    unfold pump
    split
    · rfl
    · simp [ih]

@[simp] theorem sendWaiting_glaesh (p : Nat) : (sendWaiting s p).glaesh = s.glaesh := by simp [sendWaiting]
@[simp] theorem enqueuePacket_glaesh (r : Retained) : (enqueuePacket s r).glaesh = s.glaesh := by simp [enqueuePacket]
@[simp] theorem sendPacket_glaesh (kind dst f : Nat) (epoch : Word) (ctx offset : Nat) (last comp : Bool) (extra : List Nat)
    (data : List Byte) : (sendPacket s kind dst f epoch ctx offset last comp extra data).glaesh = s.glaesh := by
  unfold sendPacket; split <;> simp
@[simp] theorem sendBytes_glaesh (kind dst f : Nat) (epoch : Word) (ctx : Nat) (markLast : Bool) (bs : List Byte) :
    (sendBytes s kind dst f epoch ctx markLast bs).glaesh = s.glaesh := by simp [sendBytes]
@[simp] theorem sendPlain_glaesh (kind dst f : Nat) (epoch : Word) (ctx : Nat) (head : List Byte) (bs : List Byte) :
    (sendPlain s kind dst f epoch ctx head bs).glaesh = s.glaesh := by simp [sendPlain]
@[simp] theorem sendReply_glaesh (dst f ctx : Nat) (r : Result) : (sendReply s dst f ctx r).glaesh = s.glaesh := by
  simp [sendReply]
@[simp] theorem newKey_glaesh (f key : Nat) : (newKey s f key).glaesh = s.glaesh := by rfl
@[simp] theorem wakeNode_glaesh : (wakeNode s).glaesh = s.glaesh := by simp [wakeNode]
@[simp] theorem chargePcie_glaesh (f n : Nat) : (chargePcie s f n).glaesh = s.glaesh := by rfl
@[simp] theorem forgetSlots_glaesh (reply : Bool) (f src id : Nat) : (forgetSlots s reply f src id).glaesh = s.glaesh := by rfl
@[simp] theorem takeSlot_glaesh (p : Packet) (reply : Bool) (src id : Nat) :
    (takeSlot s p reply src id).glaesh = s.glaesh := by unfold takeSlot; split <;> rfl

/-! ### Looms -/

@[simp] theorem updLoom_glaesh (l : Nat) (g : Loom → Loom) : (updLoom s l g).glaesh = s.glaesh := by rfl
@[simp] theorem startHead_glaesh (loom : Nat) : (startHead s loom).glaesh = s.glaesh := by
  unfold startHead; dsimp only; (repeat' split) <;> simp
@[simp] theorem beginHead_glaesh (loom : Nat) : (beginHead s loom).glaesh = s.glaesh := by
  unfold beginHead; dsimp only; (repeat' split) <;> simp
@[simp] theorem dropDescs_glaesh (loom : Nat) (keep : ArrayDesc → Bool) : (dropDescs s loom keep).glaesh = s.glaesh := by
  simp [dropDescs]

/-! ### Snapshot -/

@[simp] theorem fireSnapshot_glaesh (source : Nat) : (fireSnapshot s source).glaesh = s.glaesh := by simp [fireSnapshot]
@[simp] theorem causeSnap_glaesh (i : Nat) : (causeSnap s i).glaesh = s.glaesh := by simp [causeSnap]

/-! ### Aperture -/

@[simp] theorem afterPeatRead_glaesh (oid ver g : Nat) : (afterPeatRead s oid ver g).glaesh = s.glaesh := by
  unfold afterPeatRead; (repeat' split) <;> simp
@[simp] theorem apertureFail_glaesh (f : Nat) : (apertureFail s f).glaesh = s.glaesh := by simp [apertureFail]
@[simp] theorem eccFail_glaesh (f : Nat) : (eccFail s f).glaesh = s.glaesh := by simp [eccFail]
@[simp] theorem serveObject_glaesh (f bar oid off ver n : Nat) (ecc : List (Nat × Ecc)) :
    (serveObject s f bar oid off ver n ecc).glaesh = s.glaesh := by unfold serveObject; (repeat' split) <;> simp
@[simp] theorem serveRead_glaesh (f bar addr n : Nat) (ecc : List (Nat × Ecc)) :
    (serveRead s f bar addr n ecc).glaesh = s.glaesh := by unfold serveRead; split <;> simp

@[simp] theorem storeGranule_glaesh (f oid off : Nat) (bs : List Byte) : (storeGranule s f oid off bs).glaesh = s.glaesh := by
  unfold storeGranule
  split
  · rfl
  · split
    · rfl
    · simp only
      split
      · simp
      · split
        · simp
        · split
          · simp
          · split
            · simp
            · split
              · split
                · next h => simp [rewrite_glaesh h]
                · simp
              · simp

@[simp] theorem writeObject_glaesh (f oid off : Nat) (bs : List Byte) : (writeObject s f oid off bs).glaesh = s.glaesh := by
  unfold writeObject; split <;> simp
@[simp] theorem nodeWrite_glaesh (f oid off : Nat) (bs : List Byte) : (nodeWrite s f oid off bs).glaesh = s.glaesh := by
  unfold nodeWrite
  exact foldl_glaesh _ (fun s p => by dsimp only; split <;> simp) _ s
@[simp] theorem serveWrite_glaesh (f addr : Nat) (bs : List Byte) : (serveWrite s f addr bs).glaesh = s.glaesh := by
  unfold serveWrite; split <;> simp
@[simp] theorem execApertureRead_svn (f : Fn) (offset length : Nat) (ecc : List (Nat × Ecc)) :
    svnAfter (execApertureRead f offset length ecc s) = some s.glaesh.minSvn := by
  unfold execApertureRead; (repeat' split) <;> simp
@[simp] theorem execApertureWrite_svn (f : Fn) (offset : Nat) (data : List Byte) :
    svnAfter (execApertureWrite f offset data s) = some s.glaesh.minSvn := by
  unfold execApertureWrite; (repeat' split) <;> simp
@[simp] theorem execApertureReadTimeout_svn (f : Fn) (offset : Nat) :
    svnAfter (execApertureReadTimeout f offset s) = some s.glaesh.minSvn := by unfold execApertureReadTimeout; split <;> simp

/-! ### Access -/

@[simp] theorem countForeign_glaesh (a : Adm) (met : Bool) : (countForeign s a met).glaesh = s.glaesh := by simp [countForeign]
@[simp] theorem tierFailed_glaesh (a : Adm) : (tierFailed s a).glaesh = s.glaesh := by rfl
@[simp] theorem readFailed_glaesh (a : Adm) (lost : Bool) : (readFailed s a lost).glaesh = s.glaesh := by simp [readFailed]
@[simp] theorem chargeNear_glaesh (f n : Nat) : (chargeNear s f n).glaesh = s.glaesh := by rfl
@[simp] theorem countKeys_glaesh (f n : Nat) : (countKeys s f n).glaesh = s.glaesh := by rfl
@[simp] theorem countSpill_glaesh (k : Nat) : (countSpill s k).glaesh = s.glaesh := by simp [countSpill]

/-! ### ObjectOps -/

theorem writeData_go_glaesh {oid off : Nat} {bs : List Byte} {srcFails : Nat → Bool} {cid : Option Nat} {gs : List Nat}
    {s t : State} {n k : Nat} {whole : Bool} (h : writeData.go oid off bs srcFails cid s n gs = some (t, k, whole)) :
    t.glaesh = s.glaesh := by
  induction gs generalizing s n with
  | nil => cases h; rfl
  | cons g gs ih =>
    unfold writeData.go at h
    simp only at h
    split_ifs at h
    · cases h; rfl
    · split at h
      · cases h
      · next hw => rw [ih h, putBytes_glaesh, rewrite_glaesh hw]

theorem writeData_glaesh {s t : State} {oid off k : Nat} {bs : List Byte} {srcFails : Nat → Bool} {cid : Option Nat}
    {whole : Bool} (h : writeData s oid off bs srcFails cid = some (t, k, whole)) : t.glaesh = s.glaesh := writeData_go_glaesh h

@[simp] theorem writeBitmap_glaesh (a : Adm) (oid off : Nat) (bs : List Byte) :
    (writeBitmap s a oid off bs).glaesh = s.glaesh := by
  unfold writeBitmap
  split
  · rfl
  · split
    · simp
    · next h => simp [makeVersion_glaesh h]

@[simp] theorem writeTo_glaesh (a : Adm) (oid : Nat) (t : Target) (off : Nat) (bs : List Byte) (srcFails : Nat → Bool)
    (failing : State → Nat → State) (hf : ∀ u n, (failing u n).glaesh = u.glaesh) :
    (writeTo s a oid t off bs srcFails failing).glaesh = s.glaesh := by
  unfold writeTo
  simp only
  split
  · split
    · simp [hf]
    · split
      · simp
      · next h => simp [hf, writeData_glaesh h]
  · simp [hf]

@[simp] theorem writeTierFail_glaesh (a : Adm) (n : Nat) : (writeTierFail a s n).glaesh = s.glaesh := by rfl
@[simp] theorem writeReadFail_glaesh (a : Adm) (ecc : Nat → Bool) (n : Nat) : (writeReadFail a ecc s n).glaesh = s.glaesh := by
  simp [writeReadFail]
@[simp] theorem writeHostFail_glaesh (a : Adm) (n : Nat) : (writeHostFail a s n).glaesh = s.glaesh := by rfl
@[simp] theorem dropFeatures_glaesh (f : Nat) : (dropFeatures s f).glaesh = s.glaesh := by rfl

@[simp] theorem created_glaesh (a : Adm) (kind : ObjKind) (hint : BitVec 8) (bytes : Mem) (size : Nat) (full : FullTest) :
    (created s a kind hint bytes size full).glaesh = s.glaesh := by
  unfold created
  split
  · simp
  · next h => simp [createObj_glaesh h]

/-! ### ProgOps -/

@[simp] theorem putShuttle_glaesh (sh : Nat) (x : Shuttle) : (putShuttle s sh x).glaesh = s.glaesh := by rfl
@[simp] theorem updShuttle_glaesh (sh : Nat) (g : Shuttle → Shuttle) : (updShuttle s sh g).glaesh = s.glaesh := by rfl
@[simp] theorem updInst_glaesh (no : Nat) (g : Instance → Instance) : (updInst s no g).glaesh = s.glaesh := by
  unfold updInst; split <;> rfl
@[simp] theorem progViolate_glaesh (no : Nat) : (progViolate s no).glaesh = s.glaesh := by unfold progViolate; split <;> simp
@[simp] theorem progWrite_glaesh (no : Nat) (i : Instance) (loom a : Nat) (bs : List Byte) :
    (progWrite s no i loom a bs).glaesh = s.glaesh := by
  unfold progWrite; (repeat' split) <;> simp
@[simp] theorem answerShuttle_glaesh (sh inst a : Nat) (v : BitVec 512) : (answerShuttle s sh inst a v).glaesh = s.glaesh := by
  simp [answerShuttle]
@[simp] theorem serveHeld_glaesh (h : Held) : (serveHeld s h).glaesh = s.glaesh := by unfold serveHeld; split <;> simp
@[simp] theorem serveStalled_glaesh (h : Held) : (serveStalled s h).glaesh = s.glaesh := by simp [serveStalled]
@[simp] theorem putKnot_glaesh (k : Nat) (x : Knot) : (putKnot s k x).glaesh = s.glaesh := by rfl
@[simp] theorem releaseWaiters_glaesh (k : Nat) (outcome : BitVec 64) (st : Byte) :
    (releaseWaiters s k outcome st).glaesh = s.glaesh := by rfl
@[simp] theorem freeKnot_glaesh (k : Nat) : (freeKnot s k).glaesh = s.glaesh := by rfl
@[simp] theorem noteMay_glaesh (no : Nat) : (noteMay s no).glaesh = s.glaesh := by unfold noteMay; split <;> simp
@[simp] theorem noteKnot_glaesh (x : Knot) : (noteKnot s x).glaesh = s.glaesh := elim_glaesh _ s _ (fun n => noteMay_glaesh s n)
@[simp] theorem writeExit_glaesh (i : Instance) (e : ExitInfo) : (writeExit s i e).glaesh = s.glaesh := by
  unfold writeExit; split <;> simp
@[simp] theorem stopArrays_glaesh (no : Nat) : (stopArrays s no).glaesh = s.glaesh := by simp [stopArrays]
@[simp] theorem stopSelections_glaesh (no : Nat) : (stopSelections s no).glaesh = s.glaesh := by simp [stopSelections]
@[simp] theorem stopWork_glaesh (no : Nat) : (stopWork s no).glaesh = s.glaesh := by simp [stopWork]
@[simp] theorem meterTask_glaesh (s t : State) (no k f : Nat) : (meterTask s t no k f).glaesh = t.glaesh := by
  unfold meterTask; (repeat' split) <;> simp
@[simp] theorem observeTasks_glaesh (i : Instance) (ts : List Nat) : (observeTasks s i ts).glaesh = s.glaesh :=
  foldl_glaesh _ (fun s t => by split <;> simp) ts s
theorem endInstance_glaesh (arr : State → Nat → State) (harr : ∀ u k, (arr u k).glaesh = u.glaesh) (s : State) (no : Nat)
    (e : ExitInfo) : (endInstance arr s no e).glaesh = s.glaesh := by
  unfold endInstance; (repeat' split) <;> simp [harr]
theorem boundaryWith_glaesh (arr : State → Nat → State) (harr : ∀ u k, (arr u k).glaesh = u.glaesh) (s : State) (no : Nat) :
    (boundaryWith arr s no).glaesh = s.glaesh := by
  unfold boundaryWith; dsimp only; (repeat' split) <;> simp [endInstance_glaesh arr harr]

@[simp] theorem arriveN_glaesh (n : Nat) (s : State) (k amount : Nat) : (arriveN n s k amount).glaesh = s.glaesh := by
  induction n generalizing s k amount with
  | zero =>
    unfold arriveN
    split
    · rfl
    · simp
  | succ n ih =>
    have hnext (s : State) (no : Nat) : (boundaryWith (fun s k => arriveN n s k 1) s no).glaesh = s.glaesh :=
      boundaryWith_glaesh _ (fun u k => ih u k 1) s no
    unfold arriveN
    split
    · rfl
    · simp only
      split
      · simp
      · split <;> simp_all

@[simp] theorem arrive_glaesh (k amount : Nat) : (arrive s k amount).glaesh = s.glaesh := by simp [arrive]
@[simp] theorem arriveFor_glaesh (f k amount : Nat) : (arriveFor s f k amount).glaesh = s.glaesh := by simp [arriveFor]
@[simp] theorem instanceEnds_glaesh (no : Nat) (e : ExitInfo) : (instanceEnds s no e).glaesh = s.glaesh :=
  endInstance_glaesh _ (fun u k => arrive_glaesh u k 1) s no e
@[simp] theorem weaveError_glaesh (loom no : Nat) (e : Ecc) : (weaveError s loom no e).glaesh = s.glaesh := by
  unfold weaveError; split <;> simp
@[simp] theorem boundary_glaesh (no : Nat) : (boundary s no).glaesh = s.glaesh :=
  boundaryWith_glaesh _ (fun u k => arrive_glaesh u k 1) s no
@[simp] theorem setKnot_glaesh (k : Nat) (counter target : BitVec 32) : (setKnot s k counter target).glaesh = s.glaesh := by
  unfold setKnot; (repeat' split) <;> simp
@[simp] theorem cycleOrEnd_glaesh (no : Nat) : (cycleOrEnd s no).glaesh = s.glaesh := by unfold cycleOrEnd; split <;> simp
@[simp] theorem taskDone_glaesh (no t : Nat) : (taskDone s no t).glaesh = s.glaesh := by unfold taskDone; split <;> simp
@[simp] theorem taskPart_glaesh (no t : Nat) : (taskPart s no t).glaesh = s.glaesh := by
  unfold taskPart; (repeat' split) <;> simp

/-! ### Select -/

@[simp] theorem selectRun_glaesh (a : Adm) : (selectRun s a).glaesh = s.glaesh := by simp [selectRun]

/-! ### Versions -/

@[simp] theorem dropStream_glaesh (f id : Nat) : (dropStream s f id).glaesh = s.glaesh := by rfl
@[simp] theorem recordMutation_glaesh (a : Adm) (oid base : Nat) (m : Mutation) :
    (recordMutation s a oid base m).glaesh = s.glaesh := by simp [recordMutation]
@[simp] theorem forgetMutations_glaesh (oid : Nat) : (forgetMutations s oid).glaesh = s.glaesh := by simp [forgetMutations]
@[simp] theorem newTable_glaesh (o : Obj) : (newTable s o).glaesh = s.glaesh := by simp [newTable]

@[simp] theorem commitEdit_glaesh (a : Adm) (oid : Nat) (o : Obj) (e : Edit) (m : Mutation) (count : Nat) :
    (commitEdit s a oid o e m count).glaesh = s.glaesh := by
  unfold commitEdit
  split
  · simp
  · next h => simp [makeVersion_glaesh h]

@[simp] theorem startBuild_glaesh (a : Adm) (oid : Nat) (o : Obj) (img : Mem × Nat) (makeCurrent : Bool) :
    (startBuild s a oid o img makeCurrent).glaesh = s.glaesh := by
  unfold startBuild
  simp only
  split
  · simp
  · split
    · simp
    · next h => simp [placeBuild_glaesh h]

@[simp] theorem loadEnds_glaesh (a : Adm) (oid : Nat) (r : Result) : (loadEnds s a oid r).glaesh = s.glaesh := by
  simp [loadEnds]
@[simp] theorem loadRun_glaesh (a : Adm) (host : List Byte) (kindOk : Obj → Bool) (busy : Bool) :
    (loadRun s a host kindOk busy).glaesh = s.glaesh := by unfold loadRun; simp only; (repeat' split) <;> simp

theorem placeReapplied_glaesh {s t : State} {oid : Nat} {o : Obj} {b : Building} {e : Edit}
    (h : placeReapplied s oid o b e = some t) : t.glaesh = s.glaesh := by
  unfold placeReapplied at h
  rw [placeAll_glaesh h]

@[simp] theorem switchBuild_glaesh (oid : Nat) (o : Obj) (b : Building) : (switchBuild s oid o b).glaesh = s.glaesh := by
  unfold switchBuild
  simp only
  split
  · simp
  · next h =>
    obtain ⟨e, -, hplace⟩ := Option.bind_eq_some_iff.1 h
    split_ifs at hplace
    obtain ⟨u, hu, hue⟩ := Option.map_eq_some_iff.1 hplace
    cases hue
    simp [placeReapplied_glaesh hu]

@[simp] theorem execVersionSwitch_svn (obj version : Nat) :
    svnAfter (execVersionSwitch obj version s) = some s.glaesh.minSvn := by
  unfold execVersionSwitch; (repeat' split) <;> simp

/-! ### CollOps -/

@[simp] theorem sendPart_glaesh (c : Coll) (j : Nat) (bs : List Byte) : (sendPart s c j bs).glaesh = s.glaesh := by
  simp [sendPart]
@[simp] theorem sendParts_glaesh (c : Coll) : (sendParts s c).glaesh = s.glaesh := by simp [sendParts]
@[simp] theorem measureWait_glaesh (c : Coll) : (measureWait s c).glaesh = s.glaesh := by simp [measureWait]
@[simp] theorem tellMembers_glaesh (c : Coll) (st : Byte) : (tellMembers s c st).glaesh = s.glaesh := by simp [tellMembers]
@[simp] theorem sendDisagreement_glaesh (c : Coll) : (sendDisagreement s c).glaesh = s.glaesh := by simp [sendDisagreement]
@[simp] theorem putColl_glaesh (c : Coll) : (putColl s c).glaesh = s.glaesh := by rfl
@[simp] theorem dropColl_glaesh (c : Coll) : (dropColl s c).glaesh = s.glaesh := by rfl
@[simp] theorem closeColl_glaesh (c : Coll) : (closeColl s c).glaesh = s.glaesh := by rfl
@[simp] theorem collWord_glaesh (sh : Nat) (d : List Byte) (status count : Nat) :
    (collWord s sh d status count).glaesh = s.glaesh := by unfold collWord; dsimp only; (repeat' split) <;> simp

@[simp] theorem collStore_glaesh (c : Coll) (bs : List Byte) : (collStore s c bs).1.glaesh = s.glaesh := by
  unfold collStore
  split
  · split
    · rfl
    · split
      · split
        · rfl
        · next h => split <;> simp [writeData_glaesh h]
      · rfl
  · simp
  · rfl

@[simp] theorem collEnds_glaesh (c : Coll) (st : Byte) (count invalid : Nat) :
    (collEnds s c st count invalid).glaesh = s.glaesh := by unfold collEnds; split <;> simp
@[simp] theorem deliver_glaesh (c : Coll) (bs : List Byte) : (deliver s c bs).glaesh = s.glaesh := by simp [deliver]
@[simp] theorem collDone_glaesh (c : Coll) (bs : List Byte) (invalid : Nat) : (collDone s c bs invalid).glaesh = s.glaesh := by
  unfold collDone; dsimp only; (repeat' split) <;> simp
@[simp] theorem countMerge_glaesh (c : Coll) : (countMerge s c).glaesh = s.glaesh := by simp [countMerge]
@[simp] theorem collStep_glaesh (c : Coll) : (collStep s c).glaesh = s.glaesh := by
  unfold collStep; dsimp only; (repeat' split) <;> simp
@[simp] theorem collStepAll_glaesh : (collStepAll s).glaesh = s.glaesh := foldl_glaesh _ (fun s c => by split <;> simp) _ s
@[simp] theorem collBegin_glaesh (c : Coll) : (collBegin s c).glaesh = s.glaesh := by simp [collBegin]

@[simp] theorem collForeign_glaesh (a : Adm) : (collForeign s a).glaesh = s.glaesh := by
  unfold collForeign
  split
  · split
    · simp
    · next h => simp [writeData_glaesh h]
  · simp

@[simp] theorem collIssue_glaesh (sh no : Nat) (i : Instance) (d : List Byte) : (collIssue s sh no i d).glaesh = s.glaesh := by
  unfold collIssue; split <;> simp

/-! ### Search -/

@[simp] theorem joinWindow_glaesh (a : Adm) (l : Nat) : (joinWindow s a l).glaesh = s.glaesh := by rfl
@[simp] theorem issueLists_glaesh (a : Adm) (i : Nat) (ls : List Nat) : (issueLists s a i ls).glaesh = s.glaesh := by
  simp [issueLists]
@[simp] theorem joinWindows_glaesh (a : Adm) : (joinWindows s a).glaesh = s.glaesh := by
  unfold joinWindows; dsimp only; (repeat' split) <;> simp
@[simp] theorem searchRun_glaesh (a : Adm) (batch : Bool) : (searchRun s a batch).glaesh = s.glaesh := by simp [searchRun]

@[simp] theorem execFilterEval_svn (cid : Nat) : svnAfter (execFilterEval cid s) = some s.glaesh.minSvn := by
  refine withCmd_svn s cid _ _ (fun a => ?_)
  dsimp only
  (repeat' split) <;> simp

@[simp] theorem execVersionInfo_svn (cid : Nat) : svnAfter (execVersionInfo cid s) = some s.glaesh.minSvn := by
  refine withCmd_svn s cid _ _ (fun a => ?_)
  dsimp only
  (repeat' split) <;> simp

/-! ### SchedOps -/

@[simp] theorem putSettings_glaesh (f : Nat) (c : Cmd) : (putSettings s f c).glaesh = s.glaesh := by simp [putSettings]
@[simp] theorem wake_glaesh (f : Nat) : (wake s f).glaesh = s.glaesh := by simp [wake]
@[simp] theorem wakeAll_glaesh : (wakeAll s).glaesh = s.glaesh := by simp [wakeAll]
@[simp] theorem queueReads_glaesh (a : Adm) : (queueReads s a).glaesh = s.glaesh := by unfold queueReads; split <;> simp
@[simp] theorem enterPool_glaesh (c : Cmd) : (enterPool s c).glaesh = s.glaesh := by simp [enterPool]
@[simp] theorem chargeAdmission_glaesh (f : Nat) (c : Cmd) : (chargeAdmission s f c).glaesh = s.glaesh := by
  simp [chargeAdmission]
@[simp] theorem dequeue_glaesh (f : Nat) (host : Bool) : (dequeue s f host).glaesh = s.glaesh := by rfl

/-! ### Objects -/

@[simp] theorem execObjWrite_svn (cid : Nat) (host : List Byte) :
    svnAfter (execObjWrite cid host s) = some s.glaesh.minSvn := by
  refine withCmd_svn s cid _ _ (fun a => ?_)
  dsimp only
  (repeat' split) <;> simp

@[simp] theorem recordHint_glaesh (oid : Nat) (h : BitVec 8) : (recordHint s oid h).glaesh = s.glaesh := by
  unfold recordHint; dsimp only; (repeat' split) <;> simp

@[simp] theorem execObjInfo_svn (cid : Nat) : svnAfter (execObjInfo cid s) = some s.glaesh.minSvn := by
  refine withCmd_svn s cid _ _ (fun a => ?_)
  dsimp only
  (repeat' split) <;> simp

@[simp] theorem grantOutcome_glaesh (a : Adm) : (grantOutcome s a).glaesh = s.glaesh := by simp [grantOutcome]
@[simp] theorem applyGrant_glaesh (a : Adm) : (applyGrant s a).glaesh = s.glaesh := by simp [applyGrant]

@[simp] theorem execHostReadError_svn (cid : Nat) (arrived : List Byte) (err : ReadError) :
    svnAfter (execHostReadError cid arrived s err) = some s.glaesh.minSvn := by
  unfold execHostReadError
  dsimp only
  split
  · rfl
  · simp only [svnAfter_ite]
    refine ite_eq_of_branches (by simp) (ite_eq_of_branches (by simp) (ite_eq_of_branches (by simp) ?_))
    split
    · rw [svnAfter_ite]
      refine ite_eq_of_branches (by simp) ?_
      split
      · simp
      · next h => simp [writeData_glaesh h]
    · simp

/-! ### SpindleOps -/

theorem bringVersion_glaesh {s t : State} {oid ver g : Nat} (h : bringVersion s oid ver g = some t) : t.glaesh = s.glaesh := by
  unfold bringVersion at h
  split at h
  · cases h; rfl
  · split_ifs at h <;> cases h <;> simp

theorem bringNear_glaesh {s t : State} {oid g : Nat} (h : bringNear s oid g = some t) : t.glaesh = s.glaesh :=
  bringVersion_glaesh h

theorem bringAll_glaesh {s t : State} {gs : List (Nat × Nat)} (h : bringAll s gs = some t) : t.glaesh = s.glaesh := by
  induction gs generalizing s with
  | nil => cases h; rfl
  | cons g gs ih =>
    unfold bringAll at h
    split at h
    · next hone => rw [ih h, bringNear_glaesh hone]
    · cases h

@[simp] theorem segWrite_glaesh (f : Nat) (x : Seg) (bs : List Byte) : (segWrite s f x bs).glaesh = s.glaesh := by
  unfold segWrite; split <;> simp
@[simp] theorem segArrive_glaesh (f : Nat) (x : Seg) : (segArrive s f x).glaesh = s.glaesh := by simp [segArrive]
@[simp] theorem updChan_glaesh (c : Nat) (g : Chan → Chan) : (updChan s c g).glaesh = s.glaesh := by rfl
@[simp] theorem runOffChannel_glaesh (f : Nat) (x : Seg) : (runOffChannel s f x).glaesh = s.glaesh := by
  unfold runOffChannel; split <;> simp
@[simp] theorem queueSegment_glaesh (c : Nat) (g : Segment) : (queueSegment s c g).glaesh = s.glaesh := by rfl
@[simp] theorem takeSegment_glaesh (f : Nat) (owner : Nat ⊕ Nat) (index : Nat) (d : List Byte) :
    (takeSegment s f owner index d).1.glaesh = s.glaesh := by
  unfold takeSegment; dsimp only; (repeat' split) <;> simp
@[simp] theorem updSequence_glaesh (cid : Nat) (g : Sequence → Sequence) : (updSequence s cid g).glaesh = s.glaesh := by rfl
@[simp] theorem sequenceOn_glaesh (cid f : Nat) : (sequenceOn s cid f).glaesh = s.glaesh := by unfold sequenceOn; split <;> simp
@[simp] theorem sequenceStep_glaesh (g : Segment) (rows : Nat) : (sequenceStep s g rows).glaesh = s.glaesh := by
  unfold sequenceStep; split <;> simp

@[simp] theorem startSequence_glaesh (a : Adm) (ds : List (List Byte)) : (startSequence s a ds).glaesh = s.glaesh := by
  unfold startSequence
  simp only
  split
  · rfl
  · split
    · simp
    · next h =>
      split
      · simp
      · split
        · simp
        · simp [bringAll_glaesh h]

@[simp] theorem startSegment_glaesh (ch : Nat) : (startSegment s ch).glaesh = s.glaesh := by
  unfold startSegment; dsimp only; (repeat' split) <;> simp
@[simp] theorem execSegmentEnd_svn (ch : Nat) : svnAfter (execSegmentEnd ch s) = some s.glaesh.minSvn := by
  unfold execSegmentEnd; dsimp only; (repeat' split) <;> simp
@[simp] theorem execSegmentStop_svn (ch : Nat) : svnAfter (execSegmentStop ch s) = some s.glaesh.minSvn := by
  unfold execSegmentStop; dsimp only; (repeat' split) <;> simp
@[simp] theorem queueScan_glaesh (a : Adm) (oid stride : Nat) (parts : List (Nat × Nat × Nat)) :
    (queueScan s a oid stride parts).glaesh = s.glaesh := by simp [queueScan]

/-! ### Rank -/

@[simp] theorem answerPart_glaesh (src f ctx : Nat) (bs : List Byte) : (answerPart s src f ctx bs).glaesh = s.glaesh := by
  simp [answerPart]
@[simp] theorem cacheParts_glaesh (f image member : Nat) (parts : List (Nat × List Word)) :
    (cacheParts s f image member parts).glaesh = s.glaesh := by unfold cacheParts; rfl
@[simp] theorem touchParts_glaesh (f image member : Nat) (rows : List Nat) :
    (touchParts s f image member rows).glaesh = s.glaesh := by rfl
@[simp] theorem dropRank_glaesh (cid : Nat) : (dropRank s cid).glaesh = s.glaesh := by rfl
@[simp] theorem rankFails_glaesh (cid : Nat) (st : Byte) : (rankFails s cid st).glaesh = s.glaesh := by rfl

@[simp] theorem rankFinish_glaesh (a : Adm) (ps : List PartFrom) : (rankFinish s a ps).glaesh = s.glaesh := by
  unfold rankFinish
  dsimp only
  refine (apply_ite State.glaesh _ _ _).trans (ite_eq_of_branches (by simp) ?_)
  simp only [finish_glaesh, dropRank_glaesh, countSpill_glaesh, countKeys_glaesh]
  exact foldl_glaesh _ (fun s p => by split <;> simp) _ s

@[simp] theorem rankStep_glaesh (cid : Nat) : (rankStep s cid).glaesh = s.glaesh := by unfold rankStep; split <;> simp
@[simp] theorem rankStepAll_glaesh : (rankStepAll s).glaesh = s.glaesh := by simp [rankStepAll]
@[simp] theorem askPart_glaesh (c : Coll) (ver : Nat) (rows : List Nat) (i : Nat) :
    (askPart s c ver rows i).glaesh = s.glaesh := by simp [askPart]

@[simp] theorem seqQueue_glaesh (a : Adm) (m : Mem) (oid : Nat) : (seqQueue s a m oid).glaesh = s.glaesh := by
  unfold seqQueue
  dsimp only
  rw [glaesh_ite]
  refine ite_eq_of_branches rfl ?_
  rw [updAdm_glaesh, glaesh_ite]
  refine ite_eq_of_branches rfl ?_
  cases h : bringAll s ((rangeGranules 0 (seqBytes m)).map (fun g => (oid, g))) with
  | none => rfl
  | some t => simp [bringAll_glaesh h]

@[simp] theorem cacheAccepted_glaesh (a : Adm) (member : Nat) : (cacheAccepted s a member).glaesh = s.glaesh := by
  unfold cacheAccepted
  split
  · rfl
  · exact cacheParts_glaesh s _ _ _ _

@[simp] theorem rankContribution_glaesh (src f ctx member : Nat) (epoch : Word) (offset : Nat) (head bs : List Byte) :
    (rankContribution s src f ctx member epoch offset head bs).glaesh = s.glaesh := by
  unfold rankContribution; (repeat' split) <;> simp

/-! ### Tables -/

@[simp] theorem gatherEnd_glaesh (a : Adm) (rows : List Byte) (ver : Nat) (td : Target) :
    (gatherEnd s a rows ver td).glaesh = s.glaesh := by
  unfold gatherEnd
  dsimp only
  split
  · split <;> simp
  · split
    · split
      · simp
      · next h => split <;> simp [writeData_glaesh h]
    · simp

@[simp] theorem execGather_svn (cid : Nat) : svnAfter (execGather cid s) = some s.glaesh.minSvn := by
  refine withCmd_svn s cid _ _ (fun a => ?_)
  dsimp only
  rw [glaesh_ite, glaesh_ite]
  refine ite_eq_of_branches (by simp) (ite_eq_of_branches (by simp) ?_)
  split
  · simp
  · split
    · simp
    · simp

@[simp] theorem updateTable_glaesh (a : Adm) (o : Obj) (t : Tbl) (tg : Target) :
    (updateTable s a o t tg).glaesh = s.glaesh := by simp [updateTable]

@[simp] theorem execRowUpdate_svn (cid : Nat) : svnAfter (execRowUpdate cid s) = some s.glaesh.minSvn := by
  refine withCmd_svn s cid _ _ (fun a => ?_)
  dsimp only
  rw [glaesh_ite, glaesh_ite, glaesh_ite]
  refine ite_eq_of_branches rfl (ite_eq_of_branches (by simp) (ite_eq_of_branches (by simp) ?_))
  split
  · split <;> simp
  · simp

@[simp] theorem execHotRowsSet_svn (cid : Nat) : svnAfter (execHotRowsSet cid s) = some s.glaesh.minSvn := by
  refine withCmd_svn s cid _ _ (fun a => ?_)
  dsimp only
  (repeat' split) <;> simp

/-! ### Pcie -/

@[simp] theorem endRequests_glaesh (f : Nat) : (endRequests s f).glaesh = s.glaesh := by
  unfold endRequests
  simp only [freeAll_glaesh, leaveWindows_glaesh, updFn_glaesh]
  rw [foldl_glaesh _ (fun s c => tellMembers_glaesh s c stNoObject), foldl_glaesh _ (fun s c => by split <;> simp)]

@[simp] theorem stopPrograms_glaesh (f : Nat) : (stopPrograms s f).glaesh = s.glaesh := by rfl
@[simp] theorem dropPrograms_glaesh (f : Nat) : (dropPrograms s f).glaesh = s.glaesh := by simp [dropPrograms]
@[simp] theorem destroyAll_glaesh (f : Nat) : (destroyAll s f).glaesh = s.glaesh := by simp [destroyAll]
@[simp] theorem flrFinish_glaesh (f : Nat) : (flrFinish s f).glaesh = s.glaesh := by simp [flrFinish]
@[simp] theorem flrFinishAll_glaesh : (flrFinishAll s).glaesh = s.glaesh := by simp [flrFinishAll]
@[simp] theorem takeDoe_glaesh (s t : State) (f : Nat) : (takeDoe s t f).glaesh = t.glaesh := by
  unfold takeDoe; (repeat' split) <;> simp
@[simp] theorem execConfigRequest_svn (f : Fn) (acc : CfgAccess) :
    svnAfter (execConfigRequest f acc s) = some s.glaesh.minSvn := by unfold execConfigRequest; (repeat' split) <;> simp
@[simp] theorem execPoisonedTlp_svn (f : Fn) (err : LinkError) :
    svnAfter (execPoisonedTlp f err s) = some s.glaesh.minSvn := by unfold execPoisonedTlp; (repeat' split) <;> simp
@[simp] theorem execDoeRequest_svn (f : Fn) (len : Nat) (obj : DoeObject) :
    svnAfter (execDoeRequest f len s obj) = some s.glaesh.minSvn := by unfold execDoeRequest; (repeat' split) <;> simp
@[simp] theorem execSpdmRequest_svn (f : Fn) (req : SpdmReq) :
    svnAfter (execSpdmRequest f req s) = some s.glaesh.minSvn := by unfold execSpdmRequest; (repeat' split) <;> simp
@[simp] theorem execGetPqSig_svn (f : Fn) : svnAfter (execGetPqSig f s) = some s.glaesh.minSvn := by
  unfold execGetPqSig; (repeat' split) <;> simp

/-! ### Window -/

@[simp] theorem updSlot_glaesh (f k : Nat) (g : Slot → Slot) : (updSlot s f k g).glaesh = s.glaesh := by rfl
@[simp] theorem commitSlot_glaesh (f k n : Nat) : (commitSlot s f k n).glaesh = s.glaesh := by rfl
@[simp] theorem windowPart_glaesh (f k off : Nat) (bs : List Byte) : (windowPart s f k off bs).glaesh = s.glaesh := by
  unfold windowPart; dsimp only; (repeat' split) <;> simp
@[simp] theorem writeRecord_glaesh (f : Nat) (fields : List (Nat × Nat × Nat)) (kind : Nat) :
    (writeRecord s f fields kind).glaesh = s.glaesh := by rfl
@[simp] theorem execEventRecordWrite_svn (f : Fn) : svnAfter (execEventRecordWrite f s) = some s.glaesh.minSvn := by
  unfold execEventRecordWrite; dsimp only; (repeat' split) <;> simp

/-! ### Admission -/

@[simp] theorem execCommandAdmit_svn : svnAfter (execCommandAdmit s) = some s.glaesh.minSvn := by
  unfold execCommandAdmit; dsimp only; (repeat' split) <;> simp
@[simp] theorem countEnd_glaesh (c : Cmd) (r : Result) : (countEnd s c r).glaesh = s.glaesh := by rfl
@[simp] theorem replyTo_glaesh (c : Cmd) (r : Result) : (replyTo s c r).glaesh = s.glaesh := by unfold replyTo; split <;> simp
@[simp] theorem endCommand_glaesh (c : Cmd) (r : Result) : (endCommand s c r).glaesh = s.glaesh := by simp [endCommand]
@[simp] theorem execQueuedDeadline_svn (cid : Nat) : svnAfter (execQueuedDeadline cid s) = some s.glaesh.minSvn := by
  unfold execQueuedDeadline; (repeat' split) <;> simp
@[simp] theorem stopWaiting_glaesh (cid : Nat) : (stopWaiting s cid).glaesh = s.glaesh := by rfl
@[simp] theorem execDeadlineExpire_svn (cid : Nat) (consumed : List Nat) :
    svnAfter (execDeadlineExpire cid consumed s) = some s.glaesh.minSvn := by
  unfold execDeadlineExpire; dsimp only; (repeat' split) <;> simp
@[simp] theorem settle_glaesh (a : Adm) (r : Result) : (settle s a r).glaesh = s.glaesh := by unfold settle; split <;> simp

/-! ### ArrayOps -/

@[simp] theorem enqueueDesc_glaesh (loom f no : Nat) (task : Option Nat) (bad : Bool) (desc : List Byte) :
    (enqueueDesc s loom f no task bad desc).glaesh = s.glaesh := by simp [enqueueDesc]
@[simp] theorem descEnds_glaesh (loom : Nat) (d : ArrayDesc) (status rows : Nat) :
    (descEnds s loom d status rows).glaesh = s.glaesh := by unfold descEnds; (repeat' split) <;> simp
@[simp] theorem chargeArrays_glaesh (d : ArrayDesc) (rows : Nat) : (chargeArrays s d rows).glaesh = s.glaesh := by
  simp [chargeArrays]
@[simp] theorem descRun_glaesh (loom : Nat) (d : ArrayDesc) : (descRun s loom d).glaesh = s.glaesh := by simp [descRun]
@[simp] theorem descError_glaesh (loom : Nat) (d : ArrayDesc) (e : Ecc) : (descError s loom d e).glaesh = s.glaesh := by
  simp [descError]
@[simp] theorem execDescriptorComplete_svn (loom : Nat) (ecc : Ecc) :
    svnAfter (execDescriptorComplete loom ecc s) = some s.glaesh.minSvn := by unfold execDescriptorComplete; split <;> simp

/-! ### Board -/

/-! ### Health -/

@[simp] theorem sendReport_glaesh (kind : Nat) (body : List Byte) : (sendReport s kind body).glaesh = s.glaesh := by
  simp [sendReport]

/-! ### Power -/

@[simp] theorem allChannels_glaesh (st : ChanState) : (allChannels s st).glaesh = s.glaesh := by unfold allChannels; rfl

/-! ### Regs -/

@[simp] theorem regClear_glaesh (f off : Nat) (lo hi : Bool) : (regClear s f off lo hi).glaesh = s.glaesh := by simp [regClear]
@[simp] theorem readReg_glaesh (f off size : Nat) : (readReg s f off size).glaesh = s.glaesh := by simp [readReg]
@[simp] theorem fnWrite_glaesh (f off size v : Nat) : (fnWrite s f off size v).glaesh = s.glaesh := by simp [fnWrite]
@[simp] theorem devWrite_glaesh (off size v : Nat) : (devWrite s off size v).glaesh = s.glaesh := by simp [devWrite]
@[simp] theorem writeReg_glaesh (f off size v : Nat) : (writeReg s f off size v).glaesh = s.glaesh := by simp [writeReg]

/-! ### Draught -/

@[simp] theorem execEnergyInterval_svn (inputNj : Nat) : svnAfter (execEnergyInterval inputNj s) = some s.glaesh.minSvn := by
  unfold execEnergyInterval
  exact congrArg (fun g : Glaesh => some g.minSvn) (foldl_glaesh (fun s (e : Nat × Nat) => updFn s e.1 _) (fun _ _ => rfl) _ _)
@[simp] theorem beginRemoval_glaesh : (beginRemoval s).glaesh = s.glaesh := by simp [beginRemoval]

/-! ### FabricIn -/

theorem takeSeq_glaesh {s t : State} {f key src : Nat} {seq : BitVec 32} (h : takeSeq s f key src seq = some t) :
    t.glaesh = s.glaesh := by
  unfold takeSeq at h
  dsimp only at h
  split_ifs at h
  cases h
  rfl

@[simp] theorem ackPacket_glaesh (src f : Nat) (seq : BitVec 32) : (ackPacket s src f seq).glaesh = s.glaesh := by
  simp [ackPacket]

@[simp] theorem withPacket_svn (p : Packet) (compressible room : Bool) (act : State → State)
    (h : ∀ u, (act u).glaesh = u.glaesh) : svnAfter (withPacket s p compressible room act) = some s.glaesh.minSvn := by
  unfold withPacket
  split
  · rfl
  · split
    · simp
    · split
      · simp
      · next hseq => split <;> simp [h, takeSeq_glaesh hseq]

@[simp] theorem withNodePacket_svn (src : Nat) (seq : BitVec 32) (act : State → State) (h : ∀ u, (act u).glaesh = u.glaesh) :
    svnAfter (withNodePacket s src seq act) = some s.glaesh.minSvn := by
  unfold withNodePacket
  split
  · rfl
  · split
    · simp
    · next hseq => simp [h, takeSeq_glaesh hseq]

@[simp] theorem withComposition_svn (src : Nat) (seq : BitVec 32) (act : State → State) (h : ∀ u, (act u).glaesh = u.glaesh) :
    svnAfter (withComposition s src seq act) = some s.glaesh.minSvn := by
  unfold withComposition
  split
  · rfl
  · split
    · simp
    · next hseq => simp [h, takeSeq_glaesh hseq]

@[simp] theorem putInbox_glaesh (kind : Nat) (p : Packet) (extra : List Nat) :
    (putInbox s kind p extra).1.glaesh = s.glaesh := by rfl
@[simp] theorem dropInbox_glaesh (b : Inbox) : (dropInbox s b).glaesh = s.glaesh := by rfl
@[simp] theorem noteDomain_glaesh (f id : Nat) (epoch : BitVec 32) (node : BitVec 16) (old : BitVec 32) :
    (noteDomain s f id epoch node old).glaesh = s.glaesh := by rfl
@[simp] theorem reissue_glaesh (f id : Nat) : (reissue s f id).glaesh = s.glaesh := by rfl
@[simp] theorem learnEpoch_glaesh (f id : Nat) (epoch : BitVec 32) (node : BitVec 16) :
    (learnEpoch s f id epoch node).glaesh = s.glaesh := by simp [learnEpoch]
@[simp] theorem setCseq_glaesh (cseq : BitVec 32) (always : Bool) : (setCseq s cseq always).glaesh = s.glaesh := by rfl
@[simp] theorem applyNode_glaesh (number runtime : BitVec 16) (reportMs : BitVec 32) :
    (applyNode s number runtime reportMs).glaesh = s.glaesh := by rfl
@[simp] theorem applyRoute_glaesh (first count : Nat) (mask : BitVec 16) :
    (applyRoute s first count mask).glaesh = s.glaesh := by rfl
@[simp] theorem applyTenant_glaesh (f : Nat) (features : BitVec 32) : (applyTenant s f features).glaesh = s.glaesh := by rfl
@[simp] theorem applyDrain_glaesh (fn : Option Nat) (on : Bool) : (applyDrain s fn on).glaesh = s.glaesh := by
  unfold applyDrain; split <;> rfl
@[simp] theorem applyMessage_glaesh (m : List Byte) : (applyMessage s m).glaesh = s.glaesh := by
  unfold applyMessage; (repeat' split) <;> simp
@[simp] theorem compose_glaesh (m : List Byte) (always : Bool) : (compose s m always).glaesh = s.glaesh := by simp [compose]
@[simp] theorem sendCarried_glaesh (a : Adm) (dst : Nat) (epoch : BitVec 32) :
    (sendCarried s a dst epoch).glaesh = s.glaesh := by simp [sendCarried]

theorem installOne_glaesh {s t : State} {f : Nat} {epoch : BitVec 32} {c : Copied} (h : installOne s f epoch c = some t) :
    t.glaesh = s.glaesh := by
  unfold installOne at h
  exact (placeAll_glaesh h).trans (by simp)

theorem installCopy_glaesh {s t : State} {f : Nat} {epoch : BitVec 32} {cs : List Copied}
    (h : installCopy s f epoch cs = some t) : t.glaesh = s.glaesh := by
  unfold installCopy at h
  split at h
  · cases h
  · clear * - h
    induction cs generalizing s with
    | nil => cases h; rfl
    | cons c cs ih =>
      rw [List.foldl_cons, Option.bind_some] at h
      cases hone : installOne s f epoch c with
      | none => rw [hone, foldl_installOne_none] at h; cases h
      | some u =>
        rw [hone] at h
        rw [ih h, installOne_glaesh hone]

@[simp] theorem answerCopy_glaesh (src f id : Nat) (st : Byte) : (answerCopy s src f id st).glaesh = s.glaesh := by
  simp [answerCopy]

@[simp] theorem installDomain_glaesh (src f id : Nat) (epoch : BitVec 32) :
    (installDomain s src f id epoch).glaesh = s.glaesh := by
  unfold installDomain
  split
  · rfl
  · split
    · rfl
    · simp only
      split
      · simp
      · next h => simp [installCopy_glaesh h]

/-! ### FabricCmd -/

@[simp] theorem execGroupDestroy_svn (cid : Nat) : svnAfter (execGroupDestroy cid s) = some s.glaesh.minSvn := by
  refine withCmd_svn s cid _ _ (fun a => ?_)
  dsimp only
  (repeat' split) <;> simp

@[simp] theorem execCutover_svn (cid : Nat) : svnAfter (execCutover cid s) = some s.glaesh.minSvn := by
  unfold execCutover; split <;> simp

/-! ### FabricRows -/

@[simp] theorem setPortState_glaesh (p : Nat) (st : PortState) : (setPortState s p st).glaesh = s.glaesh := by rfl
@[simp] theorem portDown_glaesh (p : Nat) : (portDown s p).glaesh = s.glaesh := by simp [portDown]
@[simp] theorem unreachableEnds_glaesh (dst : Nat) : (unreachableEnds s dst).glaesh = s.glaesh := by simp [unreachableEnds]
@[simp] theorem portLost_glaesh (p : Nat) : (portLost s p).glaesh = s.glaesh := by simp [portLost]
@[simp] theorem execPortTrainTimeout_svn (port : Nat) : svnAfter (execPortTrainTimeout port s) = some s.glaesh.minSvn := by
  unfold execPortTrainTimeout; split <;> simp
@[simp] theorem startRetrain_glaesh (port : Nat) : (startRetrain s port).glaesh = s.glaesh := by rfl
@[simp] theorem execRetrainEnd_svn (port : Nat) (active : Bool) :
    svnAfter (execRetrainEnd port active s) = some s.glaesh.minSvn := by
  unfold execRetrainEnd; dsimp only; (repeat' split) <;> simp
@[simp] theorem askReplay_glaesh (port : Nat) (fseq : BitVec 16) : (askReplay s port fseq).glaesh = s.glaesh := by
  simp [askReplay]
@[simp] theorem commitCarried_glaesh (src f ctx us : Nat) (bs : List Byte) :
    (commitCarried s src f ctx us bs).glaesh = s.glaesh := by simp [commitCarried]
@[simp] theorem execRequest_svn (pkt : Packet) (remainingUs : Nat) :
    svnAfter (execRequest pkt remainingUs s) = some s.glaesh.minSvn := by
  refine withPacket_svn s pkt _ _ _ (fun u => ?_); dsimp only; (repeat' split) <;> simp
@[simp] theorem execReply_svn (pkt : Packet) (fields : ReplyFields) :
    svnAfter (execReply pkt fields s) = some s.glaesh.minSvn := by
  refine withPacket_svn s pkt _ _ _ (fun u => ?_); dsimp only; (repeat' split) <;> simp
@[simp] theorem takeContribution_glaesh (pkt : Packet) (members : List Nat) (member : Nat) :
    (takeContribution s pkt members member).glaesh = s.glaesh := by unfold takeContribution; split <;> simp
@[simp] theorem execDelivery_svn (pkt : Packet) (members : List Nat) :
    svnAfter (execDelivery pkt members s) = some s.glaesh.minSvn := by
  refine withPacket_svn s pkt _ _ _ (fun u => ?_); (repeat' split) <;> simp
@[simp] theorem takePush_glaesh (pkt : Packet) : (takePush s pkt).glaesh = s.glaesh := by simp [takePush]
@[simp] theorem execStreamAbandon_svn (fn stream : Nat) :
    svnAfter (execStreamAbandon fn stream s) = some s.glaesh.minSvn := by unfold execStreamAbandon; split <;> simp
@[simp] theorem execRetransmitTimeout_svn (dst : Nat) (seq : BitVec 32) :
    svnAfter (execRetransmitTimeout dst seq s) = some s.glaesh.minSvn := by unfold execRetransmitTimeout; split <;> simp
@[simp] theorem execProbe_svn (dst : Nat) : svnAfter (execProbe dst s) = some s.glaesh.minSvn := by
  unfold execProbe; (repeat' split) <;> simp
@[simp] theorem forwardCarried_glaesh (src f id : Nat) (node : BitVec 16) :
    (forwardCarried s src f id node).glaesh = s.glaesh := by simp [forwardCarried]
@[simp] theorem composed_glaesh (cseq : BitVec 32) (ok : Bool) (act : State → State) (h : ∀ u, (act u).glaesh = u.glaesh) :
    (composed s cseq ok act).glaesh = s.glaesh := by
  unfold composed; (repeat' split) <;> simp [h]
@[simp] theorem execEpochReport_svn (fn domain : Nat) : svnAfter (execEpochReport fn domain s) = some s.glaesh.minSvn := by
  unfold execEpochReport; split <;> simp
@[simp] theorem execCollectiveDescriptorDeadline_svn (fn seq : Nat) :
    svnAfter (execCollectiveDescriptorDeadline fn seq s) = some s.glaesh.minSvn := by
  unfold execCollectiveDescriptorDeadline; (repeat' split) <;> simp

/-! ### Reed -/

@[simp] theorem updReed_glaesh (r : Nat) (g : Reed → Reed) : (updReed s r g).glaesh = s.glaesh := by rfl
@[simp] theorem reedEnds_glaesh (d : ReedDesc) (i : Instance) (status count invalid : Nat) :
    (reedEnds s d i status count invalid).glaesh = s.glaesh := by simp [reedEnds]
@[simp] theorem reedRun_glaesh (d : ReedDesc) (i : Instance) : (reedRun s d i).glaesh = s.glaesh := by simp [reedRun]
@[simp] theorem execReedStart_svn (r : Nat) : svnAfter (execReedStart r s) = some s.glaesh.minSvn := by
  unfold execReedStart; dsimp only; (repeat' split) <;> simp
@[simp] theorem storeError_glaesh (r : Nat) : (storeError s r).glaesh = s.glaesh := by simp [storeError]
@[simp] theorem execReedComplete_svn (r : Nat) (ecc : Ecc) :
    svnAfter (execReedComplete r ecc s) = some s.glaesh.minSvn := by unfold execReedComplete; split <;> simp

/-! ### Flash -/

@[simp] theorem markLost_glaesh (ls : List Loc) : (markLost s ls).glaesh = s.glaesh := by simp [markLost]
@[simp] theorem afterMedia_glaesh (r : Flash × List Loc) : (afterMedia s r).glaesh = s.glaesh := by simp [afterMedia]
@[simp] theorem retire_glaesh (d b : Nat) : (retire s d b).glaesh = s.glaesh := by simp [retire]
@[simp] theorem dieFails_glaesh (d : Nat) : (dieFails s d).glaesh = s.glaesh := by simp [dieFails]
@[simp] theorem rebuildIn_glaesh (l : Loc) (bad : List Nat) : (rebuildIn s l bad).glaesh = s.glaesh := by simp [rebuildIn]
@[simp] theorem softIn_glaesh (l : Loc) : (softIn s l).glaesh = s.glaesh := by rfl
@[simp] theorem ladderRead_glaesh (l : Loc) (need : List Nat) (o : FlashOutcome) :
    (ladderRead s l need o).glaesh = s.glaesh := by rfl
@[simp] theorem mediaRead_glaesh (l : Loc) (need : List Nat) (o : FlashOutcome) :
    (mediaRead s l need o).glaesh = s.glaesh := by unfold mediaRead; split <;> simp
@[simp] theorem readGone_glaesh (client : FlashClient) (oid ver g : Nat) :
    (readGone s client oid ver g).glaesh = s.glaesh := by rfl
@[simp] theorem apAnswer_glaesh (w : ApRead) (good : Bool) : (apAnswer s w good).glaesh = s.glaesh := by
  unfold apAnswer; split <;> simp
@[simp] theorem readEnds_glaesh (obj gran : Nat) (fr : Frame) (client : FlashClient) :
    (readEnds s obj gran fr client).glaesh = s.glaesh := by unfold readEnds; dsimp only; (repeat' split) <;> simp
@[simp] theorem execFlashReadComplete_svn (obj gran : Nat) (client : FlashClient) (outcome : FlashOutcome) (need : List Nat) :
    svnAfter (execFlashReadComplete obj gran client outcome s need) = some s.glaesh.minSvn := by
  unfold execFlashReadComplete; (repeat' split) <;> simp
@[simp] theorem execProgramComplete_svn (die : Nat) (ok : Bool) :
    svnAfter (execProgramComplete die ok s) = some s.glaesh.minSvn := by unfold execProgramComplete; split <;> simp
@[simp] theorem execWearLevelCheck_svn : svnAfter (execWearLevelCheck s) = some s.glaesh.minSvn := by
  unfold execWearLevelCheck; simp only; split <;> rfl
@[simp] theorem moveNear_glaesh (oid ver g : Nat) (fr : Frame) : (moveNear s oid ver g fr).glaesh = s.glaesh := by
  simp [moveNear]
@[simp] theorem movePeat_glaesh (oid ver g : Nat) : (movePeat s oid ver g).glaesh = s.glaesh := by
  unfold movePeat; (repeat' split) <;> simp
@[simp] theorem execGranuleMoveComplete_svn (obj gran : Nat) :
    svnAfter (execGranuleMoveComplete obj gran s) = some s.glaesh.minSvn := by
  unfold execGranuleMoveComplete; dsimp only; (repeat' split) <;> simp

/-! ### Index -/

@[simp] theorem mutateIndex_glaesh (a : Adm) (o : Obj) (ts : Target) (upsert : Bool) :
    (mutateIndex s a o ts upsert).glaesh = s.glaesh := by unfold mutateIndex; dsimp only; (repeat' split) <;> simp
@[simp] theorem mutateRun_glaesh (a : Adm) (upsert : Bool) : (mutateRun s a upsert).glaesh = s.glaesh := by
  unfold mutateRun; dsimp only; (repeat' split) <;> simp

@[simp] theorem execIndexCompact_svn (cid : Nat) : svnAfter (execIndexCompact cid s) = some s.glaesh.minSvn := by
  refine withCmd_svn s cid _ _ (fun a => ?_)
  dsimp only
  (repeat' split) <;> simp

/-! ### Picks -/

theorem bringList_glaesh {s t : State} {oid ver : Nat} {gs : List Nat} (h : bringList s oid ver gs = some t) :
    t.glaesh = s.glaesh := by
  induction gs generalizing s with
  | nil => cases h; rfl
  | cons g gs ih =>
    obtain ⟨u, hone, hrest⟩ := Option.bind_eq_some_iff.1 h
    rw [ih hrest, bringVersion_glaesh hone]

@[simp] theorem scanMember_glaesh (w : Window) (acc : State × List Nat) (c : Nat) :
    (scanMember w acc c).1.glaesh = acc.1.glaesh := by
  unfold scanMember
  simp only
  split
  · rfl
  · split
    · rfl
    · next h => simp [bringList_glaesh h]

@[simp] theorem chargePick_glaesh (w : Window) (ms : List Nat) : (chargePick s w ms).glaesh = s.glaesh := by
  unfold chargePick
  dsimp only
  rw [foldl_glaesh _ (fun s f => by simp), streamRange_glaesh]

@[simp] theorem loomPick_glaesh (w : Window) (ms : List Nat) (loom : Nat) : (loomPick s w ms loom).glaesh = s.glaesh := by
  simp [loomPick]

@[simp] theorem execPickWindowClose_svn (index version list cls : Nat) :
    svnAfter (execPickWindowClose index version list cls s) = some s.glaesh.minSvn := by
  unfold execPickWindowClose
  split
  · rfl
  · next w _ =>
    have hscan (t : State) : (w.members.foldl (scanMember w) (t, [])).1.glaesh = t.glaesh :=
      foldl_fst_glaesh _ (scanMember_glaesh w) _ _
    dsimp only
    rw [svnAfter_ite]
    refine ite_eq_of_branches ?_ ?_
    · simp [apply_ite Prod.fst]
    · split <;> simp [apply_ite Prod.fst]

@[simp] theorem execResultMerge_svn (cid list : Nat) (epoch : BitVec 32) :
    svnAfter (execResultMerge cid list epoch s) = some s.glaesh.minSvn := by unfold execResultMerge; split <;> simp

/-! ### Programs -/

@[simp] theorem takeLoom_glaesh (f l base : Nat) (init : List Byte) : (takeLoom s f l base init).glaesh = s.glaesh := by rfl
@[simp] theorem grantShuttles_glaesh (no l n : Nat) : (grantShuttles s no l n).glaesh = s.glaesh := by simp [grantShuttles]

theorem startInstance_glaesh {s t : State} {a : Adm} {m : Mem} {arg no : Nat} {argBs : List Byte}
    (h : startInstance s a m arg argBs = some (t, no)) : t.glaesh = s.glaesh := by
  unfold startInstance at h
  dsimp only at h
  split at h
  · cases h
  · split at h
    · cases h
      simp
    · cases h

@[simp] theorem execProgStart_svn (cid : Nat) : svnAfter (execProgStart cid s) = some s.glaesh.minSvn := by
  refine withCmd_svn s cid _ _ (fun a => ?_)
  dsimp only
  rw [glaesh_ite]
  refine ite_eq_of_branches (by simp) ?_
  split
  · simp
  · rw [glaesh_ite]
    refine ite_eq_of_branches (by simp) ?_
    split
    · next h => simp [startInstance_glaesh h]
    · simp

@[simp] theorem execProgStop_svn (cid : Nat) : svnAfter (execProgStop cid s) = some s.glaesh.minSvn := by
  refine withCmd_svn s cid _ _ (fun a => ?_); dsimp only; (repeat' split) <;> simp

@[simp] theorem withKnot_glaesh (a : Adm) (g : Nat → Knot → State) (h : ∀ k x, (g k x).glaesh = s.glaesh) :
    (withKnot s a g).glaesh = s.glaesh := by
  unfold withKnot
  simp only
  split
  · exact h _ _
  · simp

@[simp] theorem execKnotAlloc_svn (cid : Nat) : svnAfter (execKnotAlloc cid s) = some s.glaesh.minSvn := by
  refine withCmd_svn s cid _ _ (fun a => ?_)
  split <;> simp
@[simp] theorem launchShuttle_glaesh (no : Nat) (i : Instance) (t : Nat) (x : Task) (sh index : Nat) :
    (launchShuttle s no i t x sh index).glaesh = s.glaesh := by rfl
@[simp] theorem execTaskStart_svn (inst task : Nat) : svnAfter (execTaskStart inst task s) = some s.glaesh.minSvn := by
  unfold execTaskStart; split <;> simp
@[simp] theorem execTaskDeadline_svn (inst task : Nat) :
    svnAfter (execTaskDeadline inst task s) = some s.glaesh.minSvn := by unfold execTaskDeadline; (repeat' split) <;> simp
@[simp] theorem execProgStopTimeout_svn (inst : Nat) : svnAfter (execProgStopTimeout inst s) = some s.glaesh.minSvn := by
  unfold execProgStopTimeout; split <;> simp

/-! ### Security -/

@[simp] theorem execFabricKeySet_svn (cid : Nat) : svnAfter (execFabricKeySet cid s) = some s.glaesh.minSvn := by
  refine withCmd_svn s cid _ _ (fun a => ?_)
  dsimp only
  (repeat' split) <;> simp

theorem sealFn_glaesh {s t : State} {f : Nat} (h : sealFn s f = some t) : t.glaesh = s.glaesh := by
  unfold sealFn at h
  simp only at h
  split at h
  · cases h
  · split_ifs at h <;> cases h <;> simp

@[simp] theorem isolate_glaesh (s t : State) (cid : Nat) (h : t.glaesh = s.glaesh) : (isolate s t cid).glaesh = s.glaesh := by
  unfold isolate; (repeat' split) <;> simp [h]

@[simp] theorem execIsolationSet_svn (cid : Nat) : svnAfter (execIsolationSet cid s) = some s.glaesh.minSvn := by
  refine withCmd_svn s cid _ _ (fun a => ?_)
  dsimp only
  split
  · simp
  · split
    · split
      · next h => exact isolate_glaesh _ _ _ (sealFn_glaesh h)
      · simp
    · rw [glaesh_ite, glaesh_ite]
      exact ite_eq_of_branches (by simp) (ite_eq_of_branches (isolate_glaesh _ _ _ (by simp)) (by simp))

/-! ### Start -/

@[simp] theorem stageBootRom_glaesh : (stageBootRom s).glaesh = s.glaesh := by simp [stageBootRom]
@[simp] theorem stageVerify_svn : (stageVerify s).glaesh.minSvn = s.glaesh.minSvn := by rfl
@[simp] theorem stageDie_glaesh : (stageDie s).glaesh = s.glaesh := by rfl
@[simp] theorem stageFlash_glaesh (badDies : List Nat) : (stageFlash s badDies).glaesh = s.glaesh := by simp [stageFlash]
@[simp] theorem stageRestore_glaesh : (stageRestore s).glaesh = s.glaesh := by rfl
@[simp] theorem kindlingReady_glaesh : (kindlingReady s).glaesh = s.glaesh := by rfl
@[simp] theorem boltTested_glaesh (failed : Bool) : (boltTested s failed).glaesh = s.glaesh := by simp [boltTested]

/-! ### Service -/

@[simp] theorem execHealthEvaluate_svn : svnAfter (execHealthEvaluate s) = some s.glaesh.minSvn := by
  unfold execHealthEvaluate
  dsimp only
  rw [svnAfter_ite, svnAfter_next, svnAfter_next, glaesh_ite, causeSnap_glaesh, postEvent_glaesh, ite_self]
  exact ite_self _

@[simp] theorem pressed_glaesh : (pressed s).glaesh = s.glaesh := by simp [pressed]

/-! ### ShuttleOps -/

@[simp] theorem ShCtx.goto_glaesh (c : ShCtx) (x : Shuttle) (pc : Nat) : (ShCtx.goto c s x pc).glaesh = s.glaesh := by rfl
@[simp] theorem ShCtx.step_glaesh (c : ShCtx) (x : Shuttle) : (ShCtx.step c s x).glaesh = s.glaesh := by rfl
@[simp] theorem ShCtx.put_glaesh (c : ShCtx) (v : BitVec 64) : (ShCtx.put c s v).glaesh = s.glaesh := by rfl
@[simp] theorem ShCtx.putV_glaesh (c : ShCtx) (v : BitVec 512) : (ShCtx.putV c s v).glaesh = s.glaesh := by rfl
@[simp] theorem ShCtx.fault_glaesh (c : ShCtx) (k : Nat) : (ShCtx.fault c s k).glaesh = s.glaesh := by simp [ShCtx.fault]
@[simp] theorem ShCtx.wait_glaesh (c : ShCtx) : (ShCtx.wait c s).glaesh = s.glaesh := by rfl
@[simp] theorem ShCtx.jump_glaesh (c : ShCtx) (x : Shuttle) (target : Int) : (ShCtx.jump c s x target).glaesh = s.glaesh := by
  simp [ShCtx.jump]

/-- A row of an instruction goes on and keeps MIN_SVN where the instruction's work does. -/
@[simp] theorem withIns_svn (o : ShOp) (sh : Nat) (k : ShCtx → State → State) (h : ∀ c u, (k c u).glaesh = u.glaesh) :
    svnAfter (withIns o sh s k) = some s.glaesh.minSvn := by
  unfold withIns; dsimp only; (repeat' split) <;> simp [h, issued]

@[simp] theorem chargeAccess_glaesh (c : ShCtx) (a n : Nat) : (chargeAccess s c a n).glaesh = s.glaesh := by
  unfold chargeAccess; split <;> rfl
@[simp] theorem ShCtx.lost_glaesh (c : ShCtx) : (ShCtx.lost c s).glaesh = s.glaesh := by simp [ShCtx.lost]
@[simp] theorem ShCtx.broken_glaesh (c : ShCtx) : (ShCtx.broken c s).glaesh = s.glaesh := by simp [ShCtx.broken]
@[simp] theorem ShCtx.load_glaesh (c : ShCtx) (n reg : Nat) (vector extend : Bool) :
    (c.load s n reg vector extend).glaesh = s.glaesh := by
  unfold ShCtx.load; dsimp only; (repeat' split) <;> simp
@[simp] theorem ShCtx.loadG_glaesh (c : ShCtx) (n : Nat) (sx : Bool) : (ShCtx.loadG c s n sx).glaesh = s.glaesh := by
  simp [ShCtx.loadG]
@[simp] theorem ShCtx.store_glaesh (c : ShCtx) (n : Nat) (v : Nat) : (ShCtx.store c s n v).glaesh = s.glaesh := by
  unfold ShCtx.store; dsimp only; (repeat' split) <;> simp

/-- An atomic that is performed or discarded leaves what Glaesh holds. -/
theorem atomicAt_glaesh {s t : State} {c : ShCtx} {a : Nat} (h : atomicAt s c a = .write t ∨ atomicAt s c a = .discard t) :
    t.glaesh = s.glaesh := by
  unfold atomicAt at h
  split at h
  · split at h <;> simp at h <;> simp [← h]
  · simp at h; simp [← h]
  · split at h
    · simp at h; simp [← h]
    · simp at h; simp [← h]
    · split at h
      · simp at h; simp [← h]
      · split at h
        · simp at h; simp [← h]
        · split at h
          · simp at h
          · split at h
            · simp at h
            · split at h
              · simp at h
              · split at h
                · next hb => simp at h; rw [← h, bringNear_glaesh hb]
                · simp at h

@[simp] theorem ShCtx.atomic_glaesh (c : ShCtx) : (c.atomic s).glaesh = s.glaesh := by
  unfold ShCtx.atomic
  dsimp only
  split
  · simp
  · split
    · simp
    · split
      · simp
      · simp
      · simp
      · simp
      · next h => simp [atomicAt_glaesh (.inr h)]
      · next h => split <;> simp [atomicAt_glaesh (.inl h)]

theorem issueSegment_glaesh {s t : State} {c : ShCtx} (h : issueSegment s c = some t) : t.glaesh = s.glaesh := by
  unfold issueSegment at h
  dsimp only at h
  split at h
  · cases h
  · split at h
    · cases h
    · obtain ⟨u, hu, ht⟩ := Option.map_eq_some_iff.1 h
      rw [← ht, ← bringAll_glaesh hu]
      split
      · split <;> simp
      · simp

@[simp] theorem ShCtx.issue_glaesh (c : ShCtx) : (c.issue s).glaesh = s.glaesh := by
  unfold ShCtx.issue
  dsimp only
  split
  · split <;> simp
  · split
    · simp
    · split <;> simp
  · split
    · next h => simp [issueSegment_glaesh h]
    · simp
  · split <;> simp

/-! ### Shuttle -/

@[simp] theorem execFetchComplete_svn (sh : Nat) : svnAfter (execFetchComplete sh s) = some s.glaesh.minSvn := by
  unfold execFetchComplete; dsimp only; (repeat' split) <;> simp
@[simp] theorem loadError_glaesh (sh : Nat) (p : Operand) (e : Ecc) : (loadError s sh p e).1.glaesh = s.glaesh := by
  unfold loadError; dsimp only; (repeat' split) <;> simp
@[simp] theorem execOperandArrive_svn (sh : Nat) (ecc : Ecc) :
    svnAfter (execOperandArrive sh ecc s) = some s.glaesh.minSvn := by
  unfold execOperandArrive; dsimp only; (repeat' split) <;> simp
@[simp] theorem ShCtx.branch_glaesh (c : ShCtx) (o : ShOp) : (ShCtx.branch c s o).glaesh = s.glaesh := by simp [ShCtx.branch]
@[simp] theorem execKwait_svn (sh : Nat) : svnAfter (execKwait sh s) = some s.glaesh.minSvn := by
  refine withIns_svn s _ sh _ (fun c u => ?_); dsimp only; (repeat' split) <;> simp

/-! ### Resets and the rails -/

@[simp] theorem deviceReset_svn (cause : Nat) : (deviceReset s cause).glaesh.minSvn = s.glaesh.minSvn := rfl
@[simp] theorem railsOff_svn : (railsOff s).glaesh.minSvn = s.glaesh.minSvn := rfl
@[simp] theorem powerLost_svn : (powerLost s).glaesh.minSvn = s.glaesh.minSvn := rfl
@[simp] theorem beginHoldUp_svn : (beginHoldUp s).glaesh.minSvn = s.glaesh.minSvn := rfl
@[simp] theorem pinReset_svn (conv : List Nat) : (pinReset s conv).glaesh.minSvn = s.glaesh.minSvn := rfl
@[simp] theorem failStart_svn (stage : Nat) : (failStart s stage).glaesh.minSvn = s.glaesh.minSvn := rfl
@[simp] theorem startRails_svn : (startRails s).glaesh.minSvn = s.glaesh.minSvn := by unfold startRails; split <;> rfl
@[simp] theorem startIfReady_svn : (startIfReady s).glaesh.minSvn = s.glaesh.minSvn := by simp [startIfReady]
@[simp] theorem restartIfReady_svn (conv : List Nat) : (restartIfReady s conv).glaesh.minSvn = s.glaesh.minSvn := by
  simp [restartIfReady]
@[simp] theorem inputLost_svn : (inputLost s).glaesh.minSvn = s.glaesh.minSvn := by simp [inputLost]
@[simp] theorem openSwitch_svn (onCurrent : Bool) : (openSwitch s onCurrent).glaesh.minSvn = s.glaesh.minSvn := by
  simp [openSwitch]
@[simp] theorem powerCycle_svn : (powerCycle s).glaesh.minSvn = s.glaesh.minSvn := by simp [powerCycle]
@[simp] theorem warnInlet_glaesh : (warnInlet s).glaesh = s.glaesh := by simp [warnInlet]
@[simp] theorem mgmtPut_svn (code : Byte) (data : List Byte) (pec : Option Byte) :
    (mgmtPut s code data pec).glaesh.minSvn = s.glaesh.minSvn := by
  unfold mgmtPut; dsimp only; (repeat' split) <;> simp
@[simp] theorem tapBypass_glaesh : (tapBypass s).glaesh = s.glaesh := rfl
@[simp] theorem tapBoundary_glaesh (bits : BitVec 15) (instr : TapInstr) : (tapBoundary s bits instr).glaesh = s.glaesh := rfl
@[simp] theorem noteTemp_glaesh (l : ThermLevel) (t : Int) : (noteTemp s l t).glaesh = s.glaesh := by cases l <;> rfl
@[simp] theorem exitKindling_svn (slot : Option Nat) : (exitKindling s slot).glaesh.minSvn = s.glaesh.minSvn := by
  simp [exitKindling]
@[simp] theorem nodeEnds_svn (c : Cmd) (r : Result) : (nodeEnds s c r).glaesh.minSvn = s.glaesh.minSvn := by
  simp [nodeEnds]

/-! ### The rows of the always-on domain, and those that reset the node or turn its rails off -/

@[simp] theorem whenPowered_svn (t : State) :
    svnAfter (whenPowered s t) = some (if s.board.powered then t.glaesh.minSvn else s.glaesh.minSvn) := by
  simp [whenPowered]
@[simp] theorem execAlertResponse_svn (q : SmbusQuery) : svnAfter (execAlertResponse s q) = some s.glaesh.minSvn := by
  cases q <;> simp [execAlertResponse]
@[simp] theorem execReplyRecordWrite_svn (f : Fn) : svnAfter (execReplyRecordWrite f s) = some s.glaesh.minSvn := by
  unfold execReplyRecordWrite; dsimp only; split <;> simp
@[simp] theorem execCommandComplete_svn (cid : Nat) : svnAfter (execCommandComplete cid s) = some s.glaesh.minSvn := by
  unfold execCommandComplete; dsimp only; (repeat' split) <;> simp
@[simp] theorem execPanelPress_svn : svnAfter (execPanelPress s) = some s.glaesh.minSvn := by
  unfold execPanelPress; split <;> simp

end

/-- Every row but the end of a start stage goes on and keeps MIN_SVN. -/
theorem exec_svn {c : Instr} (h : ∀ stage failed bad, c ≠ .startStageEnd stage failed bad) (s : State) :
    svnAfter (exec c s) = some s.glaesh.minSvn := by
  cases c with
  | startStageEnd stage failed bad => exact absurd rfl (h stage failed bad)
  -- instructions of shuttles
  | alu | fpu | addi | andi | ori | xori | shi | slti | lui | gets | ld1 | ld2 | ld4 | ld8 | lds1 | lds2 | lds4 | st1 | st2
  | st4 | st8 | vld | vst | amo | fence | beq | bne | blt | bge | bltu | bgeu | jal | jalr | vop | karr | kset | ktest
  | issue | irq | halt | exit =>
    simp [exec, execAlu, execFpu, execAddi, execAndi, execOri, execXori, execShi, execSlti, execLui, execGets, execLd1,
      execLd2, execLd4, execLd8, execLds1, execLds2, execLds4, execSt1, execSt2, execSt4, execSt8, execVld, execVst, execAmo,
      execFence, execBeq, execBne, execBlt, execBge, execBltu, execBgeu, execJal, execJalr, execVop, execKarr, execKset,
      execKtest, execIssue, execIrq, execHalt, execExit]
  -- commands
  | schedSet | objCreate | objDestroy | objRead | objCopy | objHint | objGrant | objRevoke | indexCreateList
  | indexCreateGraph | indexLoad | itemUpsert | itemDelete | search | searchBatch | selectTopk | selectUnique | selectArgmax
  | tableCreate | tableLoad | rank | progLoad | knotSet | knotArrive | knotWait | spindleRun | knotFree | groupCreate
  | collective | fabricRequest | compose | migrate | enterBanked | enterDormant | privPartition | snapshotFire | selfTest
  | kindlingExit | fwStage | fwCommit | violationRead =>
    simp [exec, execSchedSet, execObjCreate, execObjDestroy, execObjRead, execObjCopy, execObjHint, execObjGrant,
      execObjRevoke, execIndexCreateList, execIndexCreateGraph, execIndexLoad, execItemUpsert, execItemDelete, execSearch,
      execSearchBatch, execSelectTopk, execSelectUnique, execSelectArgmax, execTableCreate, execTableLoad, execRank,
      execProgLoad, execKnotSet, execKnotArrive, execKnotWait, execSpindleRun, execKnotFree, execGroupCreate, execCollective,
      execFabricRequest, execCompose, execMigrate, execEnterBanked, execEnterDormant, execPrivPartition, execSnapshotFire,
      execSelfTest, execKindlingExit, execFwStage, execFwCommit, execViolationRead]
  | nop | identify | schedGet | portStatus | powerCap | energyRead | healthRead =>
    exact withCmd_svn s _ _ _ (fun a => by simp)
  -- composition and moves
  | node | route | tenant | epoch | drain | undrain | moved =>
    simp [exec, execNode, execRoute, execTenant, execEpoch, execDrain, execUndrain, execMoved]
  -- the always-on domain
  | powerOnReset | pinReset | resetRelease | pinConfiguration | vinTurnOn | railEnable | railFault | inputLoss | holdUpEnd
  | overvoltageSwitchOff | ocTrip | switchReclose | inputBandChange | iinLimit | stbyLost | thermTrip | tripLatchRelease
  | junctionSensorsCool | powerCycle | statusWrite | inletTemp | inletTempTimeout | powerCycleRestart | tapReset | bypass
  | idcode | samplePreload | extest | trigIn =>
    simp [exec, execPowerOnReset, execPinReset, execResetRelease, execPinConfiguration, execVinTurnOn, execRailEnable,
      execRailFault, execInputLoss, execHoldUpEnd, execOvervoltageSwitchOff, execOcTrip, execSwitchReclose,
      execInputBandChange, execIinLimit, execStbyLost, execThermTrip, execTripLatchRelease, execJunctionSensorsCool,
      execPowerCycle, execStatusWrite, execInletTemp, execInletTempTimeout, execPowerCycleRestart, execTapReset, execBypass,
      execIdcode, execSamplePreload, execExtest, execTrigIn]
  -- rows that reset the node or turn its rails off
  | draughtAllocation | thermalLevelEntry | thermalLevelExit | dormantRailsOff | startTimeout | panelHold | removalProceed =>
    simp [exec, execDraughtAllocation, takeReadings, execThermalLevelEntry, execThermalLevelExit, execDormantRailsOff,
      execStartTimeout, execPanelHold, execRemovalProceed]
  -- the other rows
  | linkDown | hotReset | functionLevelReset | flrComplete | vfEnable | vfDisable | powerStateWrite | l1Entry | doeAbort
  | getPqCert | setKek | setCompositionKey | setNodeKey | commandWindowWrite | ringEnable | ringDisable | ringHeadWrite
  | apply | msixUnmask | readClear | qsampleCountRead | registerWrite | coalesceTimeout | riseAdmit | segmentStart
  | channelExitEnd | refreshDue | gapEnd | ioRateChange | flashRateChange | portDetect | equaliseEnd | alignEnd
  | portDownRetry | retrain | flitReceive | replayRequest | creditReturn | contribution | push | ack | report | eraseComplete
  | dieTimeout | droopEvent | vloomStep | marginReplan | paceStep | bankedExit | snapshotTrigger | snapshotCopyDone
  | pcieLinkUp | rearm | shaperRefill | queueSample | journalWrite | mapWrite | zqCalibration | patrol | monitorSample
  | droopFloor | efficiencyMeasure | ageingHour | junctionCapStep | refclkStable =>
    simp [exec, execLinkDown, execHotReset, execFunctionLevelReset, execFlrComplete, execVfEnable, execVfDisable,
      execPowerStateWrite, execL1Entry, execDoeAbort, execGetPqCert, execSetKek, execSetCompositionKey, execSetNodeKey,
      execCommandWindowWrite, execRingEnable, execRingDisable, execRingHeadWrite, execApply, execMsixUnmask, execReadClear,
      execQsampleCountRead, execRegisterWrite, execCoalesceTimeout, execRiseAdmit, execSegmentStart, execChannelExitEnd,
      execRefreshDue, execGapEnd, execIoRateChange, execFlashRateChange, execPortDetect, execEqualiseEnd, execAlignEnd,
      execPortDownRetry, execRetrain, execFlitReceive, execReplayRequest, execCreditReturn, execContribution, execPush,
      execAck, execReport, execEraseComplete, execDieTimeout, execDroopEvent, execVloomStep, execMarginReplan, execPaceStep,
      execBankedExit, execSnapshotTrigger, execSnapshotCopyDone, execPcieLinkUp, execRearm, execShaperRefill,
      execQueueSample, execJournalWrite, execMapWrite, execZqCalibration, execPatrol, execMonitorSample, execDroopFloor,
      execEfficiencyMeasure, execAgeingHour, rollHours, execJunctionCapStep, execRefclkStable]
  | _ => simp [exec]

/-! ### The end of a start stage -/

/-- A stage whose turn it is ends, or fails the start (R481, R485). -/
theorem exec_startStageEnd_due {k : Nat} {s : State} (hs : s.boot.starting = true) (hk : s.boot.kindling = false) (h0 : k ≠ 0)
    (h9 : k ≤ 9) (hneeds : (stageNeeds false k).all s.boot.stages.contains = true) (hnew : k ∉ s.boot.stages) (failed : Bool)
    (bad : List Nat) :
    exec (.startStageEnd k failed bad) s = if stageFails s k failed bad then .next (failStart s k)
      else .next { stageEffect s bad k with
        boot := { (stageEffect s bad k).boot with stages := (stageEffect s bad k).boot.stages ++ [k] } } := by
  have hgo : (!s.boot.starting || decide (k = 0) || decide (9 < k) || !(stageNeeds false k).all s.boot.stages.contains) =
      false := by
    rw [hs, hneeds]
    simp [h0, h9]
  have hold : s.boot.stages.contains k = false := by simpa using hnew
  simp only [exec, execStartStageEnd, hk, hgo, hold, Bool.false_eq_true, if_false]

/-- Service-ready raises MIN_SVN to the running image's SVN where that is higher (R500). -/
theorem serviceReady_svn (s : State) :
    (serviceReady s).glaesh.minSvn.toNat = max s.glaesh.minSvn.toNat s.glaesh.fwSvn.toNat := by
  have hfits : max s.glaesh.minSvn.toNat s.glaesh.fwSvn.toNat < 2 ^ 32 := max_lt s.glaesh.minSvn.isLt s.glaesh.fwSvn.isLt
  have hkept : (serviceReady s).glaesh.minSvn = BitVec.ofNat 32 (max s.glaesh.minSvn.toNat s.glaesh.fwSvn.toNat) := by
    simp [serviceReady]
  rw [hkept, BitVec.toNat_ofNat, Nat.mod_eq_of_lt hfits]

/-- Service-ready clears the count and the mark of a trial slot that ran, and notes the slot (R482, R487). -/
theorem serviceReady_boot (s : State) : (serviceReady s).boot = { s.boot with
    failCount := 0, starting := false, serviceReady := true
    trial := if s.boot.trial == runningSlot s.boot then none else s.boot.trial
    lastGood := if (runningSlot s.boot).isSome then runningSlot s.boot else s.boot.lastGood } :=
  (apply_ite State.boot _ _ _).trans (ite_self _)

/-- Every stage but the last keeps MIN_SVN. -/
theorem stageEffect_svn {k : Nat} (h : k ≠ 9) (s : State) (bad : List Nat) :
    (stageEffect s bad k).glaesh.minSvn = s.glaesh.minSvn := by
  unfold stageEffect
  split
  case h_6 => exact absurd rfl h
  all_goals simp

/-- The end of a stage goes on; it keeps MIN_SVN, or it reaches service-ready and raises it. -/
theorem startStageEnd_svn (k : Nat) (failed : Bool) (bad : List Nat) (s : State) :
    ∃ t, exec (.startStageEnd k failed bad) s = .next t ∧ (t.glaesh.minSvn = s.glaesh.minSvn ∨
      s.boot.starting = true ∧ t.boot.serviceReady = true ∧
        t.glaesh.minSvn.toNat = max s.glaesh.minSvn.toNat s.glaesh.fwSvn.toNat) := by
  simp only [exec, execStartStageEnd]
  split
  · exact ⟨_, rfl, .inl rfl⟩
  · next hgo =>
    have hstarting : s.boot.starting = true := by
      by_contra hs
      simp [hs] at hgo
    split
    · split
      · exact ⟨_, rfl, .inl (by simp)⟩
      · split <;> exact ⟨_, rfl, .inl rfl⟩
    · split
      · exact ⟨_, rfl, .inl rfl⟩
      · split
        · exact ⟨_, rfl, .inl rfl⟩
        · by_cases h9 : k = 9
          · subst h9
            exact ⟨_, rfl, .inr ⟨hstarting, congrArg Boot.serviceReady (serviceReady_boot s), serviceReady_svn s⟩⟩
          · exact ⟨_, rfl, .inl (stageEffect_svn h9 s bad)⟩

/-- Stage 9 ends once stage 8 has: service-ready, with MIN_SVN raised (R483, R500). -/
theorem startStageEnd_ready (failed : Bool) (bad : List Nat) (s : State) (hs : s.boot.starting = true)
    (hk : s.boot.kindling = false) (h8 : 8 ∈ s.boot.stages) (h9 : 9 ∉ s.boot.stages) :
    ∃ t, exec (.startStageEnd 9 failed bad) s = .next t ∧ t.boot.serviceReady = true ∧
      t.glaesh.minSvn.toNat = max s.glaesh.minSvn.toNat s.glaesh.fwSvn.toNat := by
  rw [exec_startStageEnd_due hs hk (by decide) le_rfl (by simpa [stageNeeds] using h8) h9, if_neg (by simp [stageFails])]
  exact ⟨_, rfl, congrArg Boot.serviceReady (serviceReady_boot s), serviceReady_svn s⟩

/-! ### Every row -/

/-- Every row goes on; it keeps MIN_SVN, or it is the end of the start that raises it (R500). -/
theorem exec_goesOn_svn (c : Instr) (s : State) :
    ∃ t, exec c s = .next t ∧ (t.glaesh.minSvn = s.glaesh.minSvn ∨
      s.boot.starting = true ∧ t.boot.serviceReady = true ∧
        t.glaesh.minSvn.toNat = max s.glaesh.minSvn.toNat s.glaesh.fwSvn.toNat) := by
  by_cases hc : ∃ k failed bad, c = .startStageEnd k failed bad
  · obtain ⟨k, failed, bad, rfl⟩ := hc
    exact startStageEnd_svn k failed bad s
  · have hsvn := exec_svn (fun k failed bad h => hc ⟨k, failed, bad, h⟩) s
    cases ho : exec c s with
    | next t => exact ⟨t, rfl, .inl (Option.some.inj (by rwa [ho] at hsvn))⟩
    | fault r => rw [ho] at hsvn; cases hsvn
    | refused r => rw [ho] at hsvn; cases hsvn

theorem step_keeps_or_raises_svn (s t : State) (h : step s = .next t) :
    t.glaesh.minSvn = s.glaesh.minSvn ∨
      s.boot.starting = true ∧ t.boot.serviceReady = true ∧
        t.glaesh.minSvn.toNat = max s.glaesh.minSvn.toNat s.glaesh.fwSvn.toNat := by
  cases hp : s.pending with
  | nil =>
    rw [step_nil hp] at h
    cases h
    rw [tick_glaesh]
    exact .inl rfl
  | cons c rest =>
    obtain ⟨u, hu, hsvn⟩ := exec_goesOn_svn c { s with pending := rest }
    rw [step_cons hp, hu] at h
    cases h
    exact hsvn

/-- Settles O2: a row that keeps MIN_SVN or raises it has gone on. -/
theorem everyCommandGoesOn : Obligations.EveryCommandGoesOn := fun c s =>
  (exec_goesOn_svn c s).imp fun _ h => h.1

/-- Settles O5, by the rows one by one, the last stage of a start apart. -/
theorem securityVersionNeverFalls : Obligations.SecurityVersionNeverFalls :=
  ⟨step_keeps_or_raises_svn, startStageEnd_ready⟩

end Sys2Proof.Laws
end

section
/-! PROOFS. O57: the start sequence. Its stages one by one, then the failure of a start, and Kindling. -/

namespace Sys2Proof.Laws
open Sys2Proof Sys2Proof.Machine Sys2Proof.Safety

/-! ### When a start fails (R485) -/

/-- More than one number of a range passes a test just where two different ones do. -/
theorem one_lt_length_filter_range (n : Nat) (p : Nat → Bool) :
    1 < ((List.range n).filter p).length ↔ ∃ d e, d < n ∧ e < n ∧ p d = true ∧ p e = true ∧ d ≠ e := by
  have hcard : ((List.range n).filter p).toFinset.card = ((List.range n).filter p).length :=
    List.toFinset_card_of_nodup (List.nodup_range.filter p)
  rw [← hcard, Finset.one_lt_card]
  simp only [List.mem_toFinset, List.mem_filter, List.mem_range]
  exact ⟨fun ⟨d, ⟨hd, hpd⟩, e, ⟨he, hpe⟩, hne⟩ => ⟨d, e, hd, he, hpd, hpe, hne⟩,
    fun ⟨d, e, hd, he, hpd, hpe, hne⟩ => ⟨d, ⟨hd, hpd⟩, e, ⟨he, hpe⟩, hne⟩⟩

/-- A stripe group is lost with two of its dies (R192). -/
theorem groupLost_iff (bad : List Nat) :
    groupLost bad = true ↔ ∃ d e, d < 512 ∧ e < 512 ∧ d ∈ bad ∧ e ∈ bad ∧ d ≠ e ∧ d % 16 = e % 16 := by
  simp only [groupLost, List.any_eq_true, List.mem_range, decide_eq_true_iff, one_lt_length_filter_range, Bool.and_eq_true,
    beq_iff_eq, List.contains_iff_mem]
  constructor
  · rintro ⟨g, -, d, e, hd, he, ⟨hdg, hdbad⟩, ⟨heg, hebad⟩, hne⟩
    exact ⟨d, e, hd, he, hdbad, hebad, hne, hdg.trans heg.symm⟩
  · rintro ⟨d, e, hd, he, hdbad, hebad, hne, hgroup⟩
    exact ⟨d % 16, Nat.mod_lt d (by decide), d, e, hd, he, ⟨rfl, hdbad⟩, ⟨hgroup.symm, hebad⟩, hne⟩

theorem stageFails_iff (k : Nat) (failed : Bool) (bad : List Nat) (s : State) : stageFails s k failed bad = true ↔
    (k = 2 ∧ (failed = true ∨ imagePasses s = false)) ∨
    (k = 6 ∧ ∃ d e, d < 512 ∧ e < 512 ∧ d ∈ bad ∧ e ∈ bad ∧ d ≠ e ∧ d % 16 = e % 16) ∨
    ((k = 4 ∨ k = 5 ∨ k = 7 ∨ k = 8) ∧ failed = true) := by
  rw [← groupLost_iff]
  by_cases h2 : k = 2
  · simp [stageFails, h2]
  · by_cases h6 : k = 6
    · simp [stageFails, h6]
    · simp [stageFails, h2, h6, or_assoc, and_comm]

/-! ### The boot ROM's choice (R480, R486-R488) -/

/-- Strap code 9 clears the count of failed starts (R480). -/
def countCleared (b : Boot) : Boot := if b.strapCode = 9 then { b with failCount := 0 } else b

theorem countCleared_of_9 {b : Boot} (h : b.strapCode = 9) : countCleared b = { b with failCount := 0 } := if_pos h

theorem countCleared_of_other {b : Boot} (h : b.strapCode ≠ 9) : countCleared b = b := if_neg h

/-- The strap and the slot do not rest on the count. -/
theorem countCleared_keeps (b : Boot) : strapKindling (countCleared b) = strapKindling b ∧
    chooseSlot (countCleared b) = chooseSlot b ∧ (countCleared b).kindling = b.kindling := by
  unfold countCleared
  split <;> exact ⟨rfl, rfl, rfl⟩

/-- Kindling starts by the count of failed starts, or by the strap (R488). -/
def wantsKindling (b : Boot) : Bool := decide (3 ≤ (countCleared b).failCount.toNat) || strapKindling (countCleared b)

theorem strapKindling_iff (b : Boot) : strapKindling b = true ↔ b.strapShort = true ∨ b.strapCode = 8 := by
  rw [strapKindling, Bool.or_eq_true, beq_iff_eq]

theorem wantsKindling_iff (b : Boot) : wantsKindling b = true ↔
    3 ≤ b.failCount.toNat ∧ b.strapCode ≠ 9 ∨ b.strapShort = true ∨ b.strapCode = 8 := by
  rw [wantsKindling, (countCleared_keeps b).1, Bool.or_eq_true, strapKindling_iff, decide_eq_true_iff]
  refine or_congr_left ?_
  by_cases h9 : b.strapCode = 9
  · rw [countCleared_of_9 h9]
    exact ⟨fun h => absurd h (by simp), fun h => absurd h9 h.2⟩
  · simp only [countCleared_of_other h9, ne_eq, h9, not_false_eq_true, and_true]

theorem stage1_of_wanted {s : State} (h : wantsKindling s.boot = true) :
    stageEffect s [] 1 = { s with
      boot := { countCleared s.boot with kindling := true, slotRun := 15 }, service := { s.service with panel := 3 } } :=
  if_pos h

theorem stage1_of_not_wanted {s : State} (h : wantsKindling s.boot = false) :
    stageEffect s [] 1 = { s with
      boot := { countCleared s.boot with slotRun := BitVec.ofNat 4 (chooseSlot (countCleared s.boot)) } } :=
  if_neg (Bool.eq_false_iff.1 h)

theorem bootRom_kindling (s : State)
    (h : 3 ≤ s.boot.failCount.toNat ∧ s.boot.strapCode ≠ 9 ∨ s.boot.strapShort = true ∨ s.boot.strapCode = 8) :
    (stageEffect s [] 1).boot.kindling = true ∧ (stageEffect s [] 1).service.panel = 3 := by
  rw [stage1_of_wanted ((wantsKindling_iff s.boot).2 h)]
  exact ⟨rfl, rfl⟩

/-- The slot that stage 1 chooses outside Kindling (R487). -/
theorem chooseSlot_eq (b : Boot) : chooseSlot b = if b.strapCode = 6 then 0 else if b.strapCode = 7 then 1
    else b.trial.getD (b.lastGood.getD (if b.trialFailed then 1 else 0)) := by
  unfold chooseSlot
  cases b.trial <;> rfl

theorem bootRom_slot (s : State) (hcount : s.boot.failCount.toNat < 3 ∨ s.boot.strapCode = 9) (hshort : s.boot.strapShort = false)
    (h8 : s.boot.strapCode ≠ 8) :
    (stageEffect s [] 1).boot.kindling = s.boot.kindling ∧
    (stageEffect s [] 1).boot.slotRun = BitVec.ofNat 4 (if s.boot.strapCode = 6 then 0 else if s.boot.strapCode = 7 then 1
      else s.boot.trial.getD (s.boot.lastGood.getD (if s.boot.trialFailed then 1 else 0))) := by
  have hno : wantsKindling s.boot = false := by
    rw [Bool.eq_false_iff, Ne, wantsKindling_iff]
    rintro (⟨hlow, h9⟩ | hon | hon)
    · exact hcount.elim (fun h => by omega) h9
    · simp [hshort] at hon
    · exact h8 hon
  obtain ⟨-, hslot, hkindling⟩ := countCleared_keeps s.boot
  rw [stage1_of_not_wanted hno, ← chooseSlot_eq, hslot]
  exact ⟨hkindling, rfl⟩

/-! ### Service-ready (R388, R482, R483, R524) -/

/-- READY is given to function 0 and to the virtual functions that are enabled (R482). -/
theorem fnOf_serviceReady {f : Nat} (hf : f < 256) (s : State) :
    fnOf (serviceReady s) f = if f == 0 || (fnOf s f).present then { fnOf s f with ready := true } else fnOf s f := by
  have hfns : (serviceReady s).fns =
      (mapFns s (fun f x => if f == 0 || x.present then { x with ready := true } else x)).fns :=
    (apply_ite State.fns _ _ _).trans (ite_self _)
  rw [fnOf_of_fns hfns, fnOf_mapFns hf]

theorem serviceReady_panel (s : State) : (serviceReady s).service.panel = 1 := by
  have hservice : (serviceReady s).service = { s.service with panel := 1 } :=
    (apply_ite State.service _ _ _).trans (ite_self _)
  rw [hservice]

theorem portOf_serviceReady {s : State} (h : strapNoFabric s.boot = false) {p : Nat} (hp : p < 12) :
    (portOf (serviceReady s) p).state = .detect := by
  have hfabric : (serviceReady s).fabric = { s.fabric with
      ports := (List.range 12).map (fun p => (p, { AMap.getD s.fabric.ports p {} with state := .detect, since := now s })) } :=
    congrArg State.fabric (if_neg (Bool.eq_false_iff.1 h))
  rw [portOf, hfabric, AMap.getD, get?_map_key _ (List.mem_range.2 hp), Option.getD_some]

theorem stage9_serves (s : State) :
    (stageEffect s [] 9).boot.serviceReady = true ∧ (stageEffect s [] 9).boot.starting = false ∧
    (stageEffect s [] 9).boot.failCount = 0 ∧ (fnOf (stageEffect s [] 9) 0).ready = true ∧ (stageEffect s [] 9).service.panel = 1 ∧
    (∀ f, 0 < f → f < 256 → (fnOf (stageEffect s [] 9) f).ready = ((fnOf s f).present || (fnOf s f).ready)) ∧
    (strapNoFabric s.boot = false → ∀ p, p < 12 → (portOf (stageEffect s [] 9) p).state = .detect) := by
  have hboot : (stageEffect s [] 9).boot = _ := serviceReady_boot s
  rw [hboot]
  refine ⟨rfl, rfl, rfl, ?_, serviceReady_panel s, fun f h0 hf => ?_, fun h p hp => portOf_serviceReady h hp⟩
  · exact congrArg FnState.ready (fnOf_serviceReady (by decide) s)
  · refine (congrArg FnState.ready (fnOf_serviceReady hf s)).trans ?_
    have hne : f ≠ 0 := by omega
    cases h : (fnOf s f).present <;> simp [hne]

/-! ### Failed starts (R485-R487) -/

/-- A trial slot that ran loses its mark when its start fails (R487). -/
theorem failStart_trial {s : State} (k : Nat) (h1 : s.boot.stages.contains 1 = true) (htrial : s.boot.trial.isSome = true)
    (hran : s.boot.trial = runningSlot s.boot) : (failStart s k).boot.trial = none ∧ (failStart s k).boot.trialFailed = true := by
  have hmark : (s.boot.stages.contains 1 && s.boot.trial.isSome && s.boot.trial == runningSlot s.boot) = true := by
    rw [h1, htrial, ← hran, beq_self_eq_true, Bool.and_self]
    rfl
  simp only [failStart, deviceReset, lose, bootKept, hmark, if_true, Bool.or_true, and_self]

theorem startTimeout_fails (s : State) (hs : s.boot.starting = true) (hk : s.boot.kindling = false) :
    exec .startTimeout s = .next (failStart s (stageNow s)) :=
  if_pos (by simp [hs, hk])

/-! ### Kindling (R488, R489) -/

theorem exec_startStageEnd_kindling {failed : Bool} {bad : List Nat} {s : State} (hs : s.boot.starting = true)
    (hk : s.boot.kindling = true) (h3 : 3 ∈ s.boot.stages) :
    exec (.startStageEnd 4 failed bad) s = .next (boltTested s failed) := by
  have hgo : (!s.boot.starting || decide (4 = 0) || decide (9 < 4) || !(stageNeeds true 4).all s.boot.stages.contains) = false := by
    simp [hs, stageNeeds, h3]
  simp only [exec, execStartStageEnd, hk, hgo, Bool.false_eq_true, if_false, if_true]

/-- The boot state after the test of a bolt. -/
def boltNoted (b : Boot) (failed : Bool) : Boot := { b with
  boltsTested := b.boltsTested + 1, starting := decide (b.boltsTested + 1 < 16)
  failedBolts := b.failedBolts ++ (if failed then [b.boltsTested] else [])
  kindlingBolt := if failed = false ∧ b.kindlingBolt = none then some b.boltsTested else b.kindlingBolt }

/-- A bolt's test is noted, and after the sixteenth, where one has passed, Kindling is ready. -/
theorem boltTested_eq (s : State) (failed : Bool) :
    boltTested s failed = if 16 ≤ s.boot.boltsTested + 1 ∧ (boltNoted s.boot failed).kindlingBolt.isSome = true
      then kindlingReady { stageDie s with boot := boltNoted s.boot failed }
      else { stageDie s with boot := boltNoted s.boot failed } := by
  have hnoted : (if failed = true then { s.boot with
      boltsTested := s.boot.boltsTested + 1, starting := decide (s.boot.boltsTested + 1 < 16)
      failedBolts := s.boot.failedBolts ++ [s.boot.boltsTested] }
    else if s.boot.kindlingBolt.isNone = true then { s.boot with
      boltsTested := s.boot.boltsTested + 1, starting := decide (s.boot.boltsTested + 1 < 16)
      kindlingBolt := some s.boot.boltsTested }
    else { s.boot with
      boltsTested := s.boot.boltsTested + 1, starting := decide (s.boot.boltsTested + 1 < 16) }) = boltNoted s.boot failed := by
    cases failed <;> cases h : s.boot.kindlingBolt <;> simp [boltNoted, h]
  unfold boltTested
  dsimp only [stageDie]
  rw [hnoted]
  refine if_congr ?_ rfl rfl
  simp [boltNoted]

theorem kindling_tests_bolts (failed : Bool) (bad : List Nat) (s : State) (hs : s.boot.starting = true)
    (hk : s.boot.kindling = true) (h3 : 3 ∈ s.boot.stages) :
    ∃ t, exec (.startStageEnd 4 failed bad) s = .next t ∧ t.boot.boltsTested = s.boot.boltsTested + 1 ∧
      t.boot.starting = decide (s.boot.boltsTested + 1 < 16) ∧ t.boot.serviceReady = s.boot.serviceReady ∧
      t.boot.failedBolts = s.boot.failedBolts ++ (if failed then [s.boot.boltsTested] else []) ∧
      t.boot.kindlingBolt = (if failed = false ∧ s.boot.kindlingBolt = none then some s.boot.boltsTested
        else s.boot.kindlingBolt) ∧
      (s.boot.boltsTested + 1 < 16 ∨ t.boot.kindlingBolt = none → t.fns = s.fns ∧ t.space = s.space) ∧
      (16 ≤ s.boot.boltsTested + 1 → t.boot.kindlingBolt.isSome = true →
        (fnOf t 0).ready = true ∧ t.space.objs = [(1, kindlingObj)]) := by
  refine ⟨_, exec_startStageEnd_kindling hs hk h3, ?_⟩
  rw [boltTested_eq]
  split
  · next hready =>
    obtain ⟨hlast, hbolt⟩ := hready
    refine ⟨rfl, rfl, rfl, rfl, rfl, fun hno => ?_, fun _ _ => ⟨?_, rfl⟩⟩
    · rcases hno with hno | hno
      · omega
      · have hnone : (boltNoted s.boot failed).kindlingBolt = none := hno
        simp [hnone] at hbolt
    · simp [kindlingReady]
  · next hready =>
    exact ⟨rfl, rfl, rfl, rfl, rfl, fun _ => ⟨rfl, rfl⟩, fun hlast hbolt => absurd ⟨hlast, hbolt⟩ hready⟩

theorem startStageEnd_ends (k : Nat) (failed : Bool) (bad : List Nat) (s : State) (hs : s.boot.starting = true)
    (hk : s.boot.kindling = false) (h1 : 1 ≤ k) (h9 : k ≤ 9) (hneeds : (stageNeeds false k).all s.boot.stages.contains = true)
    (hnew : k ∉ s.boot.stages) (hok : stageFails s k failed bad = false) :
    exec (.startStageEnd k failed bad) s = .next { stageEffect s bad k with
      boot := { (stageEffect s bad k).boot with stages := (stageEffect s bad k).boot.stages ++ [k] } } := by
  rw [exec_startStageEnd_due hs hk (by omega) h9 hneeds hnew, if_neg (Bool.eq_false_iff.1 hok)]

theorem startStageEnd_fails (k : Nat) (failed : Bool) (bad : List Nat) (s : State) (hs : s.boot.starting = true)
    (hk : s.boot.kindling = false) (h9 : k ≤ 9) (h0 : k ≠ 0) (hneeds : (stageNeeds false k).all s.boot.stages.contains = true)
    (hnew : k ∉ s.boot.stages) (hfails : stageFails s k failed bad = true) :
    ∃ t, exec (.startStageEnd k failed bad) s = .next t ∧ t.boot.failCount = satAdd s.boot.failCount 1 ∧
      t.boot.failStage = BitVec.ofNat 4 k ∧ t.boot.cause = 5 ∧ t.boot.starting = false ∧ t.time = 0 ∧
      (s.boot.stages.contains 1 = true → s.boot.trial.isSome = true → s.boot.trial = runningSlot s.boot →
        t.boot.trial = none ∧ t.boot.trialFailed = true) := by
  rw [exec_startStageEnd_due hs hk h0 h9 hneeds hnew, if_pos hfails]
  exact ⟨_, rfl, rfl, rfl, rfl, rfl, rfl, failStart_trial k⟩

/-- Settles O57, stage by stage. -/
theorem startSequenceRuns : Obligations.StartSequenceRuns :=
  ⟨startStageEnd_ends, stageFails_iff, bootRom_kindling, bootRom_slot, fun _ => rfl, fun _ _ => rfl, stage9_serves,
    startStageEnd_fails, fun s hs hk => ⟨_, startTimeout_fails s hs hk, rfl, rfl, rfl, rfl, rfl, rfl⟩,
    fun _ hk => if_neg (by simp [hk]), kindling_tests_bolts⟩

end Sys2Proof.Laws
end

section
/-! PROOFS. O58: health evaluation, the front panel with removal, and the snapshot trigger. -/

namespace Sys2Proof.Laws
open Sys2Proof Sys2Proof.Machine Sys2Proof.Safety

/-! ### Health (R517, R518) -/

/-- The state that an evaluation finds (R518). -/
def healthNow (u : State) : Nat := healthState u.boot.kindling (healthScore u) (healthFaults u)

/-- The figures of an evaluation noted. -/
def healthNoted (u : State) : State := { u with service := { u.service with
  score := BitVec.ofNat 8 (healthScore u), faults := BitVec.ofNat 16 (healthFaults u), state := BitVec.ofNat 2 (healthNow u) } }

/-- Function 0 is told of another state (R116, R518). -/
def healthTold (u : State) : State :=
  postEvent (healthNoted u) 0 3 (BitVec.ofNat 32 (healthNow u)) (BitVec.ofNat 32 (healthScore u)) (BitVec.ofNat 64 (healthFaults u))

/-- What an evaluation leaves: a state that has not changed is only noted, another is told, and state 2 causes a snapshot (R522). -/
def healthEvaluated (was : Nat) (u : State) : State :=
  if healthNow u = was then healthNoted u else if healthNow u = 2 then causeSnap (healthTold u) 3 else healthTold u

theorem exec_healthEvaluate (s : State) :
    exec .healthEvaluate s = .next (healthEvaluated s.service.state.toNat (recur s .health)) := by
  change execHealthEvaluate s = _
  unfold execHealthEvaluate healthEvaluated
  dsimp only
  split
  · next h =>
      rw [if_pos (show healthNow (recur s .health) = s.service.state.toNat from h)]
      rfl
  · next h =>
      rw [if_neg (show ¬ healthNow (recur s .health) = s.service.state.toNat from h)]
      rfl

theorem healthState_lt (kindling : Bool) (score faults : Nat) : healthState kindling score faults < 4 := by
  unfold healthState
  split_ifs <;> decide

theorem healthScore_le (s : State) : healthScore s ≤ 100 := Nat.sub_le _ _

/-- The state noted is the one before just where the state found is. -/
theorem healthNow_eq_iff (u : State) (b : BitVec 2) : BitVec.ofNat 2 (healthNow u) = b ↔ healthNow u = b.toNat := by
  have hlt : healthNow u < 2 ^ 2 := healthState_lt _ _ _
  rw [← BitVec.toNat_inj, BitVec.toNat_ofNat, Nat.mod_eq_of_lt hlt]

theorem healthNow_bits (u : State) : BitVec.ofNat 2 (healthNow u) =
    if u.boot.kindling then 3 else if healthScore u < 50 ∨ healthFaults u ≠ 0 then 2
    else if healthScore u < 80 then 1 else 0 := by
  simp only [healthNow, healthState]
  split_ifs <;> simp_all

/-- An evaluation changes functions' events, the figures of the service controller, and the snapshots due. -/
theorem healthEvaluated_changes (was : Nat) (u : State) : ∃ fns due,
    healthEvaluated was u = { healthNoted u with fns := fns, service := { (healthNoted u).service with snapDue := due } } := by
  unfold healthEvaluated causeSnap
  split
  · exact ⟨_, _, rfl⟩
  · split
    · split <;> exact ⟨_, _, rfl⟩
    · exact ⟨_, _, rfl⟩

theorem causeSnap_fns (s : State) (i : Nat) : (causeSnap s i).fns = s.fns := by rw [causeSnap_kept]

/-- A state that is told is one event of function 0, where it takes events and there is room. -/
theorem healthEvaluated_tells {was : Nat} {u : State} (hnew : healthNow u ≠ was)
    (hact : (fnOf u 0).featActive.getLsbD 29 = true) (hroom : (fnOf u 0).events.length < 64) :
    (fnOf (healthEvaluated was u) 0).events.length = (fnOf u 0).events.length + 1 := by
  have hfns : (healthEvaluated was u).fns = (healthTold u).fns := by
    rw [healthEvaluated, if_neg hnew, apply_ite State.fns, causeSnap_fns, ite_self]
  rw [fnOf_of_fns hfns, healthTold, postEvent_held (healthNoted u) 0 _ _ _ _ hact hroom, List.length_append]
  rfl

theorem healthEvaluated_snaps {was : Nat} {u : State} (hnew : healthNow u ≠ was) (h2 : healthNow u = 2)
    (hsrc : u.service.snapSrc.getLsbD 3 = true) : 3 ∈ (healthEvaluated was u).service.snapDue := by
  have hcause : causeSnap (healthTold u) 3 =
      { healthTold u with service := { (healthTold u).service with snapDue := u.service.snapDue ++ [3] } } := if_pos hsrc
  rw [healthEvaluated, if_neg hnew, if_pos h2, hcause]
  simp

theorem healthEvaluate_notes (s : State) :
    ∃ t u, exec .healthEvaluate s = .next t ∧ u = recur s .health ∧ t.time = u.time ∧
    t.service.score = BitVec.ofNat 8 (healthScore u) ∧ t.service.faults = BitVec.ofNat 16 (healthFaults u) ∧
    t.service.state = (if s.boot.kindling then 3 else if healthScore u < 50 ∨ healthFaults u ≠ 0 then 2
      else if healthScore u < 80 then 1 else 0) ∧ t.sched.admitted = s.sched.admitted ∧ t.space = s.space ∧
    t.board = s.board ∧
    (t.service.state = s.service.state → t.fns = s.fns) ∧
    (t.service.state ≠ s.service.state → (fnOf s 0).featActive.getLsbD 29 = true → (fnOf s 0).events.length < 64 →
      (fnOf t 0).events.length = (fnOf s 0).events.length + 1) ∧
    (t.service.state = 2 → s.service.state ≠ 2 → s.service.snapSrc.getLsbD 3 = true → 3 ∈ t.service.snapDue) := by
  obtain ⟨fns, due, heval⟩ := healthEvaluated_changes s.service.state.toNat (recur s .health)
  have hstate : (healthEvaluated s.service.state.toNat (recur s .health)).service.state =
      BitVec.ofNat 2 (healthNow (recur s .health)) := by rw [heval]; rfl
  refine ⟨_, _, exec_healthEvaluate s, rfl, ?_, ?_, ?_, ?_, ?_, ?_, ?_, fun hsame => ?_, fun hnew hact hroom => ?_,
    fun h2 hnew hsrc => ?_⟩
  · rw [heval]; rfl
  · rw [heval]; rfl
  · rw [heval]; rfl
  · rw [hstate, healthNow_bits, recur_boot]
  · rw [heval]; rfl
  · rw [heval]; rfl
  · rw [heval]; rfl
  · rw [hstate, healthNow_eq_iff] at hsame
    rw [healthEvaluated, if_pos hsame]
    rfl
  · rw [hstate, Ne, healthNow_eq_iff] at hnew
    exact healthEvaluated_tells hnew hact hroom
  · rw [hstate, healthNow_eq_iff] at h2
    refine healthEvaluated_snaps (fun hsame => hnew ?_) h2 hsrc
    exact BitVec.eq_of_toNat_eq (hsame.symm.trans h2)

/-! ### Reports (R528) -/

theorem sendsOnly_sendReport (s : State) (kind : Nat) (body : List Byte) : sendsOnly s (sendReport s kind body) := by
  unfold sendReport
  split
  · exact sendsOnly_refl s
  · refine sendsOnly_trans ?_ (sendsOnly_of_fabric _ _)
    exact sendsOnly_foldl (fun _ _ => sendsOnly_sendPacket _ _ _ _ _ _ _ _ _ _ _) _ _

section
variable {s t : State} (h : sendsOnly s t)
include h

theorem sendsOnly_time : t.time = s.time := (congrArg State.time h :)
theorem sendsOnly_board : t.board = s.board := (congrArg State.board h :)
theorem sendsOnly_service : t.service = s.service := (congrArg State.service h :)
theorem sendsOnly_sched : t.sched = s.sched := (congrArg State.sched h :)
theorem sendsOnly_space : t.space = s.space := (congrArg State.space h :)
theorem sendsOnly_flash : t.flash = s.flash := (congrArg State.flash h :)

end

/-! ### The front panel (R524-R526, R533) -/

theorem pressed_of_none {s : State} (h : s.service.pressPending = false) :
    pressed s = { s with service := { s.service with pressPending := true, removalSince := now s } } := if_neg (by simp [h])

/-- What the state is when an orderly removal has been announced to function 0 (R525). -/
def removalTold (s : State) : State :=
  postEvent { s with service := { s.service with mode := .removal, panel := 4, pressPending := false } } 0 4 0 0 s.time

theorem sendsOnly_beginRemoval (s : State) : sendsOnly (removalTold s) (beginRemoval s) := sendsOnly_sendReport _ _ _

theorem panelPress_removes (s : State) (hm : s.service.mode = .service) (hr : s.boot.serviceReady = true)
    (hp : s.service.panel = 1) (hn : s.service.pressPending = false) :
    ∃ t, exec .panelPress s = .next t ∧ t.service.mode = .removal ∧ t.service.panel = 4 ∧ t.service.removalSince = now s ∧
      t.sched = s.sched ∧ t.space = s.space ∧ t.board = s.board := by
  have he : exec .panelPress s = .next (beginRemoval (pressed s)) := by
    simp only [exec, execPanelPress, hm, hr, hp, decide_true, Bool.and_self, if_true]
  have hsends := sendsOnly_beginRemoval (pressed s)
  have hservice := sendsOnly_service hsends
  rw [pressed_of_none hn] at he hsends hservice
  refine ⟨_, he, ?_, ?_, ?_, (sendsOnly_sched hsends).trans rfl, (sendsOnly_space hsends).trans rfl,
    (sendsOnly_board hsends).trans rfl⟩
  all_goals rw [hservice]; rfl

theorem panelPress_cancels (s : State) (hm : s.service.mode = .removal) (hh : s.board.holdUp = false) :
    ∃ t, exec .panelPress s = .next t ∧ t.service.mode = .service ∧ t.service.panel = 1 ∧ t.sched = s.sched ∧
      t.space = s.space ∧ t.board = s.board := by
  have he : exec .panelPress s = .next (postEvent { s with service := { s.service with mode := .service, panel := 1 } }
      0 5 0 0 s.time) := by
    simp only [exec, execPanelPress, hm, hh, Bool.false_eq_true, if_false]
  exact ⟨_, he, rfl, rfl, rfl, rfl, rfl⟩

theorem panelPress_wakes (s : State) (hm : s.service.mode = .banked) (hn : s.service.pressPending = false) :
    ∃ t, exec .panelPress s = .next t ∧ t.service.mode = .leavingBanked ∧
      t.service.pressPending = true ∧ t.service.removalSince = now s ∧ t.service.panel = s.service.panel := by
  have he : exec .panelPress s = .next { pressed s with service := { (pressed s).service with mode := .leavingBanked } } := by
    simp only [exec, execPanelPress, hm]
  rw [pressed_of_none hn] at he
  exact ⟨_, he, rfl, rfl, rfl, rfl⟩

theorem panelPress_changing (s : State) (hm : s.service.mode = .enteringBanked ∨ s.service.mode = .leavingBanked) :
    exec .panelPress s = .next (pressed s) := by
  rcases hm with hm | hm
  · simp only [exec, execPanelPress, hm]
  · simp only [exec, execPanelPress, hm]

theorem panelPress_dormant (s : State) (hm : s.service.mode = .dormant ∨ s.service.mode = .enteringDormant) :
    exec .panelPress s = .next s := by
  rcases hm with hm | hm
  · simp only [exec, execPanelPress, hm]
  · simp only [exec, execPanelPress, hm]

theorem panelPress_restarts (s : State) (hm : s.service.mode = .safe) (ht : s.board.tripLatch = false)
    (hh : s.board.holdUp = false) :
    ∃ t, exec .panelPress s = .next t ∧ t.board.cyclePending = true ∧ t.board.rails = 0 ∧ t.sched = {} := by
  have he : exec .panelPress s = .next (powerCycle s) := by simp only [exec, execPanelPress, hm]
  rw [powerCycle_of_cool (by simp [ht]), if_neg (by simp [hh])] at he
  exact ⟨_, he, rfl, rfl, rfl⟩

/-! ### A hold of the panel (R526) -/

/-- The forced-offline report, which Kindling does not send. -/
def offlineTold (s : State) : State := if s.boot.kindling then s else sendReport s 5 (healthRecord s)

theorem sendsOnly_offlineTold (s : State) : sendsOnly s (offlineTold s) := by
  unfold offlineTold
  split
  · exact sendsOnly_refl s
  · exact sendsOnly_sendReport _ _ _

theorem panelHold_holds_up (s : State) (hm : s.service.mode ≠ .safe) (hg : s.board.pwrGood = true) :
    ∃ t, exec .panelHold s = .next t ∧ t.board.holdUp = true ∧ t.board.pwrGood = false ∧ t.service.mode = .removal ∧
      t.flash.journal = [] ∧ t.sched = {} ∧ t.space = {} ∧ t.board.status.getLsbD 7 = true := by
  have hg' : (offlineTold s).board.pwrGood = true := by rw [sendsOnly_board (sendsOnly_offlineTold s), hg]
  have he : exec .panelHold s = .next { beginHoldUp (offlineTold s) with
      service := { (beginHoldUp (offlineTold s)).service with mode := .removal } } := by
    change execPanelHold s = _
    rw [execPanelHold, if_neg hm]
    exact if_pos hg'
  exact ⟨_, he, rfl, rfl, rfl, rfl, rfl, rfl, setStatus_bit (offlineTold s) (b := 7) (by decide)⟩

theorem panelHold_turns_off (s : State) (hm : s.service.mode ≠ .safe) (hg : s.board.pwrGood = false)
    (hh : s.board.holdUp = false) :
    ∃ t, exec .panelHold s = .next t ∧ t.service.mode = .safe ∧ t.service.panel = 5 ∧ t.board.rails = 0 := by
  have hboard := sendsOnly_board (sendsOnly_offlineTold s)
  have he : exec .panelHold s = .next { railsOff (offlineTold s) with
      service := { (railsOff (offlineTold s)).service with mode := .safe, panel := 5 } } := by
    change execPanelHold s = _
    rw [execPanelHold, if_neg hm]
    refine (if_neg (c := (offlineTold s).board.pwrGood = true) (by simp [hboard, hg])).trans ?_
    exact if_neg (c := (offlineTold s).board.holdUp = true) (by simp [hboard, hh])
  exact ⟨_, he, rfl, rfl, rfl⟩

/-! ### The end of a removal (R525) -/

/-- The state once nothing holds the removal back or its 30 s have passed. -/
def removalDue (s : State) : State :=
  if drainedForRemoval s then s else advanceTo s (s.service.removalSince + 3000000000)

theorem removalDue_time (s : State) (hb : s.service.removalSince + 3000000000 < 2 ^ 64) :
    (drainedForRemoval s = true → (removalDue s).time = s.time) ∧
    (drainedForRemoval s = false →
      (removalDue s).time.toNat = max s.time.toNat (s.service.removalSince + 3000000000)) := by
  refine ⟨fun h => by rw [removalDue, if_pos h], fun h => ?_⟩
  rw [removalDue, if_neg (by simp [h]), advanceTo_toNat hb]

theorem removalDue_flash (s : State) : (removalDue s).flash = s.flash := by
  unfold removalDue
  split <;> rfl

/-- The state with journal and map written to the media. -/
def removalWritten (u : State) : State :=
  { u with flash := { holdUp u.flash with mapFlash := (holdUp u.flash).map, journalFlash := [] } }

theorem removalProceed_ends (s : State) (hm : s.service.mode = .removal) (hh : s.board.holdUp = false)
    (hb : s.service.removalSince + 3000000000 < 2 ^ 64) :
    ∃ t, exec .removalProceed s = .next t ∧ t.service.mode = .safe ∧ t.service.panel = 5 ∧ t.board.rails = 0 ∧
      t.board.pwrGood = false ∧ t.flash.mapFlash = (holdUp s.flash).map ∧ t.flash.journal = [] ∧ t.flash.journalFlash = [] ∧
      t.sched = {} ∧ (drainedForRemoval s = true → t.time = s.time) ∧
      (drainedForRemoval s = false → t.time.toNat = max s.time.toNat (s.service.removalSince + 3000000000)) := by
  have hsends := sendsOnly_sendReport (removalWritten (removalDue s)) 4 (healthRecord (removalWritten (removalDue s)))
  generalize hsent : sendReport (removalWritten (removalDue s)) 4 (healthRecord (removalWritten (removalDue s))) = u at hsends
  have he : exec .removalProceed s = .next { railsOff u with
      service := { (railsOff u).service with mode := .safe, panel := 5 } } := by
    change execRemovalProceed s = _
    rw [execRemovalProceed, if_neg (by simp [hm, hh]), ← hsent]
    rfl
  have hflash : u.flash = { holdUp s.flash with mapFlash := (holdUp s.flash).map, journalFlash := [] } := by
    rw [sendsOnly_flash hsends, removalWritten, removalDue_flash]
  have htime : u.time = (removalDue s).time := (sendsOnly_time hsends).trans rfl
  obtain ⟨hdrained, hwaited⟩ := removalDue_time s hb
  refine ⟨_, he, rfl, rfl, rfl, rfl, ?_, rfl, ?_, rfl, fun h => htime.trans (hdrained h), fun h => ?_⟩
  · exact congrArg Flash.mapFlash hflash
  · exact congrArg Flash.journalFlash hflash
  · exact (congrArg BitVec.toNat htime).trans (hwaited h)

/-! ### Snapshots (R521, R522) -/

/-- What the trigger latches, for a source. -/
def snapTaken (s : State) (source : Nat) : State := { s with
  fresh := s.fresh + 1
  service := { s.service with
    frozen := true, valid := false, snapSeq := s.service.snapSeq + 1, snapSource := BitVec.ofNat 8 source, snapTime := s.time
    latched := latchAll s } }

theorem fireSnapshot_of_free {s : State} (h : s.service.frozen = false) (source : Nat) :
    fireSnapshot s source =
      if source = 1 then postEvent (snapTaken s source) 0 6 (s.service.snapSeq + 1) (BitVec.ofNat 32 source) s.time
      else emit (postEvent (snapTaken s source) 0 6 (s.service.snapSeq + 1) (BitVec.ofNat 32 source) s.time) .trigOut :=
  if_neg (by simp [h])

theorem fireSnapshot_service {s : State} (h : s.service.frozen = false) (source : Nat) :
    (fireSnapshot s source).service = (snapTaken s source).service := by
  rw [fireSnapshot_of_free h]
  split <;> rfl

theorem fireSnapshot_sent {s : State} (h : s.service.frozen = false) (source : Nat) :
    (fireSnapshot s source).sent = s.sent ++ (if source = 1 then [] else [.trigOut]) := by
  rw [fireSnapshot_of_free h]
  split
  · exact (List.append_nil _).symm
  · rfl

/-- With a snapshot held the trigger is only counted as missed. -/
theorem fireSnapshot_of_frozen {s : State} (h : s.service.frozen = true) (source : Nat) :
    fireSnapshot s source = { s with service := { s.service with missed := satAdd s.service.missed 1 } } := if_pos h

/-- The state with an internal source no longer due. -/
def snapUndue (s : State) (src : Nat) : State :=
  { s with service := { s.service with snapDue := s.service.snapDue.erase src } }

theorem exec_snapshotTrigger {src : Nat} {s : State} (h : src ∈ s.service.snapDue) :
    exec (.snapshotTrigger src) s = .next (fireSnapshot (snapUndue s src) (src + 1)) :=
  if_pos (List.contains_iff_mem.mpr h)

theorem snapshotTrigger_fires (src : Nat) (s : State) (hdue : src ∈ s.service.snapDue) (hfree : s.service.frozen = false) :
    ∃ t, exec (.snapshotTrigger src) s = .next t ∧ t.service.frozen = true ∧ t.service.valid = false ∧
      t.service.snapSeq = s.service.snapSeq + 1 ∧ t.service.snapSource = BitVec.ofNat 8 (src + 1) ∧
      t.service.snapTime = s.time ∧ t.service.snapDue = s.service.snapDue.erase src ∧
      t.sent = s.sent ++ (if src = 0 then [] else [.trigOut]) ∧ t.service.store = s.service.store := by
  have hservice := fireSnapshot_service (s := snapUndue s src) hfree (src + 1)
  have hsent := fireSnapshot_sent (s := snapUndue s src) hfree (src + 1)
  simp only [Nat.add_eq_right] at hsent
  refine ⟨_, exec_snapshotTrigger hdue, ?_⟩
  rw [hservice]
  exact ⟨rfl, rfl, rfl, rfl, rfl, rfl, hsent, rfl⟩

/-- Settles O58: a clause is the equation of its row in the case it names. -/
theorem healthPanelAndSnapshots : Obligations.HealthPanelAndSnapshots := by
  refine ⟨healthEvaluate_notes, healthScore_le, panelPress_removes, panelPress_cancels, panelPress_wakes,
    panelPress_changing, panelPress_restarts, panelPress_dormant, panelHold_holds_up, panelHold_turns_off,
    fun s hm => if_pos hm, removalProceed_ends, fun src s hdue hfree _ => snapshotTrigger_fires src s hdue hfree,
    fun src s hdue hheld => ?_, fun s hf hv => ?_⟩
  · rw [exec_snapshotTrigger hdue, fireSnapshot_of_frozen (s := snapUndue s src) hheld]
    rfl
  · exact if_pos (by simp [hf, hv])

end Sys2Proof.Laws
end

section
/-! PROOFS. O48: the diagnostic commands, with the self-test and its measurements. -/

namespace Sys2Proof.Laws
open Sys2Proof Sys2Proof.Machine Sys2Proof.Safety

/-! ### Commands that count no activity -/

/-- The row of a running command whose work counts no activity is its work (R464). -/
theorem withCmd_quiet {s : State} {cid op : Nat} {a : Adm} {k : Adm → State} (h : running s cid op = some a)
    (hk : (k a).draught.activityPj = s.draught.activityPj) : withCmd s cid op k = .next (k a) := by
  rw [withCmd_some s cid op k a h, meterCmd_quiet s (k a) cid a.cmd.fn hk]

/-- A command that ends in a state with the same admitted commands leaves the others. -/
theorem otherCommandsKept_finish_of_sched {s t : State} (h : t.sched = s.sched) (cid : Nat) (r : Result) :
    otherCommandsKept s (finish t cid r) cid := by
  intro c hc
  rw [otherCommandsKept_finish t cid r c hc, findAdm, findAdm, h]

/-! ### Records and the snapshot trigger (R467, R519, R522) -/

theorem exec_energyRead {cid : Nat} {a : Adm} {s : State} (h : running s cid 0x704 = some a) :
    exec (.energyRead cid) s =
      .next (finish s cid { data := toLE 8 ((fnOf s a.cmd.fn).energyNj / 1000) ++ toLE 8 (now s) }) :=
  withCmd_quiet h rfl

theorem exec_healthRead {cid : Nat} {a : Adm} {s : State} (h : running s cid 0x705 = some a) :
    exec (.healthRead cid) s = .next (finish s cid { data := healthRecord s }) :=
  withCmd_quiet h rfl

theorem fireSnapshot_quiet (s : State) (source : Nat) :
    (fireSnapshot s source).draught = s.draught ∧ (fireSnapshot s source).sched = s.sched ∧
      (fireSnapshot s source).space = s.space := by
  unfold fireSnapshot
  split
  · exact ⟨rfl, rfl, rfl⟩
  · split <;> exact ⟨rfl, rfl, rfl⟩

theorem exec_snapshotFire {cid : Nat} {a : Adm} {s : State} (h : running s cid 0x706 = some a) :
    exec (.snapshotFire cid) s =
      .next (finish (fireSnapshot s 0) cid { value := (fireSnapshot s 0).service.snapSeq }) := by
  obtain ⟨hdraught, -, -⟩ := fireSnapshot_quiet s 0
  exact withCmd_quiet h (congrArg Draught.activityPj hdraught)

theorem snapshotFire_latches (cid : Nat) (a : Adm) (s : State) (h : running s cid 0x706 = some a)
    (hf : s.service.frozen = false) :
    ∃ t, exec (.snapshotFire cid) s = .next t ∧ t.service.frozen = true ∧ t.service.valid = false ∧
      t.service.snapSeq = s.service.snapSeq + 1 ∧ t.service.snapTime = s.time ∧ t.service.latched = latchAll s ∧
      doneWith t cid (· = { value := s.service.snapSeq + 1 }) ∧ t.space = s.space := by
  have hservice := fireSnapshot_service hf 0
  obtain ⟨-, hsched, hspace⟩ := fireSnapshot_quiet s 0
  have hadm : findAdm (fireSnapshot s 0) cid = some a := by rw [findAdm, hsched]; exact findAdm_of_running h
  have hdone := doneWith_finish (r := { value := (fireSnapshot s 0).service.snapSeq }) hadm
  refine ⟨_, exec_snapshotFire h, ?_⟩
  rw [hservice] at hdone ⊢
  rw [finish_service, hservice]
  exact ⟨rfl, rfl, rfl, rfl, rfl, hdone, hspace⟩

theorem snapshotFire_missed (cid : Nat) (a : Adm) (s : State) (h : running s cid 0x706 = some a)
    (hf : s.service.frozen = true) :
    exec (.snapshotFire cid) s = .next (finish { s with service := { s.service with missed := satAdd s.service.missed 1 } } cid
      { value := s.service.snapSeq }) := by
  rw [exec_snapshotFire h, fireSnapshot_of_frozen hf]

/-! ### The choice of the worst entry (R343, R531) -/

/-- The greatest value so far, with one more. -/
def argmaxStep (best : Option (Nat × Word)) (v : Nat × Word) : Option (Nat × Word) :=
  if isNan v.2 then best
  else match best with
    | none => some v
    | some b => if flt b.2 v.2 then some v else some b

theorem argmaxOf_eq (vs : List (Nat × Word)) : argmaxOf vs = vs.foldl argmaxStep none := rfl

theorem argmaxStep_eq_or (best : Option (Nat × Word)) (v : Nat × Word) :
    argmaxStep best v = best ∨ argmaxStep best v = some v := by
  unfold argmaxStep
  split
  · exact .inl rfl
  · split
    · exact .inr rfl
    · split
      · exact .inr rfl
      · exact .inl rfl

theorem mem_of_argmaxSteps {vs : List (Nat × Word)} {p : Nat × Word} {best : Option (Nat × Word)}
    (h : vs.foldl argmaxStep best = some p) : best = some p ∨ p ∈ vs := by
  induction vs generalizing best with
  | nil => exact .inl h
  | cons v vs ih =>
    rcases ih h with hstep | hp
    · rcases argmaxStep_eq_or best v with hbest | hv
      · exact .inl (hbest.symm.trans hstep)
      · exact .inr (List.mem_cons.mpr (.inl (Option.some.inj (hv.symm.trans hstep)).symm))
    · exact .inr (List.mem_cons_of_mem _ hp)

theorem argmaxOf_mem {vs : List (Nat × Word)} {p : Nat × Word} (h : argmaxOf vs = some p) : p ∈ vs :=
  (mem_of_argmaxSteps h).resolve_left (by simp)

/-- The number of the worst of the 1,152 entries is one of theirs. -/
theorem worst_lt (es : List Word) : (argmaxOf ((List.range 1152).zip es)).elim 0 (·.1) < 1152 := by
  cases h : argmaxOf ((List.range 1152).zip es) with
  | none => decide
  | some p => exact List.mem_range.mp (List.of_mem_zip (argmaxOf_mem h)).1

/-! ### Bytes put into an object -/

/-- A data object with bytes put into its version (R172). -/
def bytesPut (o : Obj) (off : Nat) (bs : List Byte) : Obj := { o with
  versions := o.versions.map (fun v => { v with bytes := v.bytes.write off bs })
  frames := o.frames.map (fun fr => { fr with ue := fr.ue.filter (fun b => !coversBlock o off bs.length fr.gran b) }) }

theorem verOf_bytesPut (o : Obj) (off n : Nat) (bs : List Byte) :
    verOf (bytesPut o off bs) n = (verOf o n).map (fun v => { v with bytes := v.bytes.write off bs }) :=
  List.find?_map ..

theorem objOf_touchRange (s : State) (oid ver off n x : Nat) : objOf (touchRange s oid ver off n) x = objOf s x := by
  unfold touchRange
  split <;> rfl

theorem objOf_putBytes_same {s : State} {oid : Nat} {o : Obj} (h : objOf s oid = some o) (off : Nat) (bs : List Byte) :
    objOf (putBytes s oid off bs) oid = some (bytesPut o off bs) := by
  rw [putBytes, objOf_touchRange, updObj_of_some h, objOf_putObj_same]
  rfl

theorem objOf_putBytes_other (s : State) {oid x : Nat} (hx : x ≠ oid) (off : Nat) (bs : List Byte) :
    objOf (putBytes s oid off bs) x = objOf s x := by
  rw [putBytes, objOf_touchRange, objOf_updObj_other s _ hx]

theorem touchRange_changes (s : State) (oid ver off n : Nat) :
    ∃ space, touchRange s oid ver off n = { s with space := space } := by
  unfold touchRange
  split <;> exact ⟨_, rfl⟩

/-- Bytes put into an object change the object space alone. -/
theorem putBytes_changes (s : State) (oid off : Nat) (bs : List Byte) :
    ∃ space, putBytes s oid off bs = { s with space := space } := by
  obtain ⟨space, hobj⟩ := updObj_changes s oid (bytesPut · off bs)
  obtain ⟨space', htouch⟩ := touchRange_changes (updObj s oid (bytesPut · off bs)) oid 0 off bs.length
  exact ⟨space', htouch.trans (by rw [hobj])⟩

/-! ### Measurements (R532) -/

/-- The word of a list laid out as words, from its place. -/
theorem nat_write_words {m : Mem} (hm : Mem.wf m) (es : List Word) (i : Nat) (hi : i < es.length) :
    Mem.nat (Mem.write m 0 (es.flatMap (fun w => toLE 4 w.toNat))) (4 * i) 4 = es[i].toNat := by
  have hsplit : es.flatMap (fun w => toLE 4 w.toNat) = (es.take i).flatMap (fun w => toLE 4 w.toNat) ++ toLE 4 es[i].toNat ++
      (es.drop (i + 1)).flatMap (fun w => toLE 4 w.toNat) := by
    rw [List.append_assoc, ← List.flatMap_cons (f := fun w : Word => toLE 4 w.toNat), ← List.drop_eq_getElem_cons hi,
      ← List.flatMap_append, List.take_append_drop]
  have hpre : ((es.take i).flatMap (fun w => toLE 4 w.toNat)).length = 4 * i := by
    simp [List.length_flatMap, Nat.min_eq_left hi.le, Nat.mul_comm]
  have hword := nat_write hm 0 ((es.take i).flatMap (fun w => toLE 4 w.toNat)) (toLE 4 es[i].toNat)
    ((es.drop (i + 1)).flatMap (fun w => toLE 4 w.toNat))
  rwa [← hsplit, hpre, Nat.zero_add, toLE_length, leNat_word] at hword

theorem measurements_length (mask : Nat) (ms : List (Nat × BitVec 32)) : (measurements mask ms).length = 1152 := by
  simp [measurements]

theorem measurements_getElem (mask : Nat) (ms : List (Nat × BitVec 32)) (i : Nat) (hi : i < (measurements mask ms).length) :
    (measurements mask ms)[i] = if bit mask (testBlock i) then
      (ms.find? (fun e => e.1 == i)).elim 0xFF800000#32 (fun e => e.2) else 0xFF800000#32 := by
  simp only [measurements, List.getElem_map, List.getElem_range]
  cases ms.find? (fun e => e.1 == i) <;> rfl

/-! ### The self-test (R531, R532) -/

/-- The state with the measurements of a self-test in object 1, which Kindling alone keeps (R532). -/
def selfTestStored (s : State) (mask : Nat) (ms : List (Nat × BitVec 32)) : State :=
  if s.boot.kindling then putBytes s 1 0 ((measurements mask ms).flatMap (fun w => toLE 4 w.toNat)) else s

/-- The test record (R531): the blocks tested, those that passed, the time taken and the worst entry. -/
def testRecord (s : State) (mask us : Nat) (passed : BitVec 32) (ms : List (Nat × BitVec 32)) : Result :=
  { data := lay 64 [(0, 4, mask),
      (4, 4, if s.boot.kindling then blocksPassed mask (measurements mask ms) else (BitVec.ofNat 32 mask &&& passed).toNat),
      (8, 4, us), (12, 4, (argmaxOf ((List.range 1152).zip (measurements mask ms))).elim 0 (·.1))] }

/-- The work of SELF_TEST on its admitted command. -/
def selfTestWork (cid us : Nat) (passed : BitVec 32) (ms : List (Nat × BitVec 32)) (s : State) (a : Adm) : State :=
  if !testRuns s (a.p 32 4) then fail s cid stBusyMode
  else finish (selfTestStored s (a.p 32 4) ms) cid (testRecord (selfTestStored s (a.p 32 4) ms) (a.p 32 4) us passed ms)

theorem exec_selfTest (cid us : Nat) (passed : BitVec 32) (ms : List (Nat × BitVec 32)) (s : State) :
    exec (.selfTest cid passed us ms) s = withCmd s cid 0x707 (selfTestWork cid us passed ms s) := rfl

/-- SELF_TEST counts no activity. -/
theorem selfTest_of_work {cid us : Nat} {passed : BitVec 32} {ms : List (Nat × BitVec 32)} {a : Adm} {s t : State} {r : Result}
    (h : running s cid 0x707 = some a) (hwork : selfTestWork cid us passed ms s a = finish t cid r)
    (ht : t.draught = s.draught) : exec (.selfTest cid passed us ms) s = .next (finish t cid r) := by
  have hquiet : (selfTestWork cid us passed ms s a).draught.activityPj = s.draught.activityPj := by
    rw [hwork, finish_draught, ht]
  rw [exec_selfTest, withCmd_quiet h hquiet, hwork]

theorem exec_selfTest_busy {cid us : Nat} {passed : BitVec 32} {ms : List (Nat × BitVec 32)} {a : Adm} {s : State}
    (h : running s cid 0x707 = some a) (hruns : testRuns s (a.p 32 4) = false) :
    exec (.selfTest cid passed us ms) s = .next (finish s cid (.bare stBusyMode)) := by
  exact selfTest_of_work h (if_pos (by simp [hruns])) rfl

theorem testRuns_of_free {s : State} {mask : Nat} (h : ∀ b, b < 20 → bit mask b = true → inService s b = false) :
    testRuns s mask = true := by
  have hnone : (List.range 20).any (fun b => bit mask b && inService s b) = false := by
    simp only [List.any_eq_false, List.mem_range, Bool.and_eq_true, not_and, Bool.not_eq_true]
    exact h
  simp [testRuns, hnone]

theorem testRuns_of_service {s : State} {mask b : Nat} (hk : s.boot.kindling = false) (hb : b < 20) (hm : bit mask b = true)
    (hs : inService s b = true) : testRuns s mask = false := by
  have hone : (List.range 20).any (fun b => bit mask b && inService s b) = true :=
    List.any_eq_true.mpr ⟨b, List.mem_range.mpr hb, by simp [hm, hs]⟩
  simp [testRuns, hk, hone]

theorem selfTest_records (cid us : Nat) (passed : BitVec 32) (ms : List (Nat × BitVec 32)) (a : Adm) (s : State)
    (h : running s cid 0x707 = some a) (hk : s.boot.kindling = false)
    (hfree : ∀ b, b < 20 → bit (a.p 32 4) b = true → inService s b = false) :
    ∃ w, w < 1152 ∧ exec (.selfTest cid passed us ms) s = .next (finish s cid { data := lay 64 [(0, 4, a.p 32 4),
      (4, 4, (BitVec.ofNat 32 (a.p 32 4) &&& passed).toNat), (8, 4, us), (12, 4, w)] }) := by
  have hruns := testRuns_of_free hfree
  refine ⟨_, worst_lt (measurements (a.p 32 4) ms), ?_⟩
  have hstored : selfTestStored s (a.p 32 4) ms = s := if_neg (by simp [hk])
  refine selfTest_of_work h ?_ rfl
  simp only [selfTestWork, hstored, hruns, testRecord, hk, Bool.not_true, Bool.false_eq_true, if_false]

theorem selfTest_measures (cid us : Nat) (passed : BitVec 32) (ms : List (Nat × BitVec 32)) (a : Adm) (o : Obj) (v : Version)
    (s : State) (h : running s cid 0x707 = some a) (hk : s.boot.kindling = true) (ho : objOf s 1 = some o)
    (hv : verOf o o.current = some v) (hwf : v.bytes.wf) :
    ∃ t o' v', exec (.selfTest cid passed us ms) s = .next t ∧ objOf t 1 = some o' ∧ verOf o' o.current = some v' ∧
      (∀ i, i < 1152 → Mem.nat v'.bytes (4 * i) 4 = (if bit (a.p 32 4) (testBlock i) then
        (ms.find? (fun e => e.1 == i)).elim 0xFF800000#32 (fun e => e.2) else 0xFF800000#32).toNat) ∧
      otherObjectsKept s t 1 ∧ otherCommandsKept s t cid := by
  generalize hbytes : (measurements (a.p 32 4) ms).flatMap (fun w => toLE 4 w.toNat) = bs
  obtain ⟨space, hput⟩ := putBytes_changes s 1 0 bs
  have hruns : testRuns s (a.p 32 4) = true := by simp [testRuns, hk]
  have hstored : selfTestStored s (a.p 32 4) ms = putBytes s 1 0 bs := hbytes ▸ if_pos hk
  have hwork : selfTestWork cid us passed ms s a =
      finish (putBytes s 1 0 bs) cid (testRecord (putBytes s 1 0 bs) (a.p 32 4) us passed ms) := by
    rw [selfTestWork, if_neg (by simp [hruns]), hstored]
  refine ⟨_, bytesPut o 0 bs, { v with bytes := v.bytes.write 0 bs }, selfTest_of_work h hwork (by rw [hput]),
    objOf_putBytes_same ho 0 bs, ?_, fun i hi => ?_, fun x hx => ?_,
    otherCommandsKept_finish_of_sched (t := putBytes s 1 0 bs) (by rw [hput]) cid _⟩
  · rw [verOf_bytesPut, hv]
    rfl
  · have hi' : i < (measurements (a.p 32 4) ms).length := by rw [measurements_length]; exact hi
    rw [← measurements_getElem (a.p 32 4) ms i hi', ← hbytes]
    exact nat_write_words hwf _ i hi'
  · exact congrArg (Option.map withoutCopies) (objOf_putBytes_other s hx 0 bs)

/-! ### The end of Kindling (R490, R493) -/

/-- The work of KINDLING_EXIT on its admitted command. -/
def kindlingExitWork (cid : Nat) (s : State) (a : Adm) : State :=
  if !s.boot.kindling then fail s cid stBusyMode
  else if s.sched.admitted.any (fun b => b.cmd.opcode == 0x800 || b.cmd.opcode == 0x707) then s
  else finish { s with boot := { s.boot with
    failCount := 0
    exitPending := some (match a.cmd.origin with
      | .host k => k
      | _ => 256) } } cid {}

theorem exec_kindlingExit (cid : Nat) (s : State) : exec (.kindlingExit cid) s = withCmd s cid 0x708 (kindlingExitWork cid s) :=
  rfl

theorem kindlingExit_restarts (cid k : Nat) (a : Adm) (s : State) (h : running s cid 0x708 = some a)
    (hk : s.boot.kindling = true) (ho : a.cmd.origin = .host k)
    (hidle : s.sched.admitted.all (fun b => b.cmd.opcode != 0x800 && b.cmd.opcode != 0x707) = true) :
    exec (.kindlingExit cid) s =
      .next (finish { s with boot := { s.boot with failCount := 0, exitPending := some k } } cid {}) := by
  have hnone : s.sched.admitted.any (fun b => b.cmd.opcode == 0x800 || b.cmd.opcode == 0x707) = false := by
    simpa [List.any_eq_false] using hidle
  have hwork : kindlingExitWork cid s a =
      finish { s with boot := { s.boot with failCount := 0, exitPending := some k } } cid {} := by
    simp only [kindlingExitWork, hk, hnone, ho, Bool.not_true, Bool.false_eq_true, if_false]
  rw [exec_kindlingExit, withCmd_quiet h (by rw [hwork]; rfl), hwork]

theorem kindlingExit_busy (cid : Nat) (a : Adm) (s : State) (h : running s cid 0x708 = some a) (hk : s.boot.kindling = false) :
    exec (.kindlingExit cid) s = .next (finish s cid (.bare stBusyMode)) := by
  have hwork : kindlingExitWork cid s a = finish s cid (.bare stBusyMode) := if_pos (by simp [hk])
  rw [exec_kindlingExit, withCmd_quiet h (by rw [hwork]; rfl), hwork]

/-- Settles O48: every clause is the work of its command, and none of them counts an activity. -/
theorem diagnosticCommandsRun : Obligations.DiagnosticCommandsRun :=
  ⟨fun _ _ _ h => exec_energyRead h, fun _ _ _ h => exec_healthRead h, snapshotFire_latches, snapshotFire_missed,
    selfTest_records, selfTest_measures,
    fun _ _ _ _ _ _ _ h hk hb hm hs => exec_selfTest_busy h (testRuns_of_service hk hb hm hs),
    kindlingExit_restarts, kindlingExit_busy⟩

end Sys2Proof.Laws
end

section
/-! PROOFS. O44: the effective cap and the floors that an allocation keeps. -/

namespace Sys2Proof.Laws
open Sys2Proof Sys2Proof.Machine Sys2Proof.Safety

/-! ### The readings of an allocation (R72, R452) -/

/-- A warning of the inlet changes `STATUS` and `ALERT_N` alone (R67, R73). -/
theorem warnInlet_changes (s : State) :
    ∃ status alertN, warnInlet s = { s with board := { s.board with status := status, alertN := alertN } } := by
  unfold warnInlet
  split <;> exact ⟨_, _, rfl⟩

/-- The state in which an allocation takes its cap: node time at its count, the readings refreshed, the inlet judged. -/
def readingsTaken (inp : DraughtInput) (s : State) : State := warnInlet (takeReadings (freshen (recur s .allocation)) inp)

theorem readingsTaken_kept (inp : DraughtInput) (s : State) : ∃ u, readingsTaken inp s = u ∧
    u.board.vinMv = inp.vinMv ∧ u.board.plateX16 = inp.plateX16 ∧ u.board.hotX16 = inp.hotX16 ∧
    u.board.pin100Mw = inp.pin100Mw ∧ u.draught = s.draught ∧ u.fns = s.fns ∧ u.space = s.space ∧
    u.sched.admitted = s.sched.admitted ∧ u.sent = s.sent := by
  obtain ⟨status, alertN, h⟩ := warnInlet_changes (takeReadings (freshen (recur s .allocation)) inp)
  exact ⟨_, h, rfl, rfl, rfl, rfl, rfl, rfl, rfl, rfl, rfl⟩

/-! ### The power given out (R455) -/

/-- What an allocation has to give, in mW: the cap behind the conversion, less the fixed domains. -/
def allocatable (u : State) : Nat := u.draught.etaMilli * effectiveCap u - 50000 - 260000

/-- The shares that partitions do not use, lent for the round. -/
def sharesLent (demandW : List Nat) (shares : List Nat) : Nat :=
  shares.zipIdx.foldl (fun n e => n + (e.1 - min e.1 (1000 * demandW.getD (7 + e.2) 0))) 0

/-- The grants of an allocation. -/
def grantsOf (inp : DraughtInput) (u : State) : List (Nat × Nat) :=
  allocateGrants u.draught.order inp.demandW
    ((allocateShares u (allocatable u)).2 + sharesLent inp.demandW (allocateShares u (allocatable u)).1)

/-- Grants as registers hold them, in watts. -/
def grantRegs (gs : List (Nat × Nat)) : AMap (BitVec 16) :=
  gs.foldl (fun m g => AMap.insert m g.1 (BitVec.ofNat 16 (g.2 / 1000))) []

theorem exec_draughtAllocation {inp : DraughtInput} {s : State} (h : s.board.powered = true) :
    ∃ draught, exec (.draughtAllocation inp) s = .next { readingsTaken inp s with draught := draught } ∧
      draught.capW = BitVec.ofNat 16 (effectiveCap (readingsTaken inp s)) ∧
      draught.grants = grantRegs (grantsOf inp (readingsTaken inp s)) :=
  ⟨_, if_neg (by simp [h]), rfl, rfl⟩

/-! ### The cap (R452) -/

theorem effectiveCap_eq (u : State) : effectiveCap u = [2400, u.draught.hostCap,
    (if inletE4 u ≤ 6400000 then 2400 else max 2000 (2400 - ceilDiv (inletE4 u - 6400000).toNat 2000)),
    (if u.board.band = .low then 46 else 50) * u.board.vinMv / 1000, u.draught.junctionCap].foldl min 2400 := by
  simp only [effectiveCap, inletCap, List.foldl_cons, List.foldl_nil, min_self, min_assoc]

theorem effectiveCap_le (u : State) : effectiveCap u ≤ 2400 :=
  (min_le_left _ _).trans ((min_le_left _ _).trans (min_le_left _ _))

theorem draughtAllocation_caps (inp : DraughtInput) (s : State) (h : s.board.powered = true) :
    ∃ t, exec (.draughtAllocation inp) s = .next t ∧
    t.draught.capW.toNat = ([2400, s.draught.hostCap,
      (if inletE4 t ≤ 6400000 then 2400 else max 2000 (2400 - ceilDiv (inletE4 t - 6400000).toNat 2000)),
      (if t.board.band = .low then 46 else 50) * t.board.vinMv / 1000, s.draught.junctionCap].foldl min 2400) ∧
    t.board.vinMv = inp.vinMv ∧ t.board.plateX16 = inp.plateX16 ∧ t.board.hotX16 = inp.hotX16 ∧
    t.board.pin100Mw = inp.pin100Mw ∧ t.fns = s.fns ∧ t.space = s.space ∧ t.sched.admitted = s.sched.admitted ∧
    t.sent = s.sent := by
  obtain ⟨draught, he, hcap, -⟩ := exec_draughtAllocation (inp := inp) h
  obtain ⟨u, hu, hvin, hplate, hhot, hpin, hdraught, hfns, hspace, hadmitted, hsent⟩ := readingsTaken_kept inp s
  rw [hu] at he hcap
  refine ⟨_, he, ?_, hvin, hplate, hhot, hpin, hfns, hspace, hadmitted, hsent⟩
  have hlt : effectiveCap u < 2 ^ 16 := Nat.lt_of_le_of_lt (effectiveCap_le u) (by decide)
  rw [hcap, BitVec.toNat_ofNat, Nat.mod_eq_of_lt hlt, effectiveCap_eq, hdraught]
  rfl

/-! ### The floors (R454, R455) -/

/-- Shares and what is left of the power, with the share of one more partition. -/
def shareStep (s : State) (acc : List Nat × Nat) (p : Nat) : List Nat × Nat :=
  let x := AMap.getD s.draught.parts p {}
  let given := acc.1.foldl (· + ·) 0
  let sh := if x.en then min (predicted s x) (min (1000 * s.draught.privMaxW.toNat - given) acc.2) else 0
  (acc.1 ++ [sh], acc.2 - sh)

theorem allocateShares_eq (s : State) (b : Nat) : allocateShares s b = (List.range 4).foldl (shareStep s) ([], b) := rfl

/-- A share is taken from what is left. -/
theorem shareStep_total (s : State) (acc : List Nat × Nat) (p : Nat) :
    (shareStep s acc p).1.sum + (shareStep s acc p).2 = acc.1.sum + acc.2 := by
  simp only [shareStep, List.sum_append, List.sum_cons, List.sum_nil]
  split <;> omega

theorem shareSteps_total (s : State) (ps : List Nat) (acc : List Nat × Nat) :
    (ps.foldl (shareStep s) acc).1.sum + (ps.foldl (shareStep s) acc).2 = acc.1.sum + acc.2 := by
  induction ps generalizing acc with
  | nil => rfl
  | cons p ps ih => rw [List.foldl_cons, ih, shareStep_total]

theorem allocateShares_total (s : State) (b : Nat) : (allocateShares s b).1.sum + (allocateShares s b).2 = b := by
  rw [allocateShares_eq, shareSteps_total]
  simp

/-- No more is lent than the shares hold. -/
theorem sharesLent_le (demandW shares : List Nat) : sharesLent demandW shares ≤ shares.sum := by
  have hfold : ∀ n k, (shares.zipIdx k).foldl (fun n e => n + (e.1 - min e.1 (1000 * demandW.getD (7 + e.2) 0))) n ≤
      n + shares.sum := by
    induction shares with
    | nil => exact fun n _ => le_rfl
    | cons x xs ih =>
      intro n k
      rw [List.zipIdx_cons, List.foldl_cons, List.sum_cons]
      refine (ih _ _).trans ?_
      omega
  exact (hfold 0 0).trans (Nat.zero_add _).le

/-- Grants and what is left of the power, with the domain in one more place of the priority order. -/
def grantStep (order : BitVec 28) (demand : List Nat) (acc : List (Nat × Nat) × Nat) (i : Nat) : List (Nat × Nat) × Nat :=
  let d := bits order.toNat (4 * i + 3) (4 * i)
  let fl := 1000 * domainFloor d
  let extra := min (1000 * demand.getD (d - 1) 0 - fl) acc.2
  (acc.1 ++ [(d, fl + extra)], acc.2 - extra)

theorem allocateGrants_eq (order : BitVec 28) (demand : List Nat) (b : Nat) :
    allocateGrants order demand b = ((List.range 7).foldl (grantStep order demand) ([], b)).1 := rfl

/-- A grant holds its domain's floor and no more than the power to give beyond it. -/
def grantWithin (b : Nat) (g : Nat × Nat) : Prop := 1000 * domainFloor g.1 ≤ g.2 ∧ g.2 ≤ 1000 * domainFloor g.1 + b

theorem grantSteps_within (order : BitVec 28) (demand : List Nat) (b : Nat) (is : List Nat) (acc : List (Nat × Nat) × Nat)
    (hacc : ∀ g ∈ acc.1, grantWithin b g) (hb : acc.2 ≤ b) :
    ∀ g ∈ (is.foldl (grantStep order demand) acc).1, grantWithin b g := by
  induction is generalizing acc with
  | nil => exact hacc
  | cons i is ih =>
    refine ih _ (fun g hg => ?_) (Nat.le_trans (Nat.sub_le _ _) hb)
    rcases List.mem_append.mp hg with hg | hg
    · exact hacc g hg
    · rw [List.mem_singleton] at hg
      subst hg
      simp only [grantWithin]
      omega

theorem allocateGrants_within (order : BitVec 28) (demand : List Nat) (b : Nat) :
    ∀ g ∈ allocateGrants order demand b, grantWithin b g :=
  grantSteps_within order demand b (List.range 7) ([], b) (by simp) le_rfl

theorem grantSteps_domains (order : BitVec 28) (demand : List Nat) (is : List Nat) (acc : List (Nat × Nat) × Nat) :
    (is.foldl (grantStep order demand) acc).1.map Prod.fst =
      acc.1.map Prod.fst ++ is.map (fun i => bits order.toNat (4 * i + 3) (4 * i)) := by
  induction is generalizing acc with
  | nil => simp
  | cons i is ih => simp [ih, grantStep]

/-- The grants are of the domains that the priority order names. -/
theorem allocateGrants_domains (order : BitVec 28) (demand : List Nat) (b : Nat) :
    (allocateGrants order demand b).map Prod.fst = (List.range 7).map (fun i => bits order.toNat (4 * i + 3) (4 * i)) := by
  rw [allocateGrants_eq, grantSteps_domains]
  rfl

/-- The default order names every domain. -/
theorem defaultOrder_names {d : Nat} (h1 : 1 ≤ d) (h7 : d ≤ 7) :
    d ∈ (List.range 7).map (fun i => bits (0x7654321 : BitVec 28).toNat (4 * i + 3) (4 * i)) := by
  interval_cases d <;> decide

/-- A domain's register holds one of its grants. -/
theorem grantRegs_of_mem {gs : List (Nat × Nat)} {d : Nat} (h : d ∈ gs.map Prod.fst) :
    ∃ g ∈ gs, g.1 = d ∧ AMap.getD (grantRegs gs) d 0 = BitVec.ofNat 16 (g.2 / 1000) := by
  induction gs using List.reverseRecOn with
  | nil => simp at h
  | append_singleton gs g ih =>
    rw [grantRegs, List.foldl_append, List.foldl_cons, List.foldl_nil]
    by_cases hg : g.1 = d
    · exact ⟨g, by simp, hg, by rw [hg, AMap.getD_insert_same]⟩
    · obtain ⟨g', hmem, hd, hget⟩ := ih (by simpa [Ne.symm hg] using h)
      exact ⟨g', by simp [hmem], hd, by rw [AMap.getD_insert_other _ _ _ _ _ hg]; exact hget⟩

/-- No more is given out than the cap carries. -/
theorem given_le {inp : DraughtInput} {u : State} (heta : u.draught.etaMilli ≤ 1000) :
    (allocateShares u (allocatable u)).2 + sharesLent inp.demandW (allocateShares u (allocatable u)).1 ≤ 2400000 := by
  have hpower : u.draught.etaMilli * effectiveCap u ≤ 1000 * 2400 := Nat.mul_le_mul heta (effectiveCap_le u)
  have htotal := allocateShares_total u (allocatable u)
  have hlent := sharesLent_le inp.demandW (allocateShares u (allocatable u)).1
  have hle : allocatable u ≤ u.draught.etaMilli * effectiveCap u := by unfold allocatable; omega
  omega

theorem domainFloor_le {d : Nat} (h7 : d ≤ 7) : domainFloor d ≤ 120 := by
  interval_cases d <;> decide

theorem draughtAllocation_floors (inp : DraughtInput) (s t : State) (d : Nat) (h : s.board.powered = true)
    (horder : s.draught.order = 0x7654321) (heta : s.draught.etaMilli ≤ 1000) (h1 : 1 ≤ d) (h7 : d ≤ 7)
    (ht : exec (.draughtAllocation inp) s = .next t) : domainFloor d ≤ (AMap.getD t.draught.grants d 0).toNat := by
  obtain ⟨draught, he, -, hgrants⟩ := exec_draughtAllocation (inp := inp) h
  obtain ⟨u, hu, -, -, -, -, hdraught, -⟩ := readingsTaken_kept inp s
  rw [hu] at he hgrants
  have hwithin := allocateGrants_within u.draught.order inp.demandW
    ((allocateShares u (allocatable u)).2 + sharesLent inp.demandW (allocateShares u (allocatable u)).1)
  have hgiven := given_le (inp := inp) (u := u) (by rw [hdraught]; exact heta)
  obtain ⟨g, hmem, hd, hreg⟩ := grantRegs_of_mem (gs := grantsOf inp u) (d := d) (by
    rw [grantsOf, allocateGrants_domains, hdraught, horder]
    exact defaultOrder_names h1 h7)
  obtain ⟨hfloor, hmost⟩ := hwithin g hmem
  rw [hd] at hfloor hmost
  have hsmall := domainFloor_le h7
  obtain rfl := Host.Outcome.next.inj (he.symm.trans ht)
  rw [hgrants, hreg, BitVec.toNat_ofNat]
  omega

/-- Settles O44: the cap is the least of its five figures, and what is given out beyond the floors is taken from the power. -/
theorem effectiveCapIsTheLowest : Obligations.EffectiveCapIsTheLowest :=
  ⟨draughtAllocation_caps, draughtAllocation_floors⟩

end Sys2Proof.Laws
end

section
/-! PROOFS. O45: droop, the rises it holds back, and the floor of the loom supply. -/

namespace Sys2Proof.Laws
open Sys2Proof Sys2Proof.Machine Sys2Proof.Safety

/-- The state with one more rise delayed, by an array of a loom (R457). -/
def riseCountedDelayed (s : State) (loom array : Nat) : State :=
  updLoom { s with draught := { s.draught with riseDelayed := satAdd s.draught.riseDelayed 1 } } loom
    (fun l => { l with delayed := array :: l.delayed })

/-- While a droop blocks its bolt, a rise there is at most counted as delayed (R461). -/
theorem exec_riseAdmit_of_droop {loom array : Nat} {power : Bool} {s : State}
    (h : now s < AMap.getD s.looms.boltBlocked (loom / 8) 0) :
    exec (.riseAdmit loom array power) s = .next s ∨
      exec (.riseAdmit loom array power) s = .next (riseCountedDelayed s loom array) := by
  change execRiseAdmit loom array power s = _ ∨ execRiseAdmit loom array power s = _
  unfold execRiseAdmit
  dsimp only
  split
  · exact .inl rfl
  · rw [if_pos (by simp [h])]
    split
    · exact .inl rfl
    · exact .inr rfl

/-- A delay that is counted moves no array and no descriptor. -/
theorem riseCountedDelayed_keeps (s : State) (loom array l : Nat) :
    (loomOf (riseCountedDelayed s loom array) l).phase = (loomOf s l).phase ∧
      (loomOf (riseCountedDelayed s loom array) l).waitRise = (loomOf s l).waitRise ∧
      (loomOf (riseCountedDelayed s loom array) l).dq = (loomOf s l).dq := by
  unfold riseCountedDelayed
  by_cases hl : l = loom
  · subst hl
    rw [loomOf_updLoom_same]
    exact ⟨rfl, rfl, rfl⟩
  · rw [loomOf_updLoom_other _ _ hl]
    exact ⟨rfl, rfl, rfl⟩

theorem riseAdmit_blocked (loom array : Nat) (power : Bool) (s : State)
    (h : now s < AMap.getD s.looms.boltBlocked (loom / 8) 0) :
    ∃ t, exec (.riseAdmit loom array power) s = .next t ∧ ∀ l, (loomOf t l).phase = (loomOf s l).phase ∧
      (loomOf t l).waitRise = (loomOf s l).waitRise ∧ (loomOf t l).dq = (loomOf s l).dq := by
  rcases exec_riseAdmit_of_droop h with he | he
  · exact ⟨s, he, fun _ => ⟨rfl, rfl, rfl⟩⟩
  · exact ⟨_, he, riseCountedDelayed_keeps s loom array⟩

/-- A voltage rounded up to a step of 5 mV (R461). -/
theorem roundUp_five (n : Nat) : roundUp n 5 % 5 = 0 ∧ n ≤ roundUp n 5 ∧ roundUp n 5 < n + 5 := by
  simp only [roundUp, ceilDiv]
  omega

/-- What DROOP_FLOOR makes of the controller's figures (R458, R461). -/
def droopFloored (x : Draught) : Draught := { x with
  vDroopMv := roundUp (610 + x.deepest) 5, deepest := 0
  vFloorMv := if x.planned then BitVec.ofNat 12 (max (roundUp (610 + x.deepest) 5) x.ageFloorMv.toNat) else x.vFloorMv }

theorem exec_droopFloor (s : State) :
    exec .droopFloor s = .next { recur s .droop with draught := droopFloored s.draught } := rfl

/-- After a margin plan the floor is the higher of droop and ageing, which the register holds. -/
theorem droopFloored_floor {x : Draught} (hp : x.planned = true) (hd : x.deepest ≤ 650) (ha : x.ageFloorMv.toNat < 4096) :
    (droopFloored x).vFloorMv.toNat = max (droopFloored x).vDroopMv x.ageFloorMv.toNat := by
  obtain ⟨-, -, hstep⟩ := roundUp_five (610 + x.deepest)
  have hlt : max (roundUp (610 + x.deepest) 5) x.ageFloorMv.toNat < 2 ^ 12 := max_lt (by omega) (by omega)
  have hfloor : (droopFloored x).vFloorMv = BitVec.ofNat 12 (max (roundUp (610 + x.deepest) 5) x.ageFloorMv.toNat) := if_pos hp
  rw [hfloor, BitVec.toNat_ofNat, Nat.mod_eq_of_lt hlt]
  rfl

theorem droopFloor_sets (s : State) (hd : s.draught.deepest ≤ 650) : ∃ t, exec .droopFloor s = .next t ∧
    t.draught.vDroopMv % 5 = 0 ∧ 610 + s.draught.deepest ≤ t.draught.vDroopMv ∧
    t.draught.vDroopMv < 615 + s.draught.deepest ∧
    (s.draught.planned = true → s.draught.ageFloorMv.toNat < 4096 →
      t.draught.vFloorMv.toNat = max t.draught.vDroopMv s.draught.ageFloorMv.toNat) ∧
    (s.draught.planned = false → t.draught.vFloorMv = s.draught.vFloorMv) ∧ t.draught.deepest = 0 ∧
    t = { recur s .droop with draught := t.draught } := by
  obtain ⟨hstep, hge, hlt⟩ := roundUp_five (610 + s.draught.deepest)
  exact ⟨_, exec_droopFloor s, hstep, hge, hlt.trans_eq (by omega), fun hp ha => droopFloored_floor hp hd ha,
    fun hp => if_neg (by simp [hp]), rfl, rfl⟩

/-- Settles O45: a droop that counts blocks its bolt, and the floor follows the deepest droop. -/
theorem droopIsWatched : Obligations.DroopIsWatched :=
  ⟨fun _ _ _ hdeep => if_neg (Nat.not_le.mpr hdeep), fun _ _ _ hsmall => if_pos hsmall, riseAdmit_blocked, droopFloor_sets⟩

end Sys2Proof.Laws
end
